-- ==== Sys2Proof/Word.lean ====
section
/-!
DEFINITION. The words and bytes of the Hexael machine, the Karic packet as it stands on a link (R284, R285), and the plainest helpers on them.
-/
namespace Sys2Proof

/-- A 32-bit register word (R7). -/
abbrev Word := BitVec 32

/-- A byte of memory (R4). -/
abbrev Byte := BitVec 8

/-- A 64-bit quantity: a virtual address, a page-table entry, a mask of progress bits. -/
abbrev DWord := BitVec 64

/-- A byte sequence is the data of a packet, a chunk, a record; the byte at the lowest address comes first (R4). -/
abbrev Bytes := List Byte

/-- The number that a little-endian byte sequence holds (R4). -/
def leNat : Bytes → Nat
  | [] => 0
  | b :: bs => b.toNat + 256 * leNat bs

/-- The `n` low bytes of a number, lowest first (R4). -/
def natLe : Nat → Nat → Bytes
  | 0, _ => []
  | n + 1, x => BitVec.ofNat 8 x :: natLe n (x / 256)

/-- `x[hi:lo]` as a number, by its low bit and its width (R4). -/
def bitsOf (x lo w : Nat) : Nat := x / 2 ^ lo % 2 ^ w

/-- Bit `i` of a number. -/
def bitOf (x i : Nat) : Bool := x / 2 ^ i % 2 == 1

/-- `sext(x, n)` of R6: the two's-complement value of an n-bit number. -/
def sextNat (x n : Nat) : Int := if x % 2 ^ n < 2 ^ (n - 1) then (x % 2 ^ n : Nat) else (x % 2 ^ n : Nat) - (2 ^ n : Nat)

/-- A Karic packet: the 32-byte header of R285 field by field, its data, and its check when CF.CHK is 1 (R284). `fmt` is a chunk's
check format (R307), which the checkpoints on its way all know although no field of the header tells it (log entry 27). -/
structure Packet where
  ty    : BitVec 8
  vc    : BitVec 8 := 0#8
  rf    : BitVec 8 := 0#8
  cf    : BitVec 8 := 0#8
  src   : BitVec 16
  dst   : BitVec 16
  via   : BitVec 16 := 0#16
  sasid : BitVec 16 := 0#16
  txid  : Word := 0#32
  addr  : DWord := 0#64
  len   : BitVec 16 := 0#16
  aux   : BitVec 16 := 0#16
  sqf   : Word := 0#32
  data  : Bytes := []
  chkS  : DWord := 0#64
  chkA  : DWord := 0#64
  fmt   : BitVec 4 := 0#4
  deriving DecidableEq, Repr

end Sys2Proof
end

