-- ==== Sys2Proof/Machine/Flags.lean ====
section
/-!
DEFINITION. Flags and conditions: the five floating-point exception flags (R158), and the condition codes of compare words (R85) over integers and over
decoded floating-point values.
-/
namespace Sys2Proof.Machine
open Sys2Proof

/-- A set of the flags of R158: NV 4, DZ 3, OF 2, UF 1, NX 0. -/
abbrev FFlags := BitVec 5

/-- Invalid. -/
def flagNV : FFlags := 16#5
/-- Divide by zero. -/
def flagDZ : FFlags := 8#5
/-- Overflow. -/
def flagOF : FFlags := 4#5
/-- Underflow. -/
def flagUF : FFlags := 2#5
/-- Inexact. -/
def flagNX : FFlags := 1#5

/-- A flag when a condition holds. -/
def flagIf (c : Bool) (f : FFlags) : FFlags := if c then f else 0#5

/-- An exact value: a NaN, an infinity, or a signed magnitude m·2^e that keeps the sign of zero (R6, R151). -/
inductive Val where
  | nan (signalling : Bool)
  | inf (neg : Bool)
  | fin (neg : Bool) (m : Nat) (e : Int)
  deriving DecidableEq, Repr

/-- Is the value a NaN? -/
def Val.isNan : Val → Bool
  | .nan _ => true
  | _ => false

/-- NV of a signalling-NaN operand (R158). -/
def Val.snan : Val → FFlags
  | .nan true => flagNV
  | _ => 0#5

/-- The order of two magnitudes m·2^e. -/
def cmpMag (m1 : Nat) (e1 : Int) (m2 : Nat) (e2 : Int) : Ordering :=
  if e1 ≤ e2 then compare m1 (m2 * 2 ^ (e2 - e1).toNat) else compare (m1 * 2 ^ (e1 - e2).toNat) m2

/-- The order of two numbers, with -0 equal to +0; none when either is a NaN. -/
def Val.cmp : Val → Val → Option Ordering
  | .nan _, _ => none
  | _, .nan _ => none
  | .inf a, .inf b => some (if a = b then .eq else if a then .lt else .gt)
  | .inf a, .fin _ _ _ => some (if a then .lt else .gt)
  | .fin _ _ _, .inf b => some (if b then .gt else .lt)
  | .fin n1 m1 e1, .fin n2 m2 e2 =>
    if m1 = 0 ∧ m2 = 0 then some .eq
    else if m1 = 0 then some (if n2 then .gt else .lt)
    else if m2 = 0 then some (if n1 then .lt else .gt)
    else if n1 = n2 then some (if n1 then cmpMag m2 e2 m1 e1 else cmpMag m1 e1 m2 e2)
    else some (if n1 then .lt else .gt)

/-- The integer conditions of R85; none for a reserved code. -/
def intCond (cc : Nat) (a b : Word) : Option Bool :=
  match cc with
  | 0 => some (a == b)
  | 1 => some (a != b)
  | 2 => some (a.slt b)
  | 3 => some (a.sle b)
  | 4 => some (b.slt a)
  | 5 => some (b.sle a)
  | 6 => some (a.ult b)
  | 7 => some (a.ule b)
  | 8 => some (b.ult a)
  | 9 => some (b.ule a)
  | _ => none

/-- The floating-point conditions of R85; none for a reserved code. An unordered pair satisfies codes 1, 6 to 9 and `.nan`. -/
def fpCond (cc : Nat) (a b : Val) : Option Bool :=
  let r := a.cmp b
  let un := r.isNone
  match cc with
  | 0 => some (r == some .eq)
  | 1 => some (r != some .eq)
  | 2 => some (r == some .lt)
  | 3 => some (r == some .lt || r == some .eq)
  | 4 => some (r == some .gt)
  | 5 => some (r == some .gt || r == some .eq)
  | 6 => some (un || r == some .lt)
  | 7 => some (un || r == some .lt || r == some .eq)
  | 8 => some (un || r == some .gt)
  | 9 => some (un || r == some .gt || r == some .eq)
  | 10 => some (!un)
  | 11 => some un
  | _ => none

end Sys2Proof.Machine
end

