-- ==== Sys2Proof/Machine/Num.lean ====
section
/-!
DEFINITION. Numbers: the element formats (R86, R150 to R155), exact decoding, the rounding functions of R156 with the fixed cases of R157 and the flags
of R158, exact sums and products, the correctly rounded functions of R171, block quantisation (R164) and folding (R166).
-/
namespace Sys2Proof.Machine
open Sys2Proof

/-- A floating-point element format (R151): widths, bias, the code of MAXF, and the codes of infinity and of its canonical NaN where it has them. -/
structure Fmt where
  ebits : Nat
  mbits : Nat
  bias : Nat
  maxCode : Nat
  infCode : Option Nat
  nanCode : Option Nat
  deriving DecidableEq, Repr

/-- FP32. -/
def fmtF32 : Fmt := ⟨8, 23, 127, 0x7F7FFFFF, some 0x7F800000, some 0x7FC00000⟩
/-- BF16. -/
def fmtBf16 : Fmt := ⟨8, 7, 127, 0x7F7F, some 0x7F80, some 0x7FC0⟩
/-- FP16. -/
def fmtF16 : Fmt := ⟨5, 10, 15, 0x7BFF, some 0x7C00, some 0x7E00⟩
/-- FP8 E4M3. -/
def fmtE4m3 : Fmt := ⟨4, 3, 7, 0x7E, none, some 0x7F⟩
/-- FP8 E5M2. -/
def fmtE5m2 : Fmt := ⟨5, 2, 15, 0x7B, some 0x7C, some 0x7E⟩
/-- FP6 E2M3. -/
def fmtE2m3 : Fmt := ⟨2, 3, 1, 0x1F, none, none⟩
/-- FP6 E3M2. -/
def fmtE3m2 : Fmt := ⟨3, 2, 3, 0x1F, none, none⟩
/-- FP4 E2M1. -/
def fmtE2m1 : Fmt := ⟨2, 1, 1, 0x7, none, none⟩

/-- The floating-point format of a code of R86; SX4 elements take E2M1's parameters, the integers have none. -/
def fmtOf (code : Nat) : Option Fmt :=
  match code with
  | 0 => some fmtF32
  | 1 => some fmtBf16
  | 2 => some fmtF16
  | 3 => some fmtE4m3
  | 4 => some fmtE5m2
  | 5 => some fmtE2m3
  | 6 => some fmtE3m2
  | 7 => some fmtE2m1
  | 8 => some fmtE2m1
  | _ => none

/-- The width of an element of a format code (R150). -/
def fmtWidth (code : Nat) : Nat :=
  match code with
  | 0 => 32 | 9 => 32
  | 1 => 16 | 2 => 16
  | 3 => 8 | 4 => 8 | 10 => 8
  | 5 => 6 | 6 => 6
  | _ => 4

/-- The number of elements a register holds (R150). -/
def fmtCount (code : Nat) : Nat :=
  match code with
  | 0 => 1 | 9 => 1
  | 1 => 2 | 2 => 2
  | 3 => 4 | 4 => 4 | 5 => 4 | 6 => 4 | 10 => 4
  | _ => 8

/-- The smallest normal exponent. -/
def Fmt.emin (f : Fmt) : Int := 1 - (f.bias : Int)

/-- The exponent of the least bit of a subnormal. -/
def Fmt.qmin (f : Fmt) : Int := f.emin - (f.mbits : Int)

/-- The sign bit's weight. -/
def Fmt.signBit (f : Fmt) : Nat := 2 ^ (f.ebits + f.mbits)

/-- A code with its sign. -/
def Fmt.signed (f : Fmt) (neg : Bool) (code : Nat) : Nat := if neg then f.signBit + code else code

/-- The exact value of a code (R151). -/
def Fmt.decode (f : Fmt) (code : Nat) : Val :=
  let neg := bitOf code (f.ebits + f.mbits)
  let mag := code % f.signBit
  let m := mag % 2 ^ f.mbits
  let e := mag / 2 ^ f.mbits
  if f.infCode = some mag then .inf neg
  else if f.nanCode.isSome && decide (mag > f.maxCode) then .nan (decide (f.mbits ≥ 7) && decide (m < 2 ^ (f.mbits - 1)))
  else if e = 0 then .fin neg m f.qmin
  else .fin neg (2 ^ f.mbits + m) (f.qmin + (e - 1 : Nat))

/-- The rounding modes of R93 and R156. -/
inductive RMode where
  | rne | rz | ru | rd
  deriving DecidableEq, Repr

/-- The mode of an RND code; a reserved code has none. -/
def rmodeOf (rnd : Nat) : Option RMode :=
  match rnd with
  | 0 => some .rne
  | 1 => some .rz
  | 2 => some .ru
  | 3 => some .rd
  | _ => none

/-- Does the discarded part round the magnitude up? `half` compares it with half a unit, `inexact` says it is not zero. -/
def roundsUp (mode : RMode) (neg odd inexact : Bool) (half : Ordering) : Bool :=
  match mode with
  | .rne => half == .gt || (half == .eq && odd)
  | .rz => false
  | .ru => inexact && !neg
  | .rd => inexact && neg

/-- The integer k and the inexactness of rounding the magnitude (m + s)·2^e to k·2^q, where s is 0, or lies strictly between 0 and 1 when `sticky`
(R156); `q ≥ e`, or the magnitude is exact. -/
def roundMag (mode : RMode) (neg : Bool) (m : Nat) (e : Int) (sticky : Bool) (q : Int) : Nat × Bool :=
  if q ≤ e then
    let k := m * 2 ^ (e - q).toNat
    (if roundsUp mode neg (k % 2 == 1) sticky .lt then k + 1 else k, sticky)
  else
    let sh := (q - e).toNat
    if m.log2 + 2 < sh then
      let inexact := m != 0 || sticky
      (if roundsUp mode neg false inexact .lt then 1 else 0, inexact)
    else
      let k := m / 2 ^ sh
      let rem := m % 2 ^ sh
      let inexact := rem != 0 || sticky
      let half := if rem = 2 ^ (sh - 1) then (if sticky then Ordering.gt else .eq) else compare rem (2 ^ (sh - 1))
      (if roundsUp mode neg (k % 2 == 1) inexact half then k + 1 else k, inexact)

/-- `round_u`: the code the magnitude rounds to with no upper limit on the exponent, and whether it is inexact. -/
def Fmt.roundU (f : Fmt) (mode : RMode) (neg : Bool) (m : Nat) (e : Int) (sticky : Bool) : Nat × Bool :=
  let top : Int := (m.log2 : Int) + e
  let q : Int := max top f.emin - (f.mbits : Int)
  let (k, inexact) := roundMag mode neg m e sticky q
  ((q - f.qmin).toNat * 2 ^ f.mbits + k, inexact)

/-- `away` of R156. -/
def awayFrom (mode : RMode) (neg : Bool) : Bool :=
  match mode with
  | .rne => true
  | .rz => false
  | .ru => !neg
  | .rd => neg

/-- UF of R158: a nonzero result below 2^emin that is inexact. -/
def Fmt.tiny (f : Fmt) (code : Nat) (inexact : Bool) : FFlags := flagIf (inexact && code != 0 && decide (code < 2 ^ f.mbits)) flagUF

/-- The canonical NaN of a format that has one (R157). -/
def Fmt.nan (f : Fmt) : Nat := f.nanCode.getD 0

/-- `round_arith` of a magnitude that may exceed m·2^e by less than one unit of it (R156). -/
def Fmt.arithMag (f : Fmt) (mode : RMode) (neg : Bool) (m : Nat) (e : Int) (sticky : Bool) : Nat × FFlags :=
  if m = 0 && !sticky then (f.signed neg 0, 0#5)
  else
    let (c, inexact) := f.roundU mode neg m e sticky
    if c > f.maxCode then
      (f.signed neg (if awayFrom mode neg then f.infCode.getD f.maxCode else f.maxCode), flagOF ||| flagNX)
    else (f.signed neg c, flagIf inexact flagNX ||| f.tiny c inexact)

/-- `round_arith` (R156, R157). -/
def Fmt.arith (f : Fmt) (mode : RMode) : Val → Nat × FFlags
  | .nan _ => (f.nan, 0#5)
  | .inf neg => (f.signed neg (f.infCode.getD f.maxCode), 0#5)
  | .fin neg m e => f.arithMag mode neg m e false

/-- An overflow under `round_narrow`: infinity, NaN or MAXF (R156). -/
def Fmt.narrowOver (f : Fmt) (mode : RMode) (ovf neg : Bool) : Nat :=
  if ovf && awayFrom mode neg then
    match f.infCode with
    | some c => f.signed neg c
    | none => f.signed neg (f.nanCode.getD f.maxCode)
  else f.signed neg f.maxCode

/-- `round_narrow` (R156, R157). -/
def Fmt.narrow (f : Fmt) (mode : RMode) (ovf : Bool) : Val → Nat × FFlags
  | .nan _ => match f.nanCode with
    | some c => (c, 0#5)
    | none => (0, flagNV)
  | .inf neg => match f.infCode with
    | some c => (f.signed neg c, 0#5)
    | none => (f.narrowOver mode ovf neg, flagOF ||| flagNX)
  | .fin neg m e =>
    if m = 0 then (f.signed neg 0, 0#5)
    else
      let (c, inexact) := f.roundU mode neg m e false
      if c > f.maxCode then (f.narrowOver mode ovf neg, flagOF ||| flagNX)
      else (f.signed neg c, flagIf inexact flagNX ||| f.tiny c inexact)

/-- The integer a value rounds to, and whether that is inexact. -/
def roundToInt (mode : RMode) (neg : Bool) (m : Nat) (e : Int) : Int × Bool :=
  let (k, inexact) := roundMag mode neg m e false 0
  (if neg then -(k : Int) else (k : Int), inexact)

/-- `round_int` (R156, R157): NaN gives 0 with NV; an infinity or a value out of range saturates with NV. -/
def roundInt (w : Nat) (mode : RMode) : Val → Int × FFlags
  | .nan _ => (0, flagNV)
  | .inf neg => (if neg then -((2 ^ (w - 1) : Nat) : Int) else ((2 ^ (w - 1) : Nat) : Int) - 1, flagNV)
  | .fin neg m e =>
    let hi : Int := ((2 ^ (w - 1) : Nat) : Int) - 1
    let lo : Int := -((2 ^ (w - 1) : Nat) : Int)
    if e ≥ 0 && decide ((m.log2 : Int) + e > 64) && m != 0 then (if neg then lo else hi, flagNV)
    else
      let (r, inexact) := roundToInt mode neg m e
      if r > hi then (hi, flagNV) else if r < lo then (lo, flagNV) else (r, flagIf inexact flagNX)

/-- The value of an integer. -/
def valOfInt (x : Int) : Val := .fin (decide (x < 0)) x.natAbs 0

/-- A signed sum of two exact finite values; a zero sum is +0, or -0 under RD, unless both are zeros of one sign (R169). -/
def addFin (mode : RMode) (n1 : Bool) (m1 : Nat) (e1 : Int) (n2 : Bool) (m2 : Nat) (e2 : Int) : Val :=
  if m1 = 0 && m2 = 0 then (if n1 = n2 then .fin n1 0 0 else .fin (mode == .rd) 0 0)
  else if m1 = 0 then .fin n2 m2 e2
  else if m2 = 0 then .fin n1 m1 e1
  else
    let e := min e1 e2
    let a : Int := (m1 * 2 ^ (e1 - e).toNat : Nat)
    let b : Int := (m2 * 2 ^ (e2 - e).toNat : Nat)
    let s : Int := (if n1 then -a else a) + (if n2 then -b else b)
    if s = 0 then .fin (mode == .rd) 0 0 else .fin (decide (s < 0)) s.natAbs e

/-- The exact sum (R169), with NV of infinity minus infinity (R158). -/
def Val.add (mode : RMode) : Val → Val → Val × FFlags
  | .nan _, _ => (.nan false, 0#5)
  | _, .nan _ => (.nan false, 0#5)
  | .inf a, .inf b => if a = b then (.inf a, 0#5) else (.nan false, flagNV)
  | .inf a, .fin _ _ _ => (.inf a, 0#5)
  | .fin _ _ _, .inf b => (.inf b, 0#5)
  | .fin n1 m1 e1, .fin n2 m2 e2 => (addFin mode n1 m1 e1 n2 m2 e2, 0#5)

/-- The exact product (R169), with NV of zero times infinity (R158). -/
def Val.mul : Val → Val → Val × FFlags
  | .nan _, _ => (.nan false, 0#5)
  | _, .nan _ => (.nan false, 0#5)
  | .inf a, .inf b => (.inf (a != b), 0#5)
  | .inf a, .fin b m _ => if m = 0 then (.nan false, flagNV) else (.inf (a != b), 0#5)
  | .fin a m _, .inf b => if m = 0 then (.nan false, flagNV) else (.inf (a != b), 0#5)
  | .fin n1 m1 e1, .fin n2 m2 e2 => (.fin (n1 != n2) (m1 * m2) (e1 + e2), 0#5)

/-- The negative of a value. -/
def Val.neg : Val → Val
  | .nan s => .nan s
  | .inf a => .inf (!a)
  | .fin a m e => .fin (!a) m e

/-- A value times a power of two. -/
def Val.scale (k : Int) : Val → Val
  | .fin a m e => .fin a m (e + k)
  | v => v

/-- A rounded result with further flags. -/
def withFlags (fl : FFlags) (r : Nat × FFlags) : Nat × FFlags := (r.1, r.2 ||| fl)

/-- Addition of two codes (R169). -/
def Fmt.fadd (f : Fmt) (mode : RMode) (a b : Nat) : Nat × FFlags :=
  let x := f.decode a
  let y := f.decode b
  let (v, fl) := x.add mode y
  withFlags (fl ||| x.snan ||| y.snan) (f.arith mode v)

/-- Subtraction of two codes (R169). -/
def Fmt.fsub (f : Fmt) (mode : RMode) (a b : Nat) : Nat × FFlags :=
  let x := f.decode a
  let y := f.decode b
  let (v, fl) := x.add mode y.neg
  withFlags (fl ||| x.snan ||| y.snan) (f.arith mode v)

/-- Multiplication of two codes (R169). -/
def Fmt.fmul (f : Fmt) (mode : RMode) (a b : Nat) : Nat × FFlags :=
  let x := f.decode a
  let y := f.decode b
  let (v, fl) := x.mul y
  withFlags (fl ||| x.snan ||| y.snan) (f.arith mode v)

/-- `a·b + d` with one rounding (R169, R175). A product of zero and infinity raises NV whatever `d` is (R158; log entry 166). -/
def Fmt.ffma (f : Fmt) (mode : RMode) (a b d : Nat) : Nat × FFlags :=
  let x := f.decode a
  let y := f.decode b
  let z := f.decode d
  let (p, fl) := x.mul y
  let (v, fl') := p.add mode z
  withFlags (fl ||| fl' ||| x.snan ||| y.snan ||| z.snan) (f.arith mode v)

/-- Is the value negative, with -0 below +0? -/
def Val.below (x y : Val) : Bool :=
  match x.cmp y with
  | some .lt => true
  | some .eq => match x, y with
    | .fin true 0 _, .fin false 0 _ => true
    | _, _ => false
  | _ => false

/-- `FMIN` and `FMAX` (R169): one NaN gives the other operand, two give the canonical NaN; a signalling NaN raises NV. -/
def fminmax (mx : Bool) (a b : Nat) : Nat × FFlags :=
  let x := fmtF32.decode a
  let y := fmtF32.decode b
  let fl := x.snan ||| y.snan
  match x.isNan, y.isNan with
  | true, true => (0x7FC00000, fl)
  | true, false => (b, fl)
  | false, true => (a, fl)
  | false, false => (if mx then (if x.below y then b else a) else (if y.below x then b else a), fl)

/-- The greatest integer whose square is at most `n`, bit by bit from bit `k - 1` down. -/
def isqrt : Nat → Nat → Nat → Nat
  | 0, _, r => r
  | k + 1, n, r => if (r + 2 ^ k) * (r + 2 ^ k) ≤ n then isqrt k n (r + 2 ^ k) else isqrt k n r

/-- 1/a (R171). -/
def frcpVal (mode : RMode) : Val → Nat × FFlags
  | .nan s => (0x7FC00000, flagIf s flagNV)
  | .inf neg => (fmtF32.signed neg 0, 0#5)
  | .fin neg m e =>
    if m = 0 then (fmtF32.signed neg 0x7F800000, flagDZ)
    else fmtF32.arithMag mode neg (2 ^ 96 / m) (-e - 96) (2 ^ 96 % m != 0)

/-- 1/√a (R171). -/
def frsqVal (mode : RMode) : Val → Nat × FFlags
  | .nan s => (0x7FC00000, flagIf s flagNV)
  | .inf neg => if neg then (0x7FC00000, flagNV) else (0, 0#5)
  | .fin neg m e =>
    if m = 0 then (fmtF32.signed neg 0x7F800000, flagDZ)
    else if neg then (0x7FC00000, flagNV)
    else
      let m' := if e % 2 = 0 then m else 2 * m
      let e' := if e % 2 = 0 then e else e - 1
      let r := isqrt 97 (2 ^ 192 / m') 0
      fmtF32.arithMag mode false r (-(e' / 2) - 96) (r * r * m' != 2 ^ 192)

/-- ln 2 · 2^256, rounded down. -/
def ln2Fix : Nat := 0xB17217F7D1CF79ABC9E3B39803F2F6AF40F343267298B62D8A0D175B8BAAFA2B

/-- The sum of x^i / i! from term i on, in units of 2^-256, each term rounded down. -/
def expSeries : Nat → Nat → Nat → Nat → Nat
  | 0, _, _, _ => 0
  | fuel + 1, i, x, term => term + expSeries fuel (i + 1) x (term * x / 2 ^ 256 / (i + 1))

/-- 2^f in units of 2^-256 for f in units of 2^-256 below 1, within 2^-240 below the true value. -/
def exp2Fix (f : Nat) : Nat := expSeries 80 0 (f * ln2Fix / 2 ^ 256) (2 ^ 256)

/-- 2^a (R171): exact for an integer; otherwise irrational, and the fixed-point value below it with a sticky rest rounds as it does. -/
def fex2Val (mode : RMode) : Val → Nat × FFlags
  | .nan s => (0x7FC00000, flagIf s flagNV)
  | .inf neg => if neg then (0, 0#5) else (0x7F800000, 0#5)
  | .fin neg m e =>
    if m = 0 then (0x3F800000, 0#5)
    else if (m.log2 : Int) + e ≥ 9 then fmtF32.arithMag mode false 1 (if neg then -512 else 512) false
    else
      -- a in units of 2^-256, rounded to the exact value: e ≥ -149
      let x : Int := (m * 2 ^ (e + 256).toNat : Nat)
      let y : Int := if neg then -x else x
      let n : Int := y / (2 ^ 256 : Nat)
      let f : Nat := (y % (2 ^ 256 : Nat)).toNat
      if f = 0 then fmtF32.arithMag mode false 1 n false
      else fmtF32.arithMag mode false (exp2Fix f) (n - 256) true

/-- The sum of z^(2i+1) / (2i+1) from i on, in units of 2^-256, each term rounded down. -/
def atanhSeries : Nat → Nat → Nat → Nat → Nat
  | 0, _, _, _ => 0
  | fuel + 1, i, z2, p => p / (2 * i + 1) + atanhSeries fuel (i + 1) z2 (p * z2 / 2 ^ 256)

/-- log2 of x = m / 2^k in [1, 2), in units of 2^-256, within 2^-240 below the true value. -/
def log2Fix (m k : Nat) : Nat :=
  let z := (m - 2 ^ k) * 2 ^ 256 / (m + 2 ^ k)
  2 * atanhSeries 90 0 (z * z / 2 ^ 256) z * 2 ^ 256 / (ln2Fix + 1)

/-- log2 a (R171): exact for a power of two; otherwise irrational, rounded from a fixed-point bound with a sticky rest. -/
def flg2Val (mode : RMode) : Val → Nat × FFlags
  | .nan s => (0x7FC00000, flagIf s flagNV)
  | .inf neg => if neg then (0x7FC00000, flagNV) else (0x7F800000, 0#5)
  | .fin neg m e =>
    if m = 0 then (0xFF800000, flagDZ)
    else if neg then (0x7FC00000, flagNV)
    else
      let k := m.log2
      let n : Int := (k : Int) + e
      if m = 2 ^ k then fmtF32.arithMag mode (decide (n < 0)) n.natAbs 0 false
      else
        let v : Int := n * (2 ^ 256 : Nat) + (log2Fix m k : Nat)
        if 0 ≤ v then fmtF32.arithMag mode false v.toNat (-256) true
        else fmtF32.arithMag mode true ((-v).toNat - 2 ^ 14) (-256) true

/-- `FCLS` (R172): one bit names the class. -/
def fclsCode (a : Nat) : Nat :=
  let neg := bitOf a 31
  match fmtF32.decode a with
  | .nan s => if s then 0x100 else 0x200
  | .inf _ => if neg then 0x1 else 0x80
  | .fin _ m _ => if m = 0 then (if neg then 0x8 else 0x10)
    else if m < 2 ^ 23 then (if neg then 0x4 else 0x20)
    else (if neg then 0x2 else 0x40)

/-- `FRND` (R173): an integral value by mode, the sign kept on zero; only NV of a signalling NaN. -/
def frndCode (mode : RMode) (a : Nat) : Nat × FFlags :=
  match fmtF32.decode a with
  | .nan s => (0x7FC00000, flagIf s flagNV)
  | .inf _ => (a, 0#5)
  | .fin neg m e =>
    let (r, _) := roundToInt mode neg m e
    (fmtF32.signed neg (fmtF32.arithMag mode false r.natAbs 0 false).1, 0#5)

/-- The packed-half format that FPST.HF selects (R159, R175). -/
def halfFmt (hf : Bool) : Fmt := if hf then fmtF16 else fmtBf16

/-- A packed-half word over two halves of each operand (R175). -/
def halves (op : Nat → Nat → Nat → Nat × FFlags) (a b d : Word) : Word × FFlags :=
  let lo := op (bitsOf a.toNat 0 16) (bitsOf b.toNat 0 16) (bitsOf d.toNat 0 16)
  let hi := op (bitsOf a.toNat 16 16) (bitsOf b.toNat 16 16) (bitsOf d.toNat 16 16)
  (BitVec.ofNat 32 (lo.1 + hi.1 * 2 ^ 16), lo.2 ||| hi.2)

/-- The exact value of an element: an MXINT8 element is i/64 when `mx` (R155), and an E8M0 byte has no place here. -/
def elemVal (fmt code : Nat) (mx : Bool) : Val :=
  match fmt with
  | 9 => valOfInt (sextNat code 32)
  | 10 => (valOfInt (sextNat code 8)).scale (if mx then -6 else 0)
  | 11 => valOfInt (sextNat code 4)
  | f => match fmtOf f with
    | some x => x.decode code
    | none => .nan false

/-- The code of a value in a narrow element format, by `round_narrow`; an SX4 element never takes 0b1000 (R157, R178). -/
def encodeElem (fmt : Nat) (mode : RMode) (ovf : Bool) (v : Val) : Nat × FFlags :=
  match fmt with
  | 9 => let (r, fl) := roundInt 32 mode v; ((r % (2 ^ 32 : Nat)).toNat, fl)
  | 10 => let (r, fl) := roundInt 8 mode v; ((r % (2 ^ 8 : Nat)).toNat, fl)
  | 11 => let (r, fl) := roundInt 4 mode v; ((r % (2 ^ 4 : Nat)).toNat, fl)
  | 8 => let (c, fl) := fmtE2m1.narrow mode ovf v; (if c = 8 then 0 else c, fl)
  | f => match fmtOf f with
    | some x => x.narrow mode ovf v
    | none => (0, 0#5)

/-- The MAXF of a block element format as a magnitude m·2^e; MXINT8 counts with 127/64 (R164). -/
def blockMax (fmt : Nat) : Nat × Int :=
  match fmt with
  | 3 => (7, 6)
  | 4 => (7, 13)
  | 5 => (15, -1)
  | 6 => (7, 2)
  | 10 => (127, -6)
  | _ => (3, 1)

/-- `scale_exp` of a magnitude m·2^e (R164). -/
def scaleExp (fmt : Nat) (m : Nat) (e : Int) : Int :=
  if m = 0 then -127
  else
    let (mx, ex) := blockMax fmt
    let d : Int := ((m.log2 : Int) + e) - ((mx.log2 : Int) + ex)
    let r := if cmpMag m e mx (ex + d) == .gt then d + 1 else d
    max (-127) (min 127 r)

/-- `scale_exp` of a magnitude that may be infinite (R164). -/
def scaleExpVal (fmt : Nat) : Val → Int
  | .inf _ => 127
  | .fin _ m e => scaleExp fmt m e
  | .nan _ => 128

/-- The magnitude order of two values that are not NaN: is |x| < |y|? -/
def Val.magLt : Val → Val → Bool
  | .inf _, _ => false
  | .fin _ _ _, .inf _ => true
  | .fin _ m1 e1, .fin _ m2 e2 => if m2 = 0 then false else if m1 = 0 then true else cmpMag m1 e1 m2 e2 == .lt
  | _, _ => false

/-- The lowest index of a largest magnitude. -/
def argMaxMag : List Val → Nat → Nat → Val → Nat
  | [], _, best, _ => best
  | x :: xs, i, best, bv => if bv.magLt x then argMaxMag xs (i + 1) i x else argMaxMag xs (i + 1) best bv

/-- The largest magnitude, leaving one index out. -/
def maxMag : List Val → Nat → Option Nat → Val → Val
  | [], _, _, b => b
  | x :: xs, i, o, b => if o != some i && b.magLt x then maxMag xs (i + 1) o x else maxMag xs (i + 1) o b

/-- The code of one element of a block: round_narrow to nearest with OVF 0, an infinity saturating too (R164). -/
def blockCode (fmt : Nat) (v : Val) : Nat :=
  match fmt with
  | 10 => ((roundInt 8 .rne (v.scale 6)).1 % (2 ^ 8 : Nat)).toNat
  | 4 => match v with
    | .inf neg => fmtE5m2.signed neg fmtE5m2.maxCode
    | x => (fmtE5m2.narrow .rne false x).1
  | f => (encodeElem f .rne false v).1

/-- `quantise_block` (R164): the scale code, the element codes and the extra byte. -/
def quantiseBlock (fmt : Nat) (xs : List Val) : Nat × List Nat × Nat :=
  if xs.any Val.isNan then (0xFF, xs.map fun _ => 0, 0)
  else
    let o : Option Nat := if fmt = 8 then some (match xs with
      | x :: rest => argMaxMag rest 1 0 x
      | [] => 0) else none
    let m := maxMag xs 0 o (.fin false 0 0)
    let e := scaleExpVal fmt m
    let codes := xs.zipIdx.map fun (x, i) => if o = some i then 8 else blockCode fmt (x.scale (-e))
    let extra := match o with
      | some i => (fmtE4m3.narrow .rne false ((xs.getD i (.fin false 0 0)).scale (-e))).1
      | none => 0
    ((e + 127).toNat, codes, extra)

/-- `fold` (R166): v·2^(c-127) in BF16; a NaN scale or element gives 0x7FC0 without a flag. -/
def foldElem (mode : RMode) (ovf : Bool) (v : Val) (c : Nat) : Nat × FFlags :=
  if c = 0xFF || v.isNan then (0x7FC0, 0#5)
  else fmtBf16.narrow mode ovf (v.scale ((c : Int) - 127))

/-- The value of element `i` of a block with a scale and, for SX4, its extra byte (R162, R163): an exact value. -/
def blockVal (fmt code scale extra : Nat) : Val :=
  if scale = 0xFF then .nan false
  else
    let v := if fmt = 8 && code == 8 then fmtE4m3.decode extra else elemVal fmt code true
    v.scale ((scale : Int) - 127)

/-- The code of an FP6 element in the 8-bit format of the same exponent width (R165). -/
def widenFp6 (fmt code : Nat) : Nat :=
  if fmt = 5 then (fmtE4m3.narrow .rne false (fmtE2m3.decode code)).1
  else (fmtE5m2.narrow .rne false (fmtE3m2.decode code)).1

end Sys2Proof.Machine
end

