-- ==== Sys2Proof/Config.lean ====
section
/-!
DEFINITION. What each implementation or the outside world decides and the specification leaves open: constants with no body, so that nothing can be proved
of their values.
-/
namespace Sys2Proof.Config
open Sys2Proof

/-- Does an SLH-DSA-SHA2-128s signature verify (R418)? The algorithm is another document's. Log entry 10. -/
opaque slhVerify : (publicKey message signature : Bytes) → Bool

/-- The 32-byte digest of the public key held in fuses (R418). Log entry 10. -/
opaque keyDigest : Bytes

/-- A firmware image as its header describes it (R418): its bytes, its security version, the header and body that are signed, the public key and the
signature. -/
structure BootImage where
  bytes  : Bytes
  svn    : Nat
  signed : Bytes
  key    : Bytes
  sig    : Bytes
  deriving DecidableEq, Repr

/-- The firmware image that stands at the start of a region, when one with a good header does (R418): the header's layout is not given. Log entry 10. -/
opaque bootImage : (region : Bytes) → Option BootImage

/-- The configuration record (R422). -/
structure CfgRecord where
  version : Nat
  counter : Nat
  devid   : Nat
  ports   : List Nat
  tpod    : Nat
  adth    : Nat
  /-- PTHR[1] to PTHR[7] -/
  pthr    : List Nat
  wdsave  : Nat
  limit   : Nat
  signed  : Bytes
  key     : Bytes
  sig     : Bytes
  deriving DecidableEq, Repr

/-- The configuration record that some bytes hold, when they hold one (R422): its layout is not given. Log entry 10. -/
opaque cfgRecord : Bytes → Option CfgRecord

/-- The digest of the operator key that is provisioned in fuses (R422). Log entry 10. -/
opaque operatorDigest : Bytes

/-- The attestation report signed by the alias key (R421, R423), over the measurement and the nonce, the digest of the configuration record, the device ID,
the security version, the record's counter and the flag of recovery: the device's keys are its own, and the report's layout is not given. Log entry 11. -/
opaque attestReport : (measure nonce cfgDigest : Bytes) → (devid svn counter : Nat) → (recovered : Bool) → Bytes

/-- The alias certificate (R421, R423). Log entry 11. -/
opaque aliasCert : (measure : Bytes) → Bytes

/-- The identity certificate (R421, R423). Log entry 11. -/
opaque identityCert : Bytes

/-- The set of its slice in which a superblock of the L2 stands, modulo 128 (R9, R186, R398). Log entry 12. -/
opaque l2Set : (superblock : Nat) → Nat

/-- The way, among those that are not disabled, in which a superblock is allocated (R398): the n-th free choice. Log entry 12. -/
opaque l2Way : (superblock n : Nat) → Nat

/-- The set of a cluster TLB in which an entry for a page stands, modulo 256 (R56). Log entry 156. -/
opaque tlbSet : (asid va span : Nat) → Nat

/-- Which of the entries or lines of a full cache or TLB makes room for another (R56, R186): the n-th free choice. Log entry 156. -/
opaque victim : (n : Nat) → Nat

/-- Does a slice of the L2 hold a superblock that has no dirty line (R186)? The n-th free choice. Log entry 182. -/
opaque l2Holds : (superblock n : Nat) → Bool

/-- Does a slice of the L2 hold a superblock compressed when it is read (R189)? The n-th free choice. Log entry 182. -/
opaque l2Packed : (superblock n : Nat) → Bool

/-- The CAUSE of the fault record of an access through a disabled aperture window (R42), which the specification does not name. Log entry 13. -/
opaque apertureCause : Nat

/-- The status codes that the boot ROM writes into the recovery window (R419). Log entry 14. -/
opaque recoveryCode : (failure : Nat) → Nat

/-- Where in the recovery window, of 32 MiB, the boot ROM writes its status code (R419). Log entry 120. -/
opaque recoveryPlace : Nat

/-- The bytes of the parts of a save area that are in Hexael's own format (R386, R388). Log entry 15. -/
opaque ownFormat : (len : Nat) → Bytes

/-- The beats of a port's shared pool, which its hello announces (R288, R293). Log entry 17. -/
opaque portPool : (port : Nat) → Nat

/-- Is a multicast chunk the last of its command (R321)? A receiver answers after it, and no field of R285 says which it is. Log entry 18. -/
opaque multicastLast : (group txid : Nat) → Bool

/-- The group of its device that issued an ordered atomic (R300), which no field of R285 names. Log entry 28. -/
opaque issuer : (src txid : Nat) → Nat

/-- The n-th bad chunk of another multicast member (R321), of which the answer carries only the number: its index, its reason, the device that sent it and
its finder word. Log entry 18. -/
opaque multicastBad : (txid member n : Nat) → Nat × Nat × Nat × Nat

/-- XTAG and chunk index in the event-log record of a bad chunk whose packet does not carry them (R312, R313). Log entry 29. -/
opaque strayChunk : (src txid : Nat) → Nat × Nat

/-- Is an aligned 8-byte unit of an image that software changed read new by a team as it is placed (R23)? Log entry 154. -/
opaque imageUnit : (launch team unit : Nat) → Bool

end Sys2Proof.Config
end

