-- ==== Sys2Proof/Machine/Check.lean ====
section
/-!
DEFINITION. The checks of chunks (R229, R307, R308): S and A over the elements of a chunk in its check format.
-/
namespace Sys2Proof.Machine
open Sys2Proof

/-- A slice of a byte sequence, padded with zeros. -/
def sliceBytes (bs : Bytes) (off n : Nat) : Bytes := (bs.drop off).take n ++ List.replicate (n - (bs.length - off)) 0#8

/-- IEEE binary64, in which checks are computed. -/
def fmtF64 : Fmt := ⟨11, 52, 1023, 0x7FEFFFFFFFFFFFFF, some 0x7FF0000000000000, some 0x7FF8000000000000⟩

/-- One level of the pairwise sum. -/
def pairLevel : List Nat → List Nat
  | a :: b :: rest => (fmtF64.fadd .rne a b).1 :: pairLevel rest
  | l => l

/-- The pairwise sum over `2^depth` values. -/
def pairSum : Nat → List Nat → Nat
  | 0, l => l.headD 0
  | d + 1, l => pairSum d (pairLevel l)

/-- The absolute value. -/
def Val.abs : Val → Val
  | .nan s => .nan s
  | .inf _ => .inf false
  | .fin _ m e => .fin false m e

/-- Elements of a byte sequence, `w` bits each. -/
def elements (bs : Bytes) (w n : Nat) : List Nat :=
  let x := leNat bs
  (List.range n).map fun i => bitsOf x (w * i) w

/-- Is a format's check taken over its floating elements, over its integer elements, or over bytes (R307)? -/
inductive CheckKind where
  | float (fmt w : Nat)
  | int (w : Nat)
  | byte
  deriving DecidableEq, Repr

/-- The check format of a format code (R307). -/
def checkKind (fmt : Nat) : CheckKind :=
  if fmt = 5 ∨ fmt = 6 ∨ fmt = 8 ∨ 11 < fmt then .byte
  else if 9 ≤ fmt then .int (fmtWidth fmt)
  else .float fmt (fmtWidth fmt)

/-- The check of a chunk: S and A (R308); a short chunk is padded with zeros to 512 bytes. -/
def chunkCheck (fmt : Nat) (bs : Bytes) : Nat × Nat :=
  let bs := sliceBytes bs 0 512
  let ints := fun (xs : List Int) =>
    let sum : Int := xs.foldl (· + ·) 0
    let mag : Nat := xs.foldl (fun a x => a + x.natAbs) 0
    ((sum % (2 ^ 64 : Nat)).toNat, mag % 2 ^ 64)
  match checkKind fmt with
  | .byte => ints (bs.map fun b => (b.toNat : Int))
  | .int w => ints ((elements bs w (4096 / w)).map fun x => sextNat x w)
  | .float f w =>
    let vs := (elements bs w (4096 / w)).map fun x => elemVal f x false
    let d := (4096 / w).log2
    (pairSum d (vs.map fun v => (fmtF64.arith .rne v).1), pairSum d (vs.map fun v => (fmtF64.arith .rne v.abs).1))

/-- The 16 bytes of a check (R229). -/
def checkBytes (c : Nat × Nat) : Bytes := natLe 8 c.1 ++ natLe 8 c.2

end Sys2Proof.Machine
end

