-- ==== Sys2Proof/Syntax.lean ====
section
/-!
DEFINITION. The instructions and steps of the Hexael machine: one constructor per row of the table of operations and events. The first
160 are the instruction words of R96, their arguments the fields of the word from the most significant down (st is the settle bit S of R79).
The other 113 are the steps of the device around the cores; their arguments say which unit steps (g a group, op an operation in flight,
l a launch, i a chunk) or what the outside world does (a host write). A step that handles a received packet, or a request of the mailbox, has no argument:
the packet stands in the state's `arrived`, the request in the request ring. These come last in the type.
-/
namespace Sys2Proof

/-- One row of the table of operations and events each (R96; "What each step holds"). -/
inductive Instr where
  /-- `HIMM` (R91). -/
  | himm (i : BitVec 23)
  /-- `HDEP` (R92). -/
  | hdep (k : BitVec 16) (p : BitVec 2) (b : BitVec 1)
  /-- `HMOD` (R93). -/
  | hmod (r : BitVec 3) (o : BitVec 1) (c : BitVec 3) (e : BitVec 3) (m : BitVec 2) (g : BitVec 1) (n : BitVec 1) (p : BitVec 3)
  /-- `HSCH` (R94). -/
  | hsch (p : BitVec 3) (y : BitVec 1)
  /-- `NOP` (R149). -/
  | nop (st : Bool)
  /-- `TRAP` (R372). -/
  | trap (st : Bool) (c : BitVec 16)
  /-- `SYSRD` (R373). -/
  | sysrd (st : Bool) (d : BitVec 8) (n : BitVec 15)
  /-- `SYSWR` (R373). -/
  | syswr (st : Bool) (d : BitVec 8) (n : BitVec 15)
  /-- `PERF` (R417). -/
  | perf (st : Bool) (d : BitVec 8) (a : BitVec 8) (o : BitVec 3) (n : BitVec 4)
  /-- `DRAIN` (R365). -/
  | drain (st : Bool) (k : BitVec 4) (m : BitVec 3)
  /-- `BRA` (R140). -/
  | bra (st : Bool) (o : BitVec 23)
  /-- `BRA_Q0` (R140). -/
  | braQ0 (st : Bool) (o : BitVec 23)
  /-- `BRA_NOT_Q0` (R140). -/
  | braNotQ0 (st : Bool) (o : BitVec 23)
  /-- `BRA_Q1` (R140). -/
  | braQ1 (st : Bool) (o : BitVec 23)
  /-- `BRA_NOT_Q1` (R140). -/
  | braNotQ1 (st : Bool) (o : BitVec 23)
  /-- `BRA_Q2` (R140). -/
  | braQ2 (st : Bool) (o : BitVec 23)
  /-- `BRA_NOT_Q2` (R140). -/
  | braNotQ2 (st : Bool) (o : BitVec 23)
  /-- `BRA_Q3` (R140). -/
  | braQ3 (st : Bool) (o : BitVec 23)
  /-- `BRA_NOT_Q3` (R140). -/
  | braNotQ3 (st : Bool) (o : BitVec 23)
  /-- `BRA_P0` (R140). -/
  | braP0 (st : Bool) (o : BitVec 23)
  /-- `BRA_NOT_P0` (R140). -/
  | braNotP0 (st : Bool) (o : BitVec 23)
  /-- `BRA_P1` (R140). -/
  | braP1 (st : Bool) (o : BitVec 23)
  /-- `CALL` (R143). -/
  | call (st : Bool) (o : BitVec 23)
  /-- `RET` (R143). -/
  | ret (st : Bool)
  /-- `LOOP` (R144). -/
  | loop (st : Bool) (a : BitVec 7) (i : BitVec 9)
  /-- `BRK` (R145). -/
  | brk (st : Bool) (g : BitVec 2)
  /-- `BRX` (R141). -/
  | brx (st : Bool) (a : BitVec 7) (g : BitVec 2)
  /-- `RCV` (R125). -/
  | rcv (st : Bool)
  /-- `YIELD` (R148). -/
  | yield (st : Bool)
  /-- `EXIT` (R147). -/
  | exit (st : Bool) (g : BitVec 2)
  /-- `PLOP` (R133). -/
  | plop (st : Bool) (f : BitVec 4) (p : BitVec 3) (q : BitVec 1) (a : BitVec 3) (b : BitVec 3) (g : BitVec 2)
  /-- `VOTE` (R134). -/
  | vote (st : Bool) (d : BitVec 7) (m : BitVec 2) (p : BitVec 3) (g : BitVec 2)
  /-- `VTOS` (R135). -/
  | vtos (st : Bool) (l : BitVec 5) (a : BitVec 7) (d : BitVec 8)
  /-- `IADD` (R127). -/
  | iadd (st : Bool) (d : BitVec 7) (a : BitVec 7) (b : BitVec 7) (g : BitVec 2)
  /-- `ISUB` (R127). -/
  | isub (st : Bool) (d : BitVec 7) (a : BitVec 7) (b : BitVec 7) (g : BitVec 2)
  /-- `IMUL` (R127). -/
  | imul (st : Bool) (d : BitVec 7) (a : BitVec 7) (b : BitVec 7) (g : BitVec 2)
  /-- `IMULH` (R127). -/
  | imulh (st : Bool) (d : BitVec 7) (a : BitVec 7) (b : BitVec 7) (g : BitVec 2)
  /-- `IMAD` (R127). -/
  | imad (st : Bool) (d : BitVec 7) (a : BitVec 7) (b : BitVec 7) (g : BitVec 2)
  /-- `IMIN` (R127). -/
  | imin (st : Bool) (d : BitVec 7) (a : BitVec 7) (b : BitVec 7) (g : BitVec 2)
  /-- `IMAX` (R127). -/
  | imax (st : Bool) (d : BitVec 7) (a : BitVec 7) (b : BitVec 7) (g : BitVec 2)
  /-- `IABS` (R127). -/
  | iabs (st : Bool) (d : BitVec 7) (a : BitVec 7) (g : BitVec 2)
  /-- `INEG` (R127). -/
  | ineg (st : Bool) (d : BitVec 7) (a : BitVec 7) (g : BitVec 2)
  /-- `AND` (R127). -/
  | and (st : Bool) (d : BitVec 7) (a : BitVec 7) (b : BitVec 7) (g : BitVec 2)
  /-- `OR` (R127). -/
  | or (st : Bool) (d : BitVec 7) (a : BitVec 7) (b : BitVec 7) (g : BitVec 2)
  /-- `XOR` (R127). -/
  | xor (st : Bool) (d : BitVec 7) (a : BitVec 7) (b : BitVec 7) (g : BitVec 2)
  /-- `NOT` (R127). -/
  | not (st : Bool) (d : BitVec 7) (a : BitVec 7) (g : BitVec 2)
  /-- `SHL` (R127). -/
  | shl (st : Bool) (d : BitVec 7) (a : BitVec 7) (b : BitVec 7) (g : BitVec 2)
  /-- `SHR` (R127). -/
  | shr (st : Bool) (d : BitVec 7) (a : BitVec 7) (b : BitVec 7) (g : BitVec 2)
  /-- `SAR` (R127). -/
  | sar (st : Bool) (d : BitVec 7) (a : BitVec 7) (b : BitVec 7) (g : BitVec 2)
  /-- `POPC` (R127). -/
  | popc (st : Bool) (d : BitVec 7) (a : BitVec 7) (g : BitVec 2)
  /-- `CLZ` (R127). -/
  | clz (st : Bool) (d : BitVec 7) (a : BitVec 7) (g : BitVec 2)
  /-- `BREV` (R127). -/
  | brev (st : Bool) (d : BitVec 7) (a : BitVec 7) (g : BitVec 2)
  /-- `BFE` (R128). -/
  | bfe (st : Bool) (d : BitVec 7) (a : BitVec 7) (b : BitVec 7) (g : BitVec 2)
  /-- `BFI` (R128). -/
  | bfi (st : Bool) (d : BitVec 7) (a : BitVec 7) (b : BitVec 7) (g : BitVec 2)
  /-- `SEL` (R130). -/
  | sel (st : Bool) (d : BitVec 7) (a : BitVec 7) (b : BitVec 7) (p : BitVec 2)
  /-- `MOV` (R127). -/
  | mov (st : Bool) (d : BitVec 7) (a : BitVec 7) (g : BitVec 2)
  /-- `ICMP` (R132). -/
  | icmp (st : Bool) (c : BitVec 4) (p : BitVec 3) (a : BitVec 7) (b : BitVec 7) (g : BitVec 2)
  /-- `LEA` (R129). -/
  | lea (st : Bool) (d : BitVec 7) (a : BitVec 7) (b : BitVec 7) (g : BitVec 2)
  /-- `IADD_IMM` (R131). -/
  | iaddImm (st : Bool) (d : BitVec 7) (a : BitVec 7) (i : BitVec 9)
  /-- `SHL_IMM` (R131). -/
  | shlImm (st : Bool) (d : BitVec 7) (a : BitVec 7) (n : BitVec 5)
  /-- `ICMP_IMM` (R132). -/
  | icmpImm (st : Bool) (c : BitVec 4) (p : BitVec 3) (a : BitVec 7) (i : BitVec 9)
  /-- `MOVI` (R131). -/
  | movi (st : Bool) (d : BitVec 7) (i : BitVec 16)
  /-- `IADD_SCALAR` (R131). -/
  | iaddScalar (st : Bool) (d : BitVec 7) (a : BitVec 7) (b : BitVec 8) (g : BitVec 1)
  /-- `MOV_SCALAR` (R131). -/
  | movScalar (st : Bool) (d : BitVec 7) (b : BitVec 8) (g : BitVec 1)
  /-- `SADD` (R137). -/
  | sadd (st : Bool) (d : BitVec 8) (a : BitVec 8) (b : BitVec 7)
  /-- `SADD_IMM` (R137). -/
  | saddImm (st : Bool) (d : BitVec 8) (a : BitVec 8) (i : BitVec 7)
  /-- `SSUB` (R137). -/
  | ssub (st : Bool) (d : BitVec 8) (a : BitVec 8) (b : BitVec 7)
  /-- `SMUL` (R137). -/
  | smul (st : Bool) (d : BitVec 8) (a : BitVec 8) (b : BitVec 7)
  /-- `SLOG_AND` (R137). -/
  | slogAnd (st : Bool) (d : BitVec 8) (a : BitVec 8) (b : BitVec 7)
  /-- `SLOG_OR` (R137). -/
  | slogOr (st : Bool) (d : BitVec 8) (a : BitVec 8) (b : BitVec 7)
  /-- `SLOG_XOR` (R137). -/
  | slogXor (st : Bool) (d : BitVec 8) (a : BitVec 8) (b : BitVec 7)
  /-- `SLOG_ANDN` (R137). -/
  | slogAndn (st : Bool) (d : BitVec 8) (a : BitVec 8) (b : BitVec 7)
  /-- `SSHF_SHL` (R137). -/
  | sshfShl (st : Bool) (d : BitVec 8) (a : BitVec 8) (b : BitVec 7)
  /-- `SSHF_SHR` (R137). -/
  | sshfShr (st : Bool) (d : BitVec 8) (a : BitVec 8) (b : BitVec 7)
  /-- `SSHF_SAR` (R137). -/
  | sshfSar (st : Bool) (d : BitVec 8) (a : BitVec 8) (b : BitVec 7)
  /-- `SSHF_IMM` (R137). -/
  | sshfImm (st : Bool) (d : BitVec 8) (a : BitVec 8) (f : BitVec 2) (n : BitVec 5)
  /-- `SMOV` (R137). -/
  | smov (st : Bool) (d : BitVec 8) (a : BitVec 8)
  /-- `SMOVI` (R137). -/
  | smovi (st : Bool) (d : BitVec 8) (i : BitVec 15)
  /-- `SCMP` (R138). -/
  | scmp (st : Bool) (c : BitVec 4) (q : BitVec 2) (a : BitVec 8) (b : BitVec 7)
  /-- `SCMP_IMM` (R138). -/
  | scmpImm (st : Bool) (c : BitVec 4) (q : BitVec 2) (a : BitVec 8) (i : BitVec 7)
  /-- `FADD` (R169). -/
  | fadd (st : Bool) (d : BitVec 7) (a : BitVec 7) (b : BitVec 7) (g : BitVec 2)
  /-- `FSUB` (R169). -/
  | fsub (st : Bool) (d : BitVec 7) (a : BitVec 7) (b : BitVec 7) (g : BitVec 2)
  /-- `FMUL` (R169). -/
  | fmul (st : Bool) (d : BitVec 7) (a : BitVec 7) (b : BitVec 7) (g : BitVec 2)
  /-- `FFMA` (R169). -/
  | ffma (st : Bool) (d : BitVec 7) (a : BitVec 7) (b : BitVec 7) (g : BitVec 2)
  /-- `FMIN` (R169). -/
  | fmin (st : Bool) (d : BitVec 7) (a : BitVec 7) (b : BitVec 7) (g : BitVec 2)
  /-- `FMAX` (R169). -/
  | fmax (st : Bool) (d : BitVec 7) (a : BitVec 7) (b : BitVec 7) (g : BitVec 2)
  /-- `FCMP` (R170). -/
  | fcmp (st : Bool) (c : BitVec 4) (p : BitVec 3) (a : BitVec 7) (b : BitVec 7) (g : BitVec 2)
  /-- `FRCP` (R171). -/
  | frcp (st : Bool) (d : BitVec 7) (a : BitVec 7) (g : BitVec 2)
  /-- `FRSQ` (R171). -/
  | frsq (st : Bool) (d : BitVec 7) (a : BitVec 7) (g : BitVec 2)
  /-- `FEX2` (R171). -/
  | fex2 (st : Bool) (d : BitVec 7) (a : BitVec 7) (g : BitVec 2)
  /-- `FLG2` (R171). -/
  | flg2 (st : Bool) (d : BitVec 7) (a : BitVec 7) (g : BitVec 2)
  /-- `FCLS` (R172). -/
  | fcls (st : Bool) (d : BitVec 7) (a : BitVec 7) (g : BitVec 2)
  /-- `FRND` (R173). -/
  | frnd (st : Bool) (d : BitVec 7) (a : BitVec 7) (g : BitVec 2)
  /-- `HADD2` (R175). -/
  | hadd2 (st : Bool) (d : BitVec 7) (a : BitVec 7) (b : BitVec 7) (g : BitVec 2)
  /-- `HMUL2` (R175). -/
  | hmul2 (st : Bool) (d : BitVec 7) (a : BitVec 7) (b : BitVec 7) (g : BitVec 2)
  /-- `HFMA2` (R175). -/
  | hfma2 (st : Bool) (d : BitVec 7) (a : BitVec 7) (b : BitVec 7) (g : BitVec 2)
  /-- `CVT` (R177). -/
  | cvt (st : Bool) (d : BitVec 7) (a : BitVec 7) (e : BitVec 4) (f : BitVec 4)
  /-- `PACK` (R178). -/
  | pack (st : Bool) (d : BitVec 7) (a : BitVec 7) (f : BitVec 4) (n : BitVec 5)
  /-- `UNPK` (R178). -/
  | unpk (st : Bool) (d : BitVec 7) (a : BitVec 7) (f : BitVec 4) (n : BitVec 5)
  /-- `QNT` (R179). -/
  | qnt (st : Bool) (d : BitVec 7) (a : BitVec 7) (f : BitVec 4) (b : BitVec 2)
  /-- `SCLX` (R174). -/
  | sclx (st : Bool) (d : BitVec 7) (a : BitVec 7) (b : BitVec 7) (g : BitVec 2)
  /-- `DQNT_E4M3` (R180). -/
  | dqntE4m3 (st : Bool) (d : BitVec 7) (a : BitVec 7) (b : BitVec 7) (c : BitVec 2)
  /-- `DQNT_E5M2` (R180). -/
  | dqntE5m2 (st : Bool) (d : BitVec 7) (a : BitVec 7) (b : BitVec 7) (c : BitVec 2)
  /-- `DQNT_E2M3` (R180). -/
  | dqntE2m3 (st : Bool) (d : BitVec 7) (a : BitVec 7) (b : BitVec 7) (c : BitVec 2)
  /-- `DQNT_E3M2` (R180). -/
  | dqntE3m2 (st : Bool) (d : BitVec 7) (a : BitVec 7) (b : BitVec 7) (c : BitVec 2)
  /-- `DQNT_E2M1` (R180). -/
  | dqntE2m1 (st : Bool) (d : BitVec 7) (a : BitVec 7) (b : BitVec 7) (c : BitVec 2)
  /-- `DQNT_SX4` (R180). -/
  | dqntSx4 (st : Bool) (d : BitVec 7) (a : BitVec 7) (b : BitVec 7) (c : BitVec 2)
  /-- `DQNT_I8` (R180). -/
  | dqntI8 (st : Bool) (d : BitVec 7) (a : BitVec 7) (b : BitVec 7) (c : BitVec 2)
  /-- `XPAT` (R183). -/
  | xpat (st : Bool) (d : BitVec 7) (a : BitVec 7) (n : BitVec 4)
  /-- `XPERM` (R183). -/
  | xperm (st : Bool) (d : BitVec 7) (a : BitVec 7) (b : BitVec 7) (g : BitVec 2)
  /-- `SHFL` (R184). -/
  | shfl (st : Bool) (d : BitVec 7) (a : BitVec 7) (m : BitVec 2) (n : BitVec 5)
  /-- `SCAN` (R185). -/
  | scan (st : Bool) (d : BitVec 7) (a : BitVec 7) (o : BitVec 4) (f : BitVec 4) (x : BitVec 1)
  /-- `RDX` (R185). -/
  | rdx (st : Bool) (d : BitVec 7) (a : BitVec 7) (o : BitVec 4) (f : BitVec 4)
  /-- `LD` (R203). -/
  | ld (st : Bool) (d : BitVec 7) (a : BitVec 7) (k : BitVec 4) (z : BitVec 3) (g : BitVec 2)
  /-- `ST` (R203). -/
  | st (st : Bool) (d : BitVec 7) (a : BitVec 7) (k : BitVec 4) (z : BitVec 3) (g : BitVec 2)
  /-- `LDS` (R204). -/
  | lds (st : Bool) (d : BitVec 7) (a : BitVec 7) (z : BitVec 3) (g : BitVec 2)
  /-- `STS` (R204). -/
  | sts (st : Bool) (d : BitVec 7) (a : BitVec 7) (z : BitVec 3) (g : BitVec 2)
  /-- `ATOM` (R206). -/
  | atom (st : Bool) (d : BitVec 7) (a : BitVec 7) (k : BitVec 4) (r : BitVec 1) (w : BitVec 1) (o : BitVec 3)
  /-- `ACAS` (R207). -/
  | acas (st : Bool) (d : BitVec 7) (a : BitVec 7) (k : BitVec 4) (r : BitVec 1) (w : BitVec 1)
  /-- `PRF` (R209). -/
  | prf (st : Bool) (l : BitVec 2) (a : BitVec 7) (z : BitVec 3) (g : BitVec 2)
  /-- `FENCE` (R361). -/
  | fence (st : Bool) (p : BitVec 3) (k : BitVec 2) (g : BitVec 2)
  /-- `CFLUSH` (R210). -/
  | cflush (st : Bool) (o : BitVec 2) (a : BitVec 7) (k : BitVec 4) (z : BitVec 3) (g : BitVec 2)
  /-- `PTST` (R205). -/
  | ptst (st : Bool) (d : BitVec 7) (a : BitVec 7) (g : BitVec 2)
  /-- `LDT` (R213). -/
  | ldt (st : Bool) (d : BitVec 7) (a : BitVec 7) (k : BitVec 4) (g : BitVec 2)
  /-- `STT` (R212). -/
  | stt (st : Bool) (d : BitVec 7) (a : BitVec 7) (k : BitVec 4) (g : BitVec 2)
  /-- `WAIT` (R344). -/
  | wait (st : Bool) (q : BitVec 2) (e : BitVec 1) (k : BitVec 16) (y : BitVec 1) (t : BitVec 1) (b : BitVec 1)
  /-- `WAITC` (R345). -/
  | waitc (st : Bool) (k : BitVec 4) (a : BitVec 8) (q : BitVec 2) (e : BitVec 1) (t : BitVec 1) (b : BitVec 1)
  /-- `TST` (R346). -/
  | tst (st : Bool) (k : BitVec 4) (d : BitVec 8) (b : BitVec 8) (w : BitVec 1)
  /-- `TCLR` (R346). -/
  | tclr (st : Bool) (k : BitVec 16)
  /-- `TEXP` (R347). -/
  | texp (st : Bool) (k : BitVec 4) (a : BitVec 8) (b : BitVec 8) (y : BitVec 1) (r : BitVec 1)
  /-- `BINIT` (R353). -/
  | binit (st : Bool) (k : BitVec 4) (a : BitVec 8) (b : BitVec 8)
  /-- `ARV` (R354). -/
  | arv (st : Bool) (k : BitVec 4) (a : BitVec 8) (b : BitVec 8) (e : BitVec 1) (p : BitVec 1)
  /-- `BWAIT` (R355). -/
  | bwait (st : Bool) (q : BitVec 2) (e : BitVec 1) (a : BitVec 8) (b : BitVec 8) (t : BitVec 1) (p : BitVec 1)
  /-- `BPOLL` (R355). -/
  | bpoll (st : Bool) (q : BitVec 2) (a : BitVec 8) (b : BitVec 8)
  /-- `CPY` (R239). -/
  | cpy (st : Bool) (k : BitVec 4) (a : BitVec 8) (b : BitVec 8) (o : BitVec 1) (d : BitVec 1)
  /-- `LAUNCH` (R240). -/
  | launch (st : Bool) (k : BitVec 4) (a : BitVec 8)
  /-- `SACQ` (R241). -/
  | sacq (st : Bool) (d : BitVec 8) (n : BitVec 3)
  /-- `SPOP` (R242). -/
  | spop (st : Bool) (d : BitVec 8) (c : BitVec 8) (n : BitVec 3)
  /-- `SREL` (R243). -/
  | srel (st : Bool) (a : BitVec 8) (f : BitVec 1) (n : BitVec 3)
  /-- `KVLD` (R277). -/
  | kvld (st : Bool) (k : BitVec 4) (a : BitVec 8) (b : BitVec 8) (o : BitVec 1) (w : BitVec 1)
  /-- `KVSEAL` (R269). -/
  | kvseal (st : Bool) (k : BitVec 4) (a : BitVec 8) (b : BitVec 8)
  /-- `KVHDR` (R280). -/
  | kvhdr (st : Bool) (k : BitVec 4) (a : BitVec 8) (b : BitVec 8)
  /-- `COLL` (R318). -/
  | coll (st : Bool) (k : BitVec 4) (a : BitVec 8) (b : BitVec 8)
  /-- `MCST` (R321). -/
  | mcst (st : Bool) (k : BitVec 4) (a : BitVec 8) (b : BitVec 8)
  /-- `RTE` (R331). -/
  | rte (st : Bool) (k : BitVec 4) (a : BitVec 8) (b : BitVec 8)
  /-- `RTC` (R336). -/
  | rtc (st : Bool) (k : BitVec 4) (a : BitVec 8) (b : BitVec 8)
  /-- `MMA_BF16` (R250). -/
  | mmaBf16 (st : Bool) (k : BitVec 4) (c : BitVec 5) (a : BitVec 7) (b : BitVec 7)
  /-- `MMA_F16` (R250). -/
  | mmaF16 (st : Bool) (k : BitVec 4) (c : BitVec 5) (a : BitVec 7) (b : BitVec 7)
  /-- `MMA_E4M3` (R250). -/
  | mmaE4m3 (st : Bool) (k : BitVec 4) (c : BitVec 5) (a : BitVec 7) (b : BitVec 7)
  /-- `MMA_E5M2` (R250). -/
  | mmaE5m2 (st : Bool) (k : BitVec 4) (c : BitVec 5) (a : BitVec 7) (b : BitVec 7)
  /-- `MMA_E2M3` (R250). -/
  | mmaE2m3 (st : Bool) (k : BitVec 4) (c : BitVec 5) (a : BitVec 7) (b : BitVec 7)
  /-- `MMA_E3M2` (R250). -/
  | mmaE3m2 (st : Bool) (k : BitVec 4) (c : BitVec 5) (a : BitVec 7) (b : BitVec 7)
  /-- `MMA_I8` (R250). -/
  | mmaI8 (st : Bool) (k : BitVec 4) (c : BitVec 5) (a : BitVec 7) (b : BitVec 7)
  /-- `MMA_E2M1` (R250). -/
  | mmaE2m1 (st : Bool) (k : BitVec 4) (c : BitVec 5) (a : BitVec 7) (b : BitVec 7)
  /-- `MMA_SX4` (R250). -/
  | mmaSx4 (st : Bool) (k : BitVec 4) (c : BitVec 5) (a : BitVec 7) (b : BitVec 7)
  /-- `ACREL` (R257). -/
  | acrel (st : Bool) (c : BitVec 5)
  /-- `ACACQ` (R256). -/
  | acacq (st : Bool) (k : BitVec 4) (c : BitVec 5)
  /-- `ACZ` (R258). -/
  | acz (st : Bool) (c : BitVec 5)
  /-- `ACRD` (R259). -/
  | acrd (st : Bool) (c : BitVec 5) (d : BitVec 7) (b : BitVec 7)
  /-- `ACWR` (R259). -/
  | acwr (st : Bool) (c : BitVec 5) (a : BitVec 7) (b : BitVec 7)
  /-- Step `LONG_RESULT_LAND` (R121). -/
  | longResultLand (g : Nat) (lane : Nat)
  /-- Step `THREAD_STARVED` (R115). -/
  | threadStarved (g : Nat) (lane : Nat)
  /-- Step `GROUP_STARVATION_GUARD` (R12). -/
  | groupStarvationGuard (g : Nat)
  /-- Step `TRAP_ENTRY` (R368). -/
  | trapEntry (g : Nat) (lane : Nat)
  /-- Step `STORE_QUEUE_DRAIN` (R195). -/
  | storeQueueDrain (g : Nat)
  /-- Step `MEMORY_REPLY` (R193). -/
  | memoryReply (op : Nat) (lane : Nat)
  /-- Step `TLB_WALK_RETURN` (R56). -/
  | tlbWalkReturn (clu : Nat) (asid : Nat) (va : Nat)
  /-- Step `LIGHT_FAULT_SERVICE` (R59). -/
  | lightFaultService (asid : Nat) (va : Nat)
  /-- Step `MIGRATION` (R61). -/
  | migration (asid : Nat) (va : Nat) (frame : Nat)
  /-- Step `MIGRATION_SWAP_OUT` (R62). -/
  | migrationSwapOut (team : Nat)
  /-- Step `ENGINE_COMMAND_START` (R219). -/
  | engineCommandStart (op : Nat)
  /-- Step `CHUNK_LAND` (R227). -/
  | chunkLand (op : Nat) (i : Nat)
  /-- Step `COPY_FINISH` (R230). -/
  | copyFinish (op : Nat)
  /-- Step `LDT_RETRY` (R213). -/
  | ldtRetry (op : Nat) (lane : Nat)
  /-- Step `STT_PROGRESS` (R212). -/
  | sttProgress (op : Nat) (lane : Nat)
  /-- Step `MMA_START` (R252). -/
  | mmaStart (op : Nat)
  /-- Step `MMA_FINISH` (R253). -/
  | mmaFinish (op : Nat)
  /-- Step `ACACQ_FINISH` (R256). -/
  | acacqFinish (op : Nat)
  /-- Step `KV_CONVERSION` (R273). -/
  | kvConversion (frame : Nat) (half : Nat)
  /-- Step `KV_PAIRING` (R275). -/
  | kvPairing (asid : Nat) (vp : Nat) (vq : Nat)
  /-- Step `KVLD_RETRY` (R278). -/
  | kvldRetry (op : Nat)
  /-- Step `KVHDR_REFILL` (R280). -/
  | kvhdrRefill (op : Nat)
  /-- Step `BARRIER_UPDATE` (R350). -/
  | barrierUpdate (n : Nat)
  /-- Step `QUIESCENCE_TIMER` (R364). -/
  | quiescenceTimer (op : Nat)
  /-- Step `LAUNCH_VALIDATION` (R28). -/
  | launchValidation (l : Nat)
  /-- Step `LAUNCH_PRECONDITIONS_HELD` (R26). -/
  | launchPreconditionsHeld (l : Nat)
  /-- Step `LEASE_PIN` (R54). -/
  | leasePin (l : Nat)
  /-- Step `PLACEMENT_DECISION` (R70). -/
  | placementDecision (die : Nat)
  /-- Step `RESERVATION` (R66). -/
  | reservation (die : Nat)
  /-- Step `RESERVATION_ANSWER` (R66). -/
  | reservationAnswer (die : Nat)
  /-- Step `PREEMPTION` (R71). -/
  | preemption (l : Nat)
  /-- Step `UNPLACEABLE_LOG` (R73). -/
  | unplaceableLog (l : Nat)
  /-- Step `FORCED_FULL_SAVE` (R384). -/
  | forcedFullSave (team : Nat)
  /-- Step `TEAM_SAVE` (R385). -/
  | teamSave (team : Nat)
  /-- Step `SAVE_WATCHDOG` (R394). -/
  | saveWatchdog (team : Nat)
  /-- Step `SAVED_COMPLETION` (R390). -/
  | savedCompletion (op : Nat) (lane : Nat)
  /-- Step `TEAM_RETIRE` (R401). -/
  | teamRetire (team : Nat)
  /-- Step `LAUNCH_RETIRE` (R402). -/
  | launchRetire (l : Nat)
  /-- Step `TEARDOWN_RELEASE` (R405). -/
  | teardownRelease (asid : Nat)
  /-- Step `PIN_TIMEOUT` (R54). -/
  | pinTimeout (gid : Nat)
  /-- Step `RETRANSMIT_TIMEOUT` (R302). -/
  | retransmitTimeout (txid : Nat)
  /-- Step `REDUCTION_STEP` (R310). -/
  | reductionStep (op : Nat) (slot : Nat)
  /-- Step `COMBINE_STEP` (R335). -/
  | combineStep (op : Nat) (i : Nat)
  /-- Step `GATHER_SERVE` (R335). -/
  | gatherServe (op : Nat) (n : Nat)
  /-- Step `DISPATCH_PLACEMENT` (R326). -/
  | dispatchPlacement (op : Nat)
  /-- Step `COLLECTIVE_FINISH` (R318). -/
  | collectiveFinish (op : Nat)
  /-- Step `DISPATCH_FINISH` (R332). -/
  | dispatchFinish (op : Nat)
  /-- Step `DOORBELL` (R36). -/
  | doorbell (page : Nat) (off : Nat) (data : Bytes)
  /-- Step `DOORBELL_APPLY` (R38). -/
  | doorbellApply (n : Nat)
  /-- Step `BAR2_WRITE` (R41). -/
  | bar2Write (off : Nat) (data : Bytes)
  /-- Step `BAR2_READ` (R41). -/
  | bar2Read (off : Nat) (len : Nat)
  /-- Step `MSIX_UNMASK` (R39). -/
  | msixUnmask (vec : Nat)
  /-- Step `HOST_READ_COMPLETION` (R43). -/
  | hostReadCompletion (rid : Nat) (status : Nat) (data : Bytes)
  /-- Step `HOST_READ_TIMEOUT` (R43). -/
  | hostReadTimeout (rid : Nat)
  /-- Step `REGISTER_WRITE` (R408). -/
  | registerWrite (off : Nat) (data : Bytes)
  /-- Step `CREATE` (R411). -/
  | create (asid : Nat) (fring : Nat)
  /-- Step `KARIC_HELLO` (R283). -/
  | karicHello (port : Nat) (width : Nat) (pkt : Packet)
  /-- Step `PORT_DEGRADED` (R294). -/
  | portDegraded (port : Nat)
  /-- Step `LINK_FAIL` (R295). -/
  | linkFail (port : Nat)
  /-- Step `PORT_RESTORED` (R294). -/
  | portRestored (port : Nat)
  /-- Step `L2_UNCORRECTABLE_ERROR` (R396). -/
  | l2UncorrectableError (line : Nat)
  /-- Step `CLEAN_LINE_ERROR` (R395). -/
  | cleanLineError (line : Nat)
  /-- Step `HBM_UNCORRECTABLE_ERROR` (R397). -/
  | hbmUncorrectableError (line : Nat)
  /-- Step `CLOCK_STEP_DOWN` (R424). -/
  | clockStepDown (die : Nat)
  /-- Step `CLOCK_STEP_UP` (R424). -/
  | clockStepUp (die : Nat)
  /-- Step `THERMAL_LIMIT` (R424). -/
  | thermalLimit (die : Nat)
  /-- Step `ILLEGAL_INSTRUCTION` (R99). -/
  | illegalInstruction (detail : Nat)
  /-- Step `RUN_AHEAD_FETCH` (R100). -/
  | runAheadFetch (g : Nat) (n : Nat)
  /-- Step `CORRECTED_SOFT_ERROR` (R395). -/
  | correctedSoftError (unit : Nat)
  /-- Step `THERMAL_LIMIT_CLEAR` (R424). -/
  | thermalLimitClear (die : Nat)
  /-- Step `WATCH_REREAD` (R352). -/
  | watchReread (g : Nat)
  /-- Step `FABRIC_START_DELAY` (R305). -/
  | fabricStartDelay
  /-- Step `TEARDOWN` (R405). -/
  | teardown
  /-- Step `DESCHEDULE` (R392). -/
  | deschedule
  /-- Step `RESCHEDULE` (R392). -/
  | reschedule
  /-- Step `PTE` (R410). -/
  | pte
  /-- Step `RESIDENCY` (R54). -/
  | residency
  /-- Step `THRESHOLDS` (R410). -/
  | thresholds
  /-- Step `FFRING` (R412). -/
  | ffring
  /-- Step `REFILL` (R412). -/
  | refill
  /-- Step `SAVEPOOL` (R412). -/
  | savepool
  /-- Step `RETIRED` (R412). -/
  | retired
  /-- Step `CLEARLOST` (R397). -/
  | clearlost
  /-- Step `APERTURE` (R42). -/
  | aperture
  /-- Step `FABRIC` (R410). -/
  | fabric
  /-- Step `COUNTERS` (R415). -/
  | counters
  /-- Step `POWER` (R424). -/
  | power
  /-- Step `ATTEST` (R423). -/
  | attest
  /-- Step `FWUPDATE` (R420). -/
  | fwupdate
  /-- Step `RECOVERY_GO` (R419). -/
  | recoveryGo
  /-- Step `DEVICE_RESET` (R418). -/
  | deviceReset
  /-- Step `KARIC_FORWARD` (R292). -/
  | karicForward
  /-- Step `KARIC_RDREQ` (R299). -/
  | karicRdreq
  /-- Step `KARIC_WR` (R299). -/
  | karicWr
  /-- Step `KARIC_ATOM` (R300). -/
  | karicAtom
  /-- Step `KARIC_RDRSP` (R299). -/
  | karicRdrsp
  /-- Step `KARIC_WRACK` (R299). -/
  | karicWrack
  /-- Step `KARIC_ATRSP` (R299). -/
  | karicAtrsp
  /-- Step `KARIC_CHACK` (R287). -/
  | karicChack
  /-- Step `KARIC_NACK` (R303). -/
  | karicNack
  /-- Step `KARIC_CHUNK` (R309). -/
  | karicChunk
  /-- Step `KARIC_DISP` (R327). -/
  | karicDisp
  /-- Step `KARIC_FLAG` (R304). -/
  | karicFlag
  /-- Step `MGMT_PIN` (R297). -/
  | mgmtPin
  /-- Step `MGMT_PINANS` (R288). -/
  | mgmtPinans
  /-- Step `MGMT_UNPIN` (R288). -/
  | mgmtUnpin
  /-- Step `MGMT_CDESC` (R318). -/
  | mgmtCdesc
  /-- Step `MGMT_DDESC` (R331). -/
  | mgmtDdesc
  /-- Step `MGMT_CANCEL` (R318). -/
  | mgmtCancel
  /-- Step `MGMT_GATHER` (R335). -/
  | mgmtGather
  /-- Step `MGMT_WATCH` (R352). -/
  | mgmtWatch
  /-- Step `MGMT_ADVANCED` (R352). -/
  | mgmtAdvanced
  /-- Step `THERMAL_SHUTDOWN` (R424). -/
  | thermalShutdown
  deriving DecidableEq, Repr

end Sys2Proof
end

