-- ==== Sys2Proof/Machine/State.lean ====
section
/-!
DEFINITION. The state of one Hexael device, as plain data: threads, groups, teams, launches and contexts; the token files and the operations
in flight; memory, caches and translation; the tiles, queues and engines; Umber's fabric, host port and Ochre; and the agenda, which says what
the world outside the model's determinism (other devices, the host, the order of independent steps, the passage of time) does next.
-/
namespace Sys2Proof.Machine
open Sys2Proof

/-- Why the machine stops with a fault. The model has one: nothing of the spec stops the device. -/
inductive Fault where
  /-- Raised by the meaning of an instruction word when no group of the state is selected to issue it: `step` selects a group before it
  calls `exec`, so no step raises it. Safe: the spec gives no effect to a word that nothing issues. -/
  | noIssueSet
  deriving DecidableEq, Repr

/-- Why the machine refuses. -/
inductive Refusal where
  /-- The constructor that `exec` answers for a row that has no meaning yet. Safe: nothing is proved about such a row. -/
  | notModelled (mnemonic : String)
  deriving DecidableEq, Repr

/-- Memory by bytes, in canonical form: addresses strictly rising, no byte that equals what an unlisted address reads as (zero). -/
abbrev Memory := List Host.Cell

/-! ## Tokens and hints -/

/-- Token states (R215), in the order of their codes. -/
inductive TokState where
  | idle | pend | done | doneBad | poison
  deriving DecidableEq, Repr

/-- A token register (R215). `op` is the operation last bound to it, 0 for none. -/
structure Token where
  st    : TokState := .idle
  cause : BitVec 8 := 0#8
  prog  : DWord := 0#64
  op    : Nat := 0
  deriving DecidableEq, Repr

/-- The payload of `HDEP` (R92). -/
structure DepHint where
  mask : BitVec 16
  pol  : BitVec 2
  badp : Bool
  deriving DecidableEq, Repr

/-- The payload of `HMOD` (R93). -/
structure ModHint where
  rnd  : BitVec 3 := 0#3
  ovf  : Bool := false
  cp   : BitVec 3 := 0#3
  scp  : BitVec 3 := 0#3
  sem  : BitVec 2 := 0#2
  gen  : Bool := false
  gneg : Bool := false
  gp   : BitVec 3 := 0#3
  deriving DecidableEq, Repr

/-- The payload of `HSCH` (R94). -/
structure SchHint where
  pri : BitVec 3
  yld : Bool
  deriving DecidableEq, Repr

/-- A thread's pending hints (R89): at most one of each kind. -/
structure Hints where
  imm : Option (BitVec 23) := none
  dep : Option DepHint := none
  mod : Option ModHint := none
  sch : Option SchHint := none
  deriving DecidableEq, Repr

/-! ## Threads -/

/-- Park reasons (R118), in the order of the codes of R381 from 1. -/
inductive Reason where
  | absentLine | tokenTarget | translation | lightFault | migration | precondition | settle | wait
  deriving DecidableEq, Repr

/-- Thread states (R111). -/
inductive TState where
  | runnable
  | parked (r : Reason)
  | rcvWait
  | exited
  deriving DecidableEq, Repr

/-- What a parked thread waits for, as data its partition re-examines (R118). -/
inductive Wake where
  | none
  /-- the scratchpad lines (physical lines of the core) are present -/
  | lines (core : Nat) (ls : List Nat)
  /-- none of the operations is PEND -/
  | ops (ids : List Nat)
  /-- the walk for the page, on behalf of an access that needs some rights, has returned -/
  | walk (clu asid va need : Nat)
  /-- Ochre has served the page -/
  | light (asid va : Nat)
  /-- the page is no longer in migration -/
  | mig (asid va : Nat)
  /-- every pending result of the thread has landed -/
  | settle
  /-- no thread of these lanes that waits here holds a pending result: those that took an arithmetic trap do not (R160) -/
  | settles (lanes : List Nat)
  /-- `WAIT`'s ready condition on a token mask -/
  | tokens (mask : BitVec 16) (any : Bool)
  /-- `WAITC`'s condition on one token's progress -/
  | prog (k : Nat) (mask : DWord)
  /-- the barrier at a device-local address has reached a phase, or is invalid -/
  | barrier (pa : Nat) (phase : Word)
  /-- a remote barrier has been reported at or past a phase, or its read has returned -/
  | watch (dev pa : Nat) (phase : Word)
  /-- the slot that `SACQ` would take is EMPTY -/
  | slotEmpty (q : Nat)
  /-- the slot that `SPOP` would take is FILLED -/
  | slotFilled (q : Nat)
  /-- the fence's earlier accesses have been performed -/
  | fence (seq : Nat) (lanes : List Nat) (stores : Bool)
  deriving DecidableEq, Repr

/-- Where a pending long-class result goes (R121, R122). -/
inductive Dest where
  | v (n : Nat)
  | p (n : Nat)
  /-- the group's pending scalar result with this number -/
  | s (id : Nat)
  /-- a result that a later word discarded, or a word without a target: only its flags remain -/
  | none
  deriving DecidableEq, Repr

/-- A pending long-class result of a thread (R121), with the flags it raised (R158) and the trap enables as its word issued (R160). -/
structure Pending where
  dest   : Dest
  val    : Word
  flags  : BitVec 5 := 0#5
  te     : BitVec 5 := 0#5
  pc     : Word
  wid    : Nat
  op     : BitVec 8 := 0#8
  landed : Bool := false
  deriving DecidableEq, Repr

/-- A loop-stack entry (R142): LOOP holds START, END and LEFT; CALL holds RET in `start`. -/
structure LoopEntry where
  isLoop : Bool
  start  : Word
  fin    : Word := 0#32
  left   : Word := 0#32
  deriving DecidableEq, Repr

/-- A trap that a thread has taken and not yet entered (R368). -/
structure TrapReq where
  tcode : Word
  fpc   : Word
  cpc   : Word
  npc   : Word
  addr  : DWord := 0#64
  op    : BitVec 8 := 0#8
  size  : Nat := 0
  /-- the entry at which its thread had stopped for a save when the trap was taken: the thread is saved as it enters its handler (R384) -/
  hold  : Option Nat := none
  deriving DecidableEq, Repr

/-- A thread (R10): its PC, state, registers, loop stack (top first), pending hints and pending results. -/
structure Thread where
  pc      : Word := 0#32
  st      : TState := .runnable
  v       : List Word := List.replicate 128 0#32
  p       : BitVec 8 := 0#8
  hints   : Hints := {}
  stack   : List LoopEntry := []
  pend    : List Pending := []
  starve  : Nat := 0
  /-- the count has reached 1,024 (R115) -/
  starved : Bool := false
  hnd     : Bool := false
  /-- S of the `RCV` it waits at (R125) -/
  rcvS    : Bool := false
  trap    : Option TrapReq := none
  wake    : Wake := .none
  parkedAt : Nat := 0
  /-- stopped for a save: the pre-emption entry, or 0xFFFF_FFFF for full masks (R381) -/
  stopped : Option Nat := none
  deriving DecidableEq, Repr

/-! ## Operations in flight -/

/-- A physical target of an access (R45, R46, R187, R369). -/
inductive Phys where
  /-- HBM of this device, NORMAL -/
  | home (pa : Nat)
  /-- an on-chip window of this device, DEVICE -/
  | window (pa : Nat)
  /-- the host aperture, HOST -/
  | host (pa : Nat)
  | remote (dev pa : Nat)
  /-- the group's trap frames -/
  | frame (off : Nat)
  /-- the part of a converted key-value page that is not stored: it reads zero (R268) -/
  | zero
  deriving DecidableEq, Repr

/-- One lane's part of a memory word's operation (R193). -/
structure Part where
  lane : Nat
  va   : Nat
  phys : Phys
  size : Nat
  /-- token-tracked target registers, low word first -/
  tgt  : List Nat := []
  /-- store data or atomic operand -/
  data : Bytes := []
  /-- it has left the store queue, or was never in it -/
  sent : Bool := false
  performed : Bool := false
  /-- finished: cause 0 is clean -/
  fin  : Option (BitVec 8) := none
  /-- progress of an `LDT` or `STT`: the tile word last read, and the stage -/
  tile : Nat := 0
  stage : Nat := 0
  /-- where a `CFLUSH` span goes on in its second page, and its bytes there -/
  tail : Option (Phys × Nat) := none
  deriving DecidableEq, Repr

/-- A sampled precondition (R92): the token, the operation then bound, and its end once known. -/
structure Pre where
  k   : Nat
  op  : Nat
  res : Option (TokState × BitVec 8) := none
  deriving DecidableEq, Repr

/-- An export attached to an operation by `TEXP` (R347): the barrier's virtual address, its arrivals, the place of the `TEXP` in the group's queue, and its
PC and lanes. -/
structure Exprt where
  bar  : Nat
  arr  : Nat
  byt  : Bool
  grp  : Nat
  seq  : Nat := 0
  pc   : Word := 0#32
  lanes : List Nat := []
  deriving DecidableEq, Repr

/-- One gathered slice of a copy (R224, R225). -/
structure Slice where
  idx  : Nat
  op   : Nat
  dov  : Bool
  sov  : Bool
  doff : Nat
  soff : Nat
  deriving DecidableEq, Repr

/-- What an operation is (R203 to R213, R218, R250 to R256, R365). -/
inductive OpKind where
  | load (acq : Bool) (scope : BitVec 3)
  | store (rel : Bool) (scope : BitVec 3)
  | atom (op : BitVec 3) (w ord : Bool) (sem : BitVec 2) (scope : BitVec 3)
  | cas (w ord : Bool) (sem : BitVec 2) (scope : BitVec 3)
  | cflush (opn : BitVec 2)
  | ldt (sem : BitVec 2) (scope : BitVec 3)
  | stt (sem : BitVec 2) (scope : BitVec 3)
  | binit (w0 w1 : Word)
  | arv (a : Nat) (b : Int) (p : Option (BitVec 8))
  | copy (gather : Nat)
  | launch (l : Nat)
  | kvld | kvseal | kvhdr
  | coll | mcst | rte | rtc
  | mma (fmt : Nat) (acc : Nat) (desc : Word) (rows : List (Nat × List Word × List Word × List Word))
  | acacq (acc : Nat)
  | drain (pod : Bool)
  deriving DecidableEq, Repr

/-- An operation bound to a token, or detached from it, until it finishes (R216, R217). -/
structure Op where
  id     : Nat
  asid   : Nat
  launch : Nat
  team   : Nat
  grp    : Nat
  lanes  : List Nat := []
  /-- cache policy of its word's `HMOD` (R93) -/
  cp     : Nat := 0
  kd     : Nat
  bound  : Bool := true
  /-- place in the group's issue order -/
  seq    : Nat
  pc     : Word := 0#32
  kind   : OpKind
  pre    : List Pre := []
  pol    : BitVec 2 := 0#2
  badp   : Bool := false
  parts  : List Part := []
  exprts : List Exprt := []
  started : Bool := false
  /-- the command's acquire and release flags and scope (R220) -/
  acq    : Bool := false
  rel    : Bool := false
  scope  : BitVec 3 := 0#3
  /-- the record read at issue, and the scalar operands -/
  va     : Nat := 0
  recd   : Bytes := []
  args   : List Word := []
  /-- chunks of the destination, those landed, and those landed as zeros (R230) -/
  nchunk : Nat := 0
  landed : List Nat := []
  /-- chunks that were dropped, their window target gone (R75, R227) -/
  dropped : List Nat := []
  bad    : List (Nat × Nat) := []
  skip   : Nat := 0
  /-- decoded stream chunks, received inputs and results, by chunk index -/
  bufs   : List (Nat × Nat × Bytes) := []
  /-- counts received from members, or members that have answered: (member, index, values) -/
  got    : List (Nat × Nat × List Nat) := []
  /-- the members' order, bases and the choices still to land -/
  stage  : Nat := 0
  /-- of a started `MMA`: the 4-byte units that the array has already read, with their values, and the elements that it has already written (R254, R261) -/
  units  : List (Nat × Nat) := []
  wrote  : List Nat := []
  issuedAt : Nat := 0
  /-- the cause with which it will end, 0 for none -/
  fail   : BitVec 8 := 0#8
  /-- the other member devices of a collective or dispatch, its CID or DID, and its ordinal N (R288) -/
  peers  : List Nat := []
  /-- every member of its group, in group or member order (R315, R322) -/
  members : List Nat := []
  cid    : Nat := 0
  ordn   : Nat := 0
  deriving DecidableEq, Repr

/-- What a store-queue entry does at its head (R195, R343, R361). -/
inductive QKind where
  | store | home | barrier
  | fence (scope : BitVec 3) (upto : Nat)
  deriving DecidableEq, Repr

/-- A barrier update on its way to its home (R349, R350). -/
structure BUpdate where
  pa    : Nat := 0
  /-- its virtual address while its page migrates, 0 once translated -/
  va    : Nat := 0
  arr   : Nat := 0
  byt   : Int := 0
  cause : Option (BitVec 8) := none
  bad   : Bool := false
  /-- the key of R350: device and unit -/
  dev   : Nat := 0
  unit  : Nat := 255
  /-- the `ARV` operation it finishes, 0 for none -/
  op    : Nat := 0
  asid  : Nat := 0x200
  /-- the group of whose word or operation it is, 0 for none -/
  grp   : Nat := 0
  /-- the barrier's virtual address, and of the word that sends or exports it the place in the group's order, the PC and the lanes (R359, R379) -/
  bar   : Nat := 0
  seq   : Nat := 0
  pc    : Word := 0#32
  lanes : List Nat := []
  deriving DecidableEq, Repr

/-- A store-queue entry (R195): the operation and lane it belongs to, in queue order; for a fence, `lane` is the mask of the lanes that take part. -/
structure QEntry where
  seq  : Nat
  kind : QKind
  op   : Nat := 0
  lane : Nat := 0
  /-- the updates that a `TEXP` entry sends as it leaves (R347) -/
  upds : List (Nat × BUpdate) := []
  deriving DecidableEq, Repr

/-- A pending scalar result of the group (R122). -/
structure SPend where
  id    : Nat
  sd    : Nat
  val   : Word
  deriving DecidableEq, Repr

/-! ## Groups, teams, launches, contexts -/

/-- A resident or saved group (R10, R13). -/
structure Group where
  uid    : Nat
  team   : Nat
  launch : Nat
  asid   : Nat
  /-- team group index `s6`, role, and index within the role -/
  idx    : Nat
  role   : Nat
  core   : Nat
  part   : Nat
  slot   : Nat
  resident : Bool := true
  threads : List Thread
  s      : List Word
  q      : BitVec 4 := 0#4
  k      : List Token
  sq     : List QEntry := []
  spend  : List SPend := []
  fpst   : Word := 0#32
  cycHi  : Word := 0#32
  timHi  : Word := 0#32
  perfHi : Word := 0#32
  frames : Memory := []
  /-- issue order of words, queue entries and operations -/
  seq    : Nat := 1
  /-- cycle of its die at its last issue, or at its placement while it has not issued since (R12) -/
  lastIssue : Nat := 0
  /-- code offsets of the words fetched ahead of its next issue (R100) -/
  ahead  : List Nat := []
  /-- it is owed its partition's next slot (R12) -/
  owed   : Bool := false
  /-- issue slots left of an `HSCH` boost, and the yield of R94 and R148 -/
  boost  : Nat := 0
  yielded : Bool := false
  /-- lanes that R148 leaves out of the next issue -/
  leftOut : List Nat := []
  /-- under the forced full save (R384) -/
  full    : Bool := false
  finished : Bool := false
  deriving DecidableEq, Repr

/-- Stream-queue slot states (R237). -/
inductive SlotState where
  | empty | acquired | filling | filled | popped
  deriving DecidableEq, Repr

/-- A stream queue of a team (R19, R237). -/
structure StreamQ where
  idx   : Nat
  slotl : Nat
  basel : Nat
  aptr  : Nat := 0
  pptr  : Nat := 0
  slots : List (SlotState × Word)
  /-- the cycle of its die in which a slot last changed, and the slots' states at that cycle's start (R113) -/
  prev  : Option (Nat × List SlotState) := none
  deriving DecidableEq, Repr

/-- A tile's ownership (R247). -/
inductive TileState where
  | array
  | acquiring (g op : Nat)
  | group (g : Nat)
  deriving DecidableEq, Repr

/-- A tile of a team's run in one array (R245, R247): its state and poison mark; its elements lie in memory at its window address. -/
structure Tile where
  arr  : Nat
  idx  : Nat
  st   : TileState := .array
  mark : Option (BitVec 8) := none
  /-- `MMA` and `ACACQ` operations outstanding, in tile order (R248) -/
  ord  : List Nat := []
  deriving DecidableEq, Repr

/-- Why a team was ordered to stop (R382, R387). -/
inductive StopKind where
  | preempted | swapped | descheduled
  deriving DecidableEq, Repr

/-- Where a team is (R11, R65, R391, R401). -/
inductive TeamPhase where
  | resident | saved (k : StopKind) | retired
  deriving DecidableEq, Repr

/-- An order to stop a team (R382, R384). -/
structure StopOrder where
  kind   : StopKind
  cycle  : Nat
  ns     : Nat
  full   : Bool := false
  deriving DecidableEq, Repr

/-- A declared range (R27): rights RD, WR, EX and an extent of virtual addresses. -/
structure Range where
  rd : Bool
  wr : Bool
  ex : Bool
  lo : Nat
  hi : Nat
  deriving DecidableEq, Repr

/-- A role-table entry (R16), with GROUPS after ROLEG. -/
structure Role where
  entry  : Nat
  groups : Nat
  vbud   : Nat
  inq    : Option Nat := none
  outq   : Option Nat := none
  deriving DecidableEq, Repr

/-- A pre-emption entry (R22). -/
structure PeEntry where
  pcoff : Nat
  vlive : Nat
  slive : Nat
  plive : Nat
  qlive : Nat
  acc   : Bool
  klive : Nat
  deriving DecidableEq, Repr

/-- A kernel image as a launch uses it (R15 to R22). -/
structure Image where
  va      : Nat := 0
  codeOff : Nat := 64
  codeLen : Nat := 4
  trap    : Option Nat := none
  spad    : Nat := 0
  acct    : Nat := 0
  wbk     : Nat := 0
  size    : Nat := 0
  roles   : List Role := []
  queues  : List StreamQ := []
  pats    : List (Nat × Bytes) := []
  pe      : List PeEntry := []
  deriving DecidableEq, Repr

/-- A placed team (R67 to R69). -/
structure Team where
  uid    : Nat
  launch : Nat
  asid   : Nat
  index  : Nat
  core   : Nat
  phase  : TeamPhase := .resident
  spBase : Nat := 0
  spLines : Nat := 0
  /-- arrays used, each with its first tile and first weight-buffer KiB -/
  arrays : List (Nat × Nat × Nat) := []
  acct   : Nat := 0
  wbk    : Nat := 0
  queues : List StreamQ := []
  tiles  : List Tile := []
  stop   : Option StopOrder := none
  /-- device-local address of its save area, 0 before one is allocated -/
  save   : Nat := 0
  /-- its place in the order of placements -/
  placedAt : Nat := 0
  /-- its last save wrote the tiles (R260) -/
  tilesKept : Bool := true
  /-- the image that it read as it was placed, where that differs from its launch's (R23) -/
  img    : Option Image := none
  /-- the old frames of the migrations out of whose way it was swapped (R62) -/
  away   : List Nat := []
  deriving DecidableEq, Repr

/-- A precondition of a launch (R26). -/
structure Precond where
  bar   : Nat
  phase : Word
  pass  : Bool
  deriving DecidableEq, Repr

/-- Stages of a launch (R34, R65, R376, R402). -/
inductive LPhase where
  /-- entered in the engine queue, its record not yet read -/
  | queued
  /-- its record and image being read and validated -/
  | reading
  | waiting
  | leasing
  | ready
  | failed
  | retired
  deriving DecidableEq, Repr

/-- A pin of one page, or of the part of it that a range declares: its device, device-local address and extent, and the grant on another device (R54, R55,
R297). -/
structure Pin where
  dev   : Nat
  wr    : Bool := false
  frame : Nat
  span  : Nat := 65536
  gid   : Nat := 0
  answered : Bool := true
  askedAt : Nat := 0
  deriving DecidableEq, Repr

/-- A launch (R24, R34, R64). -/
structure Launch where
  uid    : Nat
  asid   : Nat
  va     : Nat := 0
  op     : Nat := 0
  isCtrl : Bool := false
  die    : Nat := 0
  phase  : LPhase := .queued
  recd   : Bytes := []
  prio   : Nat := 0
  gx     : Nat := 1
  gy     : Nat := 1
  gz     : Nat := 1
  largs  : DWord := 0#64
  ltag   : DWord := 0#64
  doneb  : Nat := 0
  pres   : List Precond := []
  ranges : List Range := []
  img    : Image := {}
  /-- the bytes of the image as they were validated (R23) -/
  raw    : Bytes := []
  pins   : List Pin := []
  /-- extents still to pin, with the rights that their leaves must give -/
  toPin  : List Range := []
  /-- an outstanding residency request and its virtual address -/
  resid  : Option (Nat × Nat) := none
  next   : Nat := 0
  entered : Nat := 0
  starvedAt : Option Nat := none
  unplaceable : Nat := 0
  ended  : Option Nat := none
  /-- save areas of its teams (R386): address and length -/
  saves  : List (Nat × Nat) := []
  deriving DecidableEq, Repr

/-- A fault ring as it stands (R378): its device-local address and indices. -/
structure FaultRing where
  addr : Nat := 0
  head : Nat := 0
  drop : Nat := 0
  deriving DecidableEq, Repr

/-- A live context (R10, R31). -/
structure Context where
  asid   : Nat
  root   : Nat
  cimg   : Nat := 0
  hat    : Nat := 0
  hacnt  : Nat := 0
  vec    : Nat := 0
  clu    : Nat := 0
  weight : Nat := 1
  ages   : List Word := []
  ring   : FaultRing := {}
  /-- operations waiting in the engine queue, in issue order (R218) -/
  engq   : List Nat := []
  pool   : List (Nat × Nat) := []
  deficit : List (Nat × Nat × Nat) := []
  descheduled : Bool := false
  tearing : Bool := false
  /-- when the context was last not idle, and last not idle across the pod (R364) -/
  busyAt : Nat := 0
  /-- the TEARDOWN and DESCHEDULE requests that are answered when they end (R392, R405) -/
  answer : List Bytes := []
  /-- the CREATE request that is answered once the control team is placed (R31, R33) -/
  creating : Option Bytes := none
  stopAns : List Bytes := []
  deriving DecidableEq, Repr

/-- A copy's gather (R224). -/
structure Gather where
  id     : Nat
  team   : Nat
  va     : Nat
  recd   : Bytes
  slices : List Slice := []
  started : Bool := false
  /-- published queue and slot (R238) -/
  slot   : Option (Nat × Nat) := none
  /-- a failure found when the gather opened that fails the copy at its start -/
  fail   : Option (BitVec 8) := none
  deriving DecidableEq, Repr

/-! ## Memory system -/

/-- An L1 line of a core (R56, R60, R186). -/
structure L1Line where
  core : Nat
  asid : Nat
  va   : Nat
  pa   : Nat
  wr   : Bool
  d    : Bool
  data : Bytes
  deriving DecidableEq, Repr

/-- A cluster-cache line (R186): its bytes, and which of them are dirty. -/
structure CCLine where
  clu   : Nat
  pa    : Nat
  asid  : Nat
  data  : Bytes
  dirty : List Bool
  deriving DecidableEq, Repr

/-- A dirty L2 line with its owner tag (R395) and the way of its superblock (R398). -/
structure L2Line where
  pa  : Nat
  tag : Nat
  way : Nat := 0
  deriving DecidableEq, Repr

/-- A translation entry (R56, R266): cluster for the cluster TLB, 96·die + slice + 48 for the second level. -/
structure Tlb where
  unit : Nat
  asid : Nat
  va   : Nat
  span : Nat
  dev  : Nat
  pa   : Nat
  rd   : Bool
  wr   : Bool
  ex   : Bool
  a    : Bool
  d    : Bool
  kv   : Bool
  mig  : Bool
  mt   : Nat
  ext  : Nat
  /-- false when a key-value page word closes the page to stores (R266) -/
  opn  : Bool := true
  deriving DecidableEq, Repr

/-! ## Fabric, host, Ochre -/

/-- What a fabric request's answer finishes (R298, R302). -/
inductive ReqFor where
  | part (op lane : Nat)
  /-- an access of an `LDT` or `STT` to its tile on another device, at a byte offset of the tile -/
  | tile (op lane off : Nat)
  | chunk (op i : Nat)
  | update (u : BUpdate)
  | barRead (grp : Nat) (pa : Nat)
  /-- the answers of a multicast's members (R321) -/
  | mcast (op : Nat)
  deriving DecidableEq, Repr

/-- A request in the retransmit buffer (R298, R302). -/
structure Req where
  pkt    : Packet
  sends  : Nat := 1
  sentAt : Nat := 0
  owner  : ReqFor
  asid   : Nat := 0x200
  grp    : Nat := 0
  deriving DecidableEq, Repr

/-- A grant to another device's launch (R297). -/
structure Grant where
  gid   : Nat
  dev   : Nat
  sasid : Nat
  rd    : Bool
  wr    : Bool
  ex    : Bool
  frame : Nat
  span  : Nat
  deriving DecidableEq, Repr

/-- Release-flag state towards one destination (R304, R305). -/
structure FlagOut where
  dev   : Nat
  epoch : Word := 0#32
  next  : Word := 1#32
  deriving DecidableEq, Repr

/-- Release-flag state of one source (R304, R305): the window's marks are offsets from F. -/
structure FlagIn where
  dev   : Nat
  epoch : Word
  floor : Nat := 0
  marks : List Nat := []
  deriving DecidableEq, Repr

/-- A fabric port (R283, R293, R294). -/
structure Port where
  idx    : Nat
  up     : Bool := false
  width  : Nat := 0
  nbr    : Nat := 0
  epoch  : Word := 0#32
  pool   : Nat := 0
  cred   : Bytes := []
  /-- beats queued at the port, by virtual channel (R292) -/
  occ    : List (Nat × Nat) := []
  /-- Ochre has taken it out of service (R294), and the entries whose minimal path it cleared -/
  out    : Bool := false
  cleared : List Nat := []
  deriving DecidableEq, Repr

/-- A doorbell queued behind earlier host writes (R36, R38). -/
structure Doorbell where
  asid : Nat
  slot : Nat
  arr  : Nat
  byt  : Int
  deriving DecidableEq, Repr

/-- A host read through the aperture that is outstanding (R43). -/
structure HostRead where
  rid  : Nat
  op   : Nat
  lane : Nat
  win  : Nat
  pa   : Nat
  len  : Nat
  at0  : Nat
  deriving DecidableEq, Repr

/-- What the device has shown the host, in order (R39, R41, R42). -/
inductive HostOut where
  | msix (vec : Nat)
  | bar2 (off : Nat) (data : Bytes)
  | bar0 (off : Nat) (data : Bytes)
  | apertureRead (rid addr len : Nat)
  | apertureWrite (addr : Nat) (data : Bytes)
  deriving DecidableEq, Repr

/-- An event counter (R415, R416): mode 0 OFF, 1 SYS, 2 CTX. -/
structure Counter where
  core  : Nat
  idx   : Nat
  mode  : Nat := 0
  casid : Nat := 0
  event : Nat := 0
  own   : Option Nat := none
  on    : Bool := false
  val   : Nat := 0
  /-- its value before the events of the cycle that `stamp` names (R417) -/
  base  : Nat := 0
  stamp : Option Nat := none
  deriving DecidableEq, Repr

/-- A seal-list entry (R272), by frame and half. -/
structure Sealed where
  frame : Nat
  half  : Nat
  deriving DecidableEq, Repr

/-- An assignment of a team to a core (R68). -/
structure Fit where
  seats  : List (Nat × Nat)
  spBase : Nat
  /-- arrays used, each with its first tile and first weight-buffer KiB -/
  arrays : List (Nat × Nat × Nat)
  deriving DecidableEq, Repr

/-- A claim for a launch's next team (R66, R71): the saved team that it is, 0 for a new one; its core, the image that it is placed with, its assignment,
and its save area. -/
structure Claim where
  launch : Nat
  team   : Nat
  core   : Nat
  img    : Image
  fit    : Fit
  save   : Nat
  deriving DecidableEq, Repr

/-- A distributor (R64 to R71): round pointers by priority, rotation pointer, and its one outstanding reservation or pre-emption. -/
structure Distributor where
  rounds   : List Nat := [0, 0, 0, 0, 0, 0, 0, 0]
  rotation : Nat := 0
  /-- team wanted: launch, core asked, and the answer once given -/
  asked    : Option (Nat × Nat × Option Bool) := none
  /-- what the other distributor has reserved for it -/
  granted  : Option Claim := none
  /-- cores already refused in this search -/
  refused  : List Nat := []
  /-- a pre-emption in flight: launch, core, victims -/
  preempt  : Option (Nat × Nat × List Nat) := none
  /-- the room that its victims leave, reserved -/
  kept     : Option Claim := none
  /-- occasions for a placement decision that have come and have not been used (R70) -/
  wanted   : Nat := 0
  /-- a decision that has not ended: priority, contexts still to visit, launches of the first still to visit, and whether a team was placed -/
  todo     : Option (Nat × List Nat × List Nat × Bool) := none
  deriving DecidableEq, Repr

/-- Clock, sensors and limits of one compute die (R374, R424, R426). -/
structure Die where
  cycles : Nat := 0
  clk    : Nat := 33
  temp   : Nat := 0
  thrt   : Nat := 0
  limited : Bool := false
  hold   : Bool := false
  steppedAt : Nat := 0
  deriving DecidableEq, Repr

/-- Boot state (R418, R419). -/
inductive Boot where
  | reset | running | recovery
  deriving DecidableEq, Repr

/-- The issue that is being executed: the group and the lanes of its issue set, lowest first (R114). -/
structure Sel where
  grp   : Nat := 0
  lanes : List Nat := []
  deriving DecidableEq, Repr

/-- What happens next, outside the model's own determinism. -/
inductive Happening where
  /-- a step of the table occurs -/
  | row (i : Instr)
  /-- a packet arrives at a port, and the step of its type occurs -/
  | arrive (port : Nat) (pkt : Packet)
  /-- a partition of a core is given its issue slot -/
  | slot (core part : Nat)
  /-- the array reads a 4-byte unit for a started `MMA`, or writes an element of its tile, before the `MMA` finishes (R254, R261) -/
  | arrayReads (op unit : Nat)
  | arrayWrites (op lane col : Nat)
  /-- the clocks of the two dies, which step independently, run on, and the time counter (R374, R424) -/
  | tick (cycles0 cycles1 ns : Nat)
  /-- the beats queued at a port for a virtual channel change (R292) -/
  | occupancy (port vc beats : Nat)
  /-- a cache drops a line to make room (R186) -/
  | evictL1 (core va : Nat)
  | evictCC (clu pa : Nat)
  | evictL2 (pa : Nat)
  /-- a soft error is about to turn over a bit of a chunk on Umber's internal path (R309, R311) -/
  | upset (bit : Nat)
  /-- the host reads BAR0, gives BAR2 a size of 2^bits bytes, or writes BAR2 with a poisoned packet (R40, R41) -/
  | bar0Read (off len : Nat)
  | resizeBar2 (bits : Nat)
  | poisonedWrite
  /-- the sensors and the power meter read (R426) -/
  | sense (pwr temp0 temp1 umber hbm : Nat)
  deriving DecidableEq, Repr

/-- The Hexael device. -/
structure State where
  /-- the issue being executed -/
  sel      : Sel := {}
  agenda   : List Happening := []
  turn     : Nat := 0
  /-- the last issue of each quad: core, quad, cycle of its die, and partition (R248); under quad 16 a core's last `PERF` (R417) -/
  issued   : List (Nat × Nat × Nat × Nat) := []
  groups   : List Group := []
  teams    : List Team := []
  launches : List Launch := []
  contexts : List Context := []
  ops      : List Op := []
  gathers  : List Gather := []
  nextId   : Nat := 1
  /-- how many of the choices that the specification leaves open have been made: the model's own count, by which a free value is fresh each time -/
  free     : Nat := 0
  -- memory
  mem      : Memory := []
  l1       : List L1Line := []
  cc       : List CCLine := []
  l2       : List L2Line := []
  lost     : List Nat := []
  ways     : List (Nat × Nat) := []
  retired  : List Nat := []
  toRetire : List Nat := []
  tlb      : List Tlb := []
  /-- walks asked for: cluster, ASID, address, and the rights that the access needs -/
  walkReqs : List (Nat × Nat × Nat × Nat) := []
  /-- light faults being served: ASID, the page's address, and whether D is needed -/
  lightReqs : List (Nat × Nat × Bool) := []
  /-- absent scratchpad lines: core, physical line, and the operation or gather that is to land there -/
  absent   : List (Nat × Nat × Nat) := []
  pats     : List (Nat × Nat × Bytes) := []
  updates  : List BUpdate := []
  /-- pages in migration (R61): the old frame and the new, and the remote requests that wait for the end -/
  migrating : List (Nat × Nat) := []
  waiting  : List (Nat × Packet) := []
  -- placement
  dists    : List Distributor := [{}, {}]
  pthr     : List Nat := [0xFFFFF, 2000, 1000, 500, 200, 100, 50, 20]
  wdsave   : Nat := 10000
  -- key-value pages
  seals    : List Sealed := []
  refill   : List Nat := []
  freed    : List Nat := []
  ffring   : Option (Nat × Nat) := none
  -- fabric
  devid    : Nat := 0
  epoch    : Word := 0#32
  ports    : List Port := []
  routes   : List (Nat × DWord) := []
  mcast    : List (Nat × DWord) := []
  adth     : Nat := 64
  tpod     : Nat := 10
  linkUpAt : Option Nat := none
  fabricOpen : Bool := false
  rtx      : List Req := []
  outPkts  : List (Nat × Packet) := []
  /-- the packet being handled, and the port at which it arrived -/
  arrived  : Option (Nat × Packet) := none
  /-- the bit that a soft error turns over in the next chunk on the internal path (R311) -/
  upset    : Option Nat := none
  /-- management packets that wait until the device may send requests (R305) -/
  mgmtHeld : List Packet := []
  ccache   : List (Nat × Nat × Packet × Nat) := []
  atomNext : List (Nat × Nat × Nat) := []
  grants   : List Grant := []
  flagsOut : List FlagOut := []
  flagsIn  : List FlagIn := []
  /-- gather requests held for the expert's `RTC`, and the finished `RTC` commands that still serve them (R335) -/
  held     : List Packet := []
  served   : List Op := []
  /-- chunks received for a collective whose destination is held: operation and packet -/
  inbox    : List (Nat × Packet) := []
  /-- row chunks landed here before the counts that tell whose they are: device-local address, sender, transaction, finder word (R330, R332) -/
  rows     : List (Nat × Nat × Nat × Nat) := []
  /-- ordered atomics of other devices: the number expected next, by source, issuing group and home slice, and those that wait (R300) -/
  atomIn   : List (Nat × Nat × Nat × Nat) := []
  heldAtoms : List (Nat × Packet) := []
  /-- multicasts being received: source and group, with the bad and the denied chunks so far (R321) -/
  mcIn     : List (Nat × Nat × Nat × Nat) := []
  descs    : List Packet := []
  /-- watches of other devices on barriers here: device, barrier, phase, and the address by which the device knows the barrier -/
  watches  : List (Nat × Nat × Word × Nat) := []
  advanced : List (Nat × Nat × Word) := []
  barReads : List (Nat × Nat × Option Bytes × BitVec 8) := []
  /-- pod commands issued so far: ASID, kind, CID or DID, and how many (R288, R318) -/
  ordinals : List (Nat × Nat × Nat × Nat) := []
  -- host
  mbox     : Memory := []
  /-- replies and messages that wait for room in the reply ring (R408) -/
  replies  : List Bytes := []
  doorbells : List Doorbell := []
  hostOut  : List HostOut := []
  hostReads : List HostRead := []
  /-- the MSI-X vectors that are not masked, and those pending -/
  msixOpen : List Nat := []
  msixPend : List Nat := []
  aperture : List (Nat × Nat) := []
  /-- BAR2's size is 2^bar2Bits bytes (R41), and the poisoned writes that AER has logged (R40) -/
  bar2Bits : Nat := 30
  poisoned : Nat := 0
  -- counters, clocks, power, boot
  counters : List Counter := []
  die0     : Die := {}
  die1     : Die := {}
  timeNs   : Nat := 0
  pwr      : Nat := 0
  limitW   : Nat := 3000
  tempUmber : Nat := 0
  tempHbm  : Nat := 0
  boot     : Boot := .reset
  svn      : Nat := 0
  floor    : Nat := 0
  flash    : Bytes := []
  cfgRec   : Bytes := []
  recWin   : Memory := []
  measure  : Bytes := []
  cfgOk    : Bool := false
  cfgCount : Nat := 0
  viaRecovery : Bool := false
  deriving DecidableEq, Repr

/-- The device right after reset: no context, no team, memory with nothing listed, every register of Umber and Ochre at its reset value (R70, R72, R291, R394,
R408, R415), and the boot ROM about to run (R418). -/
def State.reset : State := {}

end Sys2Proof.Machine
end

