-- ==== Sys2Proof/Machine/Ops.lean ====
section
/-!
DEFINITION. The named operations over the state: bytes of memory and of the on-chip windows, lookups and updates of groups, teams, launches, contexts and
operations, the event log and the mailbox, packets and barrier updates, the finish of an operation, fault records and the end of a task, the loop
decision, settle segments, the taking of a trap, and the commit of an issued word.
-/
namespace Sys2Proof.Machine
open Sys2Proof

/-! ## Memory -/

/-- The byte at an address; an unlisted address reads zero (log entry 1). -/
def memGet : Memory → Nat → Byte
  | [], _ => 0#8
  | (a, b) :: m, x => if x = a then b else memGet m x

/-- Memory with one byte written, in canonical form. -/
def memPut : Memory → Nat → Byte → Memory
  | [], x, v => if v = 0#8 then [] else [(x, v)]
  | (a, b) :: m, x, v =>
    if x < a then (if v = 0#8 then (a, b) :: m else (x, v) :: (a, b) :: m)
    else if x = a then (if v = 0#8 then m else (x, v) :: m)
    else (a, b) :: memPut m x v

/-- Canonical form from an address on: addresses strictly rising, no byte equal to what an unlisted address reads as. -/
def memWfFrom : Nat → Memory → Bool
  | _, [] => true
  | lo, (a, b) :: m => decide (lo ≤ a) && b != 0#8 && memWfFrom (a + 1) m

/-- The canonical form of a memory. -/
def Memory.wf (m : Memory) : Bool := memWfFrom 0 m

/-- `n` bytes from an address. -/
def getBytes (m : Memory) (a : Nat) : Nat → Bytes
  | 0 => []
  | n + 1 => memGet m a :: getBytes m (a + 1) n

/-- Memory with bytes written from an address. -/
def putBytes (m : Memory) (a : Nat) : Bytes → Memory
  | [] => m
  | b :: bs => putBytes (memPut m a b) (a + 1) bs

/-- The little-endian number of `n` bytes at an address (R4). -/
def getLe (m : Memory) (a n : Nat) : Nat := leNat (getBytes m a n)

/-- The little-endian field of a record. -/
def fieldLe (bs : Bytes) (off n : Nat) : Nat := leNat (sliceBytes bs off n)

/-- Bytes with others laid over them at an offset. -/
def overlay (bs : Bytes) (off : Nat) (new : Bytes) : Bytes := bs.take off ++ new ++ bs.drop (off + new.length)

/-- The device-local map: the end of HBM (R46). -/
def hbmEnd : Nat := 0x00C000000000
/-- The first address of the on-chip windows (R46). -/
def winBase : Nat := 0x3F0000000000
/-- The end of the on-chip windows (R46). -/
def winEnd : Nat := 0x3F0030000000
/-- The host aperture (R42). -/
def hostBase : Nat := 0x3F8000000000
/-- The end of the host aperture (R42). -/
def hostEnd : Nat := 0x3FC000000000

/-- The base of a core's window (R74). -/
def coreBase (core : Nat) : Nat := winBase + core * 0x400000
/-- The window address of a scratchpad byte of a core (R74). -/
def spadAddr (core off : Nat) : Nat := coreBase core + 0x200000 + off
/-- The window address of an element of a tile (R74). -/
def tileAddr (core arr tile off : Nat) : Nat := coreBase core + 0x300000 + arr * 0x20000 + tile * 0x1000 + off
/-- The window address of a weight-buffer byte (R74). -/
def wbufAddr (core arr off : Nat) : Nat := coreBase core + 0x380000 + arr * 0x20000 + off
/-- The physical address of a device-local one (R45). -/
def State.physOf (s : State) (pa : Nat) : Nat := s.devid * 2 ^ 46 + pa
/-- The cluster of a core (R46). -/
def clusterOf (core : Nat) : Nat := core / 4
/-- The compute die of a core (R46). -/
def dieOf (core : Nat) : Nat := core / 96

/-! ## Lookups and updates -/

/-- The list with each element that satisfies `p` changed by `f`. -/
def mapIf {α : Type} (p : α → Bool) (f : α → α) (l : List α) : List α := l.map fun x => if p x then f x else x

/-- A die by its number. -/
def State.die (s : State) (d : Nat) : Die := if d = 0 then s.die0 else s.die1
/-- The group with an identifier. -/
def State.group? (s : State) (u : Nat) : Option Group := s.groups.find? fun g => g.uid == u
/-- The state with a group replaced. -/
def State.setGroup (s : State) (g : Group) : State := { s with groups := mapIf (fun x => x.uid == g.uid) (fun _ => g) s.groups }
/-- The state with a group changed. -/
def State.modGroup (s : State) (u : Nat) (f : Group → Group) : State := { s with groups := mapIf (fun x => x.uid == u) f s.groups }
/-- The team with an identifier. -/
def State.team? (s : State) (u : Nat) : Option Team := s.teams.find? fun t => t.uid == u
/-- The state with a team changed. -/
def State.modTeam (s : State) (u : Nat) (f : Team → Team) : State := { s with teams := mapIf (fun x => x.uid == u) f s.teams }
/-- The launch with an identifier. -/
def State.launch? (s : State) (u : Nat) : Option Launch := s.launches.find? fun t => t.uid == u
/-- The state with a launch changed. -/
def State.modLaunch (s : State) (u : Nat) (f : Launch → Launch) : State := { s with launches := mapIf (fun x => x.uid == u) f s.launches }
/-- The live context with an ASID. -/
def State.ctx? (s : State) (asid : Nat) : Option Context := s.contexts.find? fun c => c.asid == asid
/-- The state with a context changed. -/
def State.modCtx (s : State) (asid : Nat) (f : Context → Context) : State := { s with contexts := mapIf (fun c => c.asid == asid) f s.contexts }
/-- The operation in flight with an identifier. -/
def State.op? (s : State) (id : Nat) : Option Op := s.ops.find? fun o => o.id == id
/-- The state with an operation changed. -/
def State.modOp (s : State) (id : Nat) (f : Op → Op) : State := { s with ops := mapIf (fun o => o.id == id) f s.ops }
/-- The state with the part of one lane of an operation changed. -/
def State.modPart (s : State) (id lane : Nat) (f : Part → Part) : State :=
  s.modOp id fun o => { o with parts := mapIf (fun p => p.lane == lane) f o.parts }
/-- The gather with an identifier. -/
def State.gather? (s : State) (id : Nat) : Option Gather := s.gathers.find? fun g => g.id == id
/-- The state with a gather changed. -/
def State.modGather (s : State) (id : Nat) (f : Gather → Gather) : State := { s with gathers := mapIf (fun o => o.id == id) f s.gathers }
/-- A fresh identifier. -/
def State.bump (s : State) : State := { s with nextId := s.nextId + 1 }

/-- The thread of a lane. -/
def Group.thread (g : Group) (lane : Nat) : Thread := g.threads.getD lane {}
/-- The group with the thread of a lane replaced. -/
def Group.setThread (g : Group) (lane : Nat) (t : Thread) : Group := { g with threads := g.threads.set lane t }
/-- The content of a scalar register. -/
def Group.sget (g : Group) (n : Nat) : Word := g.s.getD n 0#32
/-- The group with a scalar register written; a pending result for it is discarded (R122). -/
def Group.sset (g : Group) (n : Nat) (x : Word) : Group := { g with s := g.s.set n x, spend := g.spend.filter fun p => p.sd != n }
/-- A 64-bit scalar pair, low word first (R82). -/
def Group.spair (g : Group) (n : Nat) : Nat := (g.sget n).toNat + 2 ^ 32 * (g.sget (n + 1)).toNat
/-- The content of a uniform predicate. -/
def Group.qget (g : Group) (n : Nat) : Bool := g.q.getLsbD n
/-- The group with a uniform predicate written. -/
def Group.qset (g : Group) (n : Nat) (b : Bool) : Group :=
  { g with q := if b then g.q ||| (1#4 <<< n) else g.q &&& ~~~(1#4 <<< n) }
/-- A token register. -/
def Group.token (g : Group) (n : Nat) : Token := g.k.getD n {}
/-- The group with a token register written. -/
def Group.setToken (g : Group) (n : Nat) (t : Token) : Group := { g with k := g.k.set n t }

/-- The content of a vector register. -/
def Thread.vget (t : Thread) (n : Nat) : Word := t.v.getD n 0#32
/-- Pending results for a register are discarded by a later write of it (R121); their flags stay (R160). -/
def discardPend (d : Dest) (ps : List Pending) : List Pending := mapIf (fun p => p.dest == d) (fun p => { p with dest := .none }) ps
/-- The thread with a vector register written at once: a short-class write (R121). -/
def Thread.vset (t : Thread) (n : Nat) (x : Word) : Thread := { t with v := t.v.set n x, pend := discardPend (.v n) t.pend }
/-- A 64-bit vector pair, low word first (R82). -/
def Thread.vpair (t : Thread) (n : Nat) : Nat := (t.vget n).toNat + 2 ^ 32 * (t.vget (n + 1)).toNat
/-- A run of vector registers as bytes, low word first. -/
def Thread.vbytes (t : Thread) (n : Nat) : Nat → Bytes
  | 0 => []
  | k + 1 => natLe 4 (t.vget n).toNat ++ t.vbytes (n + 1) k
/-- The content of a lane predicate. -/
def Thread.pget (t : Thread) (n : Nat) : Bool := t.p.getLsbD n
/-- The predicates with one bit written. -/
def setBit8 (p : BitVec 8) (n : Nat) (b : Bool) : BitVec 8 := if b then p ||| (1#8 <<< n) else p &&& ~~~(1#8 <<< n)
/-- The thread with a lane predicate written at once (R121). -/
def Thread.pset (t : Thread) (n : Nat) (b : Bool) : Thread := { t with p := setBit8 t.p n b, pend := discardPend (.p n) t.pend }

/-- The image of a launch. -/
def State.launchImage (s : State) (l : Nat) : Image := match s.launch? l with
  | some y => y.img
  | none => {}
/-- The image of a team: what it read as it was placed (R23). -/
def State.teamImage (s : State) (t : Team) : Image := t.img.getD (s.launchImage t.launch)
/-- The image of a group: its team's. -/
def State.groupCode (s : State) (g : Group) : Image := match (s.team? g.team).bind fun t => t.img with
  | some i => i
  | none => s.launchImage g.launch
/-- The vector register budget of a role of an image (R18). -/
def Image.budget (img : Image) (role : Nat) : Nat := match img.roles[role]? with
  | some r => r.vbud * 8
  | none => 128
/-- The vector register budget of a group. -/
def State.budget (s : State) (g : Group) : Nat := (s.groupCode g).budget g.role

/-! ## The device-local store: HBM and the on-chip windows (R46, R74) -/

/-- The group that stands in a slot of a core. -/
def State.slotGroup? (s : State) (core part slot : Nat) : Option Group :=
  s.groups.find? fun g => g.resident && !g.finished && g.core == core && g.part == part && g.slot == slot

/-- The byte at a device-local address: a vector register byte of a resident group in a core's window, else memory. -/
def State.localByte (s : State) (pa : Nat) : Byte :=
  if winBase ≤ pa ∧ pa < winEnd ∧ (pa - winBase) % 0x400000 < 0x200000 then
    let o := (pa - winBase) % 0x400000
    match s.slotGroup? ((pa - winBase) / 0x400000) (o / 0x20000) (o % 0x20000 / 0x4000) with
    | some g => ((g.thread (o % 0x80 / 4)).vget (o % 0x4000 / 0x80)).extractLsb' (8 * (o % 4)) 8
    | none => 0#8
  else memGet s.mem pa

/-- Bytes at a device-local address. -/
def State.localBytes (s : State) (pa : Nat) : Nat → Bytes
  | 0 => []
  | n + 1 => s.localByte pa :: s.localBytes (pa + 1) n

/-- A word with one byte replaced. -/
def wordByte (w : Word) (i : Nat) (b : Byte) : Word :=
  BitVec.ofNat 32 (w.toNat - bitsOf w.toNat (8 * i) 8 * 2 ^ (8 * i) + b.toNat * 2 ^ (8 * i))

/-- The state with a byte written at a device-local address. -/
def State.putLocalByte (s : State) (pa : Nat) (b : Byte) : State :=
  if winBase ≤ pa ∧ pa < winEnd ∧ (pa - winBase) % 0x400000 < 0x200000 then
    let o := (pa - winBase) % 0x400000
    match s.slotGroup? ((pa - winBase) / 0x400000) (o / 0x20000) (o % 0x20000 / 0x4000) with
    | some g =>
      let t := g.thread (o % 0x80 / 4)
      let n := o % 0x4000 / 0x80
      s.setGroup (g.setThread (o % 0x80 / 4) { t with v := t.v.set n (wordByte (t.vget n) (o % 4) b) })
    | none => s
  else { s with mem := memPut s.mem pa b }

/-- The state with bytes written at a device-local address. -/
def State.putLocal (s : State) (pa : Nat) : Bytes → State
  | [] => s
  | b :: bs => (s.putLocalByte pa b).putLocal (pa + 1) bs

/-- The home slice of an address on its device (R188). -/
def homeSlice (pa : Nat) : Nat :=
  let x := bitsOf pa 10 36
  (if pa < 0x006000000000 then 0 else 96) + Nat.xor (Nat.xor (bitsOf x 0 12) (bitsOf x 12 12)) (bitsOf x 24 12) % 96

/-- The superblock of a line: four L2 lines under one tag (R9). -/
def superblock (pa : Nat) : Nat := pa / 1024

/-- Do two lines compete for the ways of one set of one slice? -/
def l2Rivals (a b : Nat) : Bool := homeSlice a == homeSlice b && Config.l2Set (superblock a) % 128 == Config.l2Set (superblock b) % 128

/-- The way in which a line stands, or is allocated: that of its superblock when that is present, else a free choice among the ways of its slice that are not
disabled (R398). -/
def State.wayOf (s : State) (line : Nat) : Nat :=
  match s.l2.find? fun x => superblock x.pa == superblock line with
  | some x => x.way
  | none =>
    let open_ := (List.range 16).filter fun w => !s.ways.contains (homeSlice line, w)
    open_.getD (Config.l2Way (superblock line) s.free % open_.length) 0

/-- The tag of an L2 line set: its latest write's owner (R395). A superblock that stood in the way that the line's takes is written back to HBM. -/
def State.tagLine (s : State) (line tag : Nat) : State :=
  let w := s.wayOf line
  let stays := fun (x : L2Line) => x.pa != line && (superblock x.pa == superblock line || !l2Rivals x.pa line || x.way != w)
  { s with l2 := { pa := line, tag := tag, way := w } :: s.l2.filter stays, free := s.free + 1 }

/-- The tags of `n` lines set, from one on. -/
def State.tagLines (s : State) (line tag : Nat) : Nat → State
  | 0 => s
  | n + 1 => (s.tagLines line tag n).tagLine (line + 256 * n) tag

/-- The tags of the lines that an extent of bytes touches set. -/
def State.tagExtent (s : State) (tag pa n : Nat) : State := s.tagLines (pa / 256 * 256) tag ((pa + n - 1) / 256 - pa / 256 + 1)

/-- Is a byte of an extent in a lost line of L2 or HBM (R397)? -/
def State.lostIn (s : State) (pa n : Nat) : Bool := s.lost.any fun l => decide (pa < l + 256 ∧ l < pa + n)

/-- A write of bytes at their home L2 slice (R186), by the owner a tag names (R395). -/
def State.homeWrite (s : State) (tag pa : Nat) (bs : Bytes) : State :=
  match bs with
  | [] => s
  | _ => if pa < hbmEnd then State.tagExtent { s with mem := putBytes s.mem pa bs } tag pa bs.length
    else s.putLocal pa bs

/-- The cluster-cache line of a cluster that holds an address. -/
def State.ccLine? (s : State) (clu pa : Nat) : Option CCLine := s.cc.find? fun l => l.clu == clu && l.pa == pa / 256 * 256

/-- The dirty runs of a line written home, byte by byte. -/
def writeDirty (m : Memory) (pa : Nat) : Bytes → List Bool → Memory
  | b :: bs, d :: ds => writeDirty (if d then memPut m pa b else m) (pa + 1) bs ds
  | _, _ => m

/-- A cluster's line written back to its home; the copy stays, clean (R186). -/
def State.writeBack (s : State) (clu pa : Nat) : State :=
  match s.ccLine? clu pa with
  | none => s
  | some l =>
    if l.dirty.any id then
      State.tagLine { s with mem := writeDirty s.mem l.pa l.data l.dirty
                             cc := mapIf (fun x => x.clu == clu && x.pa == l.pa) (fun x => { x with dirty := x.dirty.map fun _ => false }) s.cc } l.pa l.asid
    else s

/-- Every line of a cluster written back. -/
def State.writeBackAll (s : State) (clu : Nat) : State :=
  (s.cc.filter fun l => l.clu == clu).foldl (fun s l => s.writeBack clu l.pa) s

/-- A cluster's line written back and removed, and every L1 copy of it in the cluster (R198, R210). -/
def State.dropLine (s : State) (clu pa : Nat) : State :=
  let s := s.writeBack clu pa
  { s with cc := s.cc.filter fun l => !(l.clu == clu && l.pa == pa / 256 * 256)
           l1 := s.l1.filter fun l => !(clusterOf l.core == clu && l.pa / 256 == pa / 256) }

/-- The lines that an extent touches, dropped in a cluster. -/
def State.dropExtent (s : State) (clu pa n : Nat) : State :=
  (List.range ((pa + n - 1) / 256 - pa / 256 + 1)).foldl (fun s i => s.dropLine clu ((pa / 256 + i) * 256)) s

/-- What a release at a scope performs for the stores that left the queue: at `die` and wider, every dirty line of the cluster goes home (R362). -/
def State.release (s : State) (clu : Nat) (scope : Nat) : State := if scope ≥ 4 then s.writeBackAll clu else s

/-- What an acquire at a scope discards (R362): at `clu` the core's L1 lines; at `die` and wider every line of the cluster, dirty bytes written back. -/
def State.acquire (s : State) (core : Nat) (scope : Nat) : State :=
  if scope ≥ 4 then
    let clu := clusterOf core
    let s := s.writeBackAll clu
    { s with cc := s.cc.filter fun l => l.clu != clu
             l1 := s.l1.filter fun l => clusterOf l.core != clu }
  else if scope = 3 then { s with l1 := s.l1.filter fun l => l.core != core }
  else s

/-- The scope of a code, 0 meaning `dev` (R87, R199). -/
def scopeOf (code : Nat) : Nat := if code = 0 then 5 else code

/-! ## Counters, mailbox, event log, interrupts -/

/-- The cycle that the device stands in, by the clocks of its two dies. -/
def State.clockStamp (s : State) : Nat := s.die0.cycles + s.die1.cycles

/-- A counter with `n` more events of a cycle, its value before them kept (R415, R417). -/
def Counter.add (c : Counter) (stamp n : Nat) : Counter :=
  { c with val := (c.val + n) % 2 ^ 48, base := if c.stamp = some stamp then c.base else c.val, stamp := some stamp }

/-- The value of a counter before any event of a cycle (R417). -/
def Counter.before (c : Counter) (stamp : Nat) : Nat := if c.stamp = some stamp then c.base else c.val

/-- An event counted (R415, R416): `core` 0xFFFF names the device counters. -/
def State.count (s : State) (core asid team event n : Nat) : State :=
  let hit := fun (c : Counter) => c.core == core && c.on && c.event == event && (c.mode == 1 || (c.mode == 2 && c.casid == asid)) &&
    (match c.own with | some t => t == team | none => true)
  { s with counters := mapIf hit (fun c => c.add s.clockStamp n) s.counters }

/-- An occasion for a placement decision of every distributor (R70). -/
def State.wantPlacement (s : State) : State := { s with dists := s.dists.map fun (d : Distributor) => { d with wanted := d.wanted + 1 } }

/-- The answer to a read of bytes on another device or in the host: its data, or the cause of its failure. One of a launch's image is an occasion for a
placement decision, since a team of the launch waits for it (R23, R70). -/
def State.gotRead (s : State) (u key : Nat) (data : Option Bytes) (cause : BitVec 8) : State :=
  let s := { s with barReads := mapIf (fun b => b.1 == u && b.2.1 == key) (fun b => (b.1, b.2.1, data, cause)) s.barReads }
  if s.launches.any fun l => l.uid == u then s.wantPlacement else s

/-- A number in the mailbox area of BAR0. -/
def State.box (s : State) (off n : Nat) : Nat := getLe s.mbox off n

/-- The state with a number written in the mailbox area. -/
def State.putBox (s : State) (off n x : Nat) : State := { s with mbox := putBytes s.mbox off (natLe n x) }

/-- An MSI-X message of a vector: sent, or pending while masked (R39). -/
def State.msix (s : State) (vec : Nat) : State :=
  if s.msixOpen.contains vec then { s with hostOut := s.hostOut ++ [.msix vec] }
  else { s with msixPend := if s.msixPend.contains vec then s.msixPend else s.msixPend ++ [vec] }

/-- An event-log entry (R408, R413). -/
def State.logEvent (s : State) (code asid : Nat) (data : Bytes) : State :=
  let n := s.box 0x2010 4
  let e := natLe 8 s.timeNs ++ natLe 2 code ++ natLe 2 asid ++ natLe 4 0 ++ sliceBytes data 0 16
  let s := { s with mbox := putBytes s.mbox (0x50000 + 32 * (n % 4096)) e }
  s.putBox 0x2010 4 ((n + 1) % 2 ^ 32)

/-- Replies and messages move to the reply ring while it has room (R408). -/
def postReplies : Nat → State → State
  | 0, s => s
  | fuel + 1, s =>
    match s.replies with
    | [] => s
    | e :: rest =>
      let rpp := s.box 0x2008 4
      if (rpp + 2 ^ 32 - s.box 0x200C 4) % 2 ^ 32 < 1024 then
        let s := { s with mbox := putBytes s.mbox (0x30000 + 128 * (rpp % 1024)) (sliceBytes e 0 128), replies := rest }
        let s := s.putBox 0x2008 4 ((rpp + 1) % 2 ^ 32)
        postReplies fuel (s.msix (s.box 0x1002 2))
      else s

/-- A reply or message posted (R409). -/
def State.post (s : State) (opc status seq asid : Nat) (payload : Bytes) : State :=
  postReplies (s.replies.length + 1)
    { s with replies := s.replies ++ [natLe 2 opc ++ natLe 2 status ++ natLe 4 seq ++ natLe 2 asid ++ natLe 6 0 ++ sliceBytes payload 0 112] }

/-! ## Rights, windows and the page-table walk (R48 to R51, R75, R266) -/

/-- The rights an access needs. -/
structure Rights where
  rd : Bool := false
  wr : Bool := false
  ex : Bool := false
  deriving DecidableEq, Repr

/-- Rights as a number: 1 RD, 2 WR, 4 EX. -/
def Rights.code (n : Rights) : Nat := (if n.rd then 1 else 0) + (if n.wr then 2 else 0) + (if n.ex then 4 else 0)
/-- The rights that a number names. -/
def rightsOf (n : Nat) : Rights := { rd := n.testBit 0, wr := n.testBit 1, ex := n.testBit 2 }

/-- Loads need RD. -/
def rightsRd : Rights := { rd := true }
/-- Stores need WR. -/
def rightsWr : Rights := { wr := true }
/-- Atomics need RD and WR. -/
def rightsRdWr : Rights := { rd := true, wr := true }
/-- Instruction fetch needs EX. -/
def rightsEx : Rights := { ex := true }

/-- The first virtual address of the core windows (R75). -/
def windowVa : Nat := 0x01FFFF0000000000
/-- The root entry that Ochre owns covers the addresses from here (R75). -/
def ochreVa : Nat := 0x01FFF80000000000
/-- The trap-frame window (R369). -/
def frameVa : Nat := 0x01FFFE0000000000

/-- The resident teams of a context on a core. -/
def State.teamsOn (s : State) (asid core : Nat) : List Team :=
  s.teams.filter fun t => t.core == core && t.phase == .resident && (match s.launch? t.launch with
    | some l => l.asid == asid
    | none => false)

/-- Is a device-local address one that a page may map (R45, R46)? -/
def localMapped (a : Nat) : Bool := decide (a < hbmEnd ∨ winBase ≤ a ∧ a < winEnd ∨ hostBase ≤ a ∧ a < hostEnd)

/-- Is a page word valid (R263)? -/
def pwValid (w : Nat) : Bool :=
  bitsOf w 56 8 == 0x4B && bitsOf w 50 6 == 0 && bitsOf w 48 2 != 3 && bitsOf w 32 12 == 0 &&
  (bitsOf w 44 4 == 3 || (bitsOf w 44 4 == 7 && bitsOf w 48 2 == 1)) && (bitOf w 0 == (bitsOf w 48 2 == 2))

/-- The STATE of a page word: 0 OPEN, 1 SEALED, 2 CONVERTING. -/
def pwState (w : Nat) : Nat := bitsOf w 48 2
/-- The FMT of a page word. -/
def pwFmt (w : Nat) : Nat := bitsOf w 44 4
/-- The VER of a page word. -/
def pwVer (w : Nat) : Nat := bitsOf w 0 32

/-- The translation that a valid leaf gives (R50, R266). A page in the upper half whose page word is invalid keeps its half, with 64 KiB (log entry 197). -/
def leafEntry (s : State) (asid va e shift : Nat) : Tlb :=
  let dev := bitsOf e 46 10
  let frame := bitsOf e 16 30 * 65536
  let kv := bitOf e 11
  let own := dev == s.devid
  let pair := getLe s.mem (frame + 0x18) 8
  let half := if kv && own && bitOf pair 63 && bitsOf pair 0 41 == bitsOf va 16 41 then 1 else 0
  let base := frame + half * 0x8000
  let pw := getLe s.mem base 8
  { unit := 0, asid := asid, va := va / 2 ^ shift * 2 ^ shift, span := 2 ^ shift, dev := dev, pa := if kv then base else frame
    rd := bitOf e 3, wr := bitOf e 4, ex := bitOf e 5, a := bitOf e 6, d := bitOf e 7, kv := kv, mig := bitOf e 10, mt := bitsOf e 8 2
    ext := if kv && own && pwValid pw && pwFmt pw == 7 then 0x8000 else 2 ^ shift
    opn := !(kv && own && pwValid pw && pwState pw != 0) }

/-- Is a leaf one that a walk may end at (R50, R51)? -/
def leafOk (s : State) (e level : Nat) : Bool :=
  bitsOf e 56 4 == 0 && bitsOf e 12 4 == 0 && !bitOf e 2 && (level != 2 || bitsOf e 16 5 == 0) && (level != 3 || bitsOf e 16 14 == 0) &&
  level != 4 && (!bitOf e 11 || level == 1) && bitsOf e 8 2 != 3 && (bitsOf e 8 2 == 0 || bitsOf e 46 10 == s.devid) &&
  decide (bitsOf e 46 10 ≤ 992) && localMapped (bitsOf e 16 30 * 65536)

/-- The shift and index width of a level, and the alignment of the table below it (R48). -/
def levelShape (level : Nat) : Nat × Nat × Nat :=
  match level with
  | 4 => (43, 14, 65536)
  | 3 => (30, 13, 4096)
  | 2 => (21, 9, 256)
  | _ => (16, 5, 1)

/-- The extents of this device that an entry of a level maps by leaves of a kind: a leaf's own, or those of the leaves below it. -/
def mappedBy (s : State) (keep : Nat → Bool) : Nat → Nat → List (Nat × Nat)
  | 0, _ => []
  | level + 1, e =>
    let (shift, _, _) := levelShape (level + 1)
    if !bitOf e 0 then []
    else if bitOf e 1 then (if keep e && bitsOf e 46 10 == s.devid then [(bitsOf e 16 30 * 65536, 2 ^ shift)] else [])
    else
      let table := bitsOf e 8 38 * 256
      let (_, w, _) := levelShape level
      (s.mem.filter fun c => decide (table ≤ c.1 ∧ c.1 < table + 8 * 2 ^ w) && c.1 % 8 == 0).flatMap fun c => mappedBy s keep level (getLe s.mem c.1 8)

/-- The extents of this device that a context's page table maps by leaves of a kind. -/
def Context.maps (c : Context) (s : State) (keep : Nat → Bool) : List (Nat × Nat) := mappedBy s keep 5 (c.root % 2 ^ 46 / 256 * 2 ^ 8 + 1)

/-- The place of the entries that Ochre keeps for the windows: none of memory. -/
def noEntry : Nat := hbmEnd

/-- How a walk ends: at a leaf, whose place is kept for the atomics on it; at an entry with V = 0; or in another translation fault. -/
inductive Walk where
  | leaf (t : Tlb) (entry : Nat)
  | invalid
  | fault
  deriving DecidableEq, Repr

/-- The walk from a table of a level down (R48 to R51). -/
def walkFrom (s : State) (asid va : Nat) : Nat → Nat → Walk
  | 0, _ => .fault
  | level + 1, table =>
    let (shift, w, al) := levelShape (level + 1)
    let at_ := table + 8 * bitsOf va shift w
    let e := getLe s.mem at_ 8
    if !bitOf e 0 then .invalid
    else if bitOf e 1 then
      if leafOk s e (level + 1) then .leaf (leafEntry s asid va e shift) at_ else .fault
    else if level = 0 then .fault
    else
      let next := bitsOf e 8 38 * 256
      if bitsOf e 56 8 == 0 && bitsOf e 2 6 == 0 && bitsOf e 46 10 == s.devid && next % al == 0 && decide (next < hbmEnd) then
        walkFrom s asid va level next
      else .fault

/-- The translation of a window address that Ochre maps while a team of the context stands on the core (R75). -/
def windowEntry (s : State) (asid va : Nat) : Walk :=
  if va < windowVa ∨ windowVa + 192 * 0x400000 ≤ va then .invalid
  else if (s.teamsOn asid ((va - windowVa) / 0x400000)).isEmpty then .invalid
  else
    let base := va / 0x200000 * 0x200000
    .leaf { unit := 0, asid := asid, va := base, span := 0x200000, dev := s.devid, pa := winBase + (base - windowVa), rd := true, wr := true,
            ex := false, a := true, d := true, kv := false, mig := false, mt := 1, ext := 0x200000 } noEntry

/-- The walk of a context's page table (R48); the root entry that Ochre owns gives the windows. -/
def State.walk (s : State) (asid va : Nat) : Walk :=
  match s.ctx? asid with
  | none => .fault
  | some c => if ochreVa ≤ va then windowEntry s asid va else walkFrom s asid va 4 (c.root % 2 ^ 46)

/-- Has the entry the rights (R51)? -/
def Tlb.gives (t : Tlb) (n : Rights) : Bool := (!n.rd || t.rd) && (!n.wr || t.wr) && (!n.ex || t.ex)

/-- The device-local address that an entry gives a virtual one. -/
def Tlb.addr (t : Tlb) (va : Nat) : Nat := t.pa + (va - t.va)

/-- The physical target of an address under an entry (R45, R46, R187, R268). -/
def State.target (s : State) (t : Tlb) (va : Nat) : Phys :=
  let pa := t.addr va
  if t.dev != s.devid then .remote t.dev pa
  else if t.kv && decide (t.ext ≤ va - t.va) then .zero
  else if hostBase ≤ pa then .host pa
  else if t.mt == 1 || decide (hbmEnd ≤ pa) then .window pa
  else .home pa

/-- A translation outside the TLBs, as engines, the distributor and Ochre use it: the leaf when its walk ends at one with the rights. -/
def State.xlate (s : State) (asid va : Nat) (n : Rights) : Option Tlb :=
  match s.walk asid va with
  | .leaf t _ => if t.gives n && localMapped (t.addr va) then some t else none
  | _ => none

/-! ## Packets out (R284 to R302) -/

/-- The virtual channel of a packet type (R286). -/
def vcOf (ty : Nat) : Nat :=
  match ty with
  | 1 => 0 | 2 => 0 | 3 => 0
  | 4 => 1 | 5 => 1 | 6 => 1 | 7 => 1 | 8 => 1
  | 9 => 2 | 10 => 3 | 11 => 4
  | _ => 5

/-- The entry of the routing table for a device (R291). -/
def State.routeEntry (s : State) (dev : Nat) : Nat := match s.routes.find? fun r => r.1 == dev with
  | some r => r.2.toNat
  | none => 0

/-- The beats queued at a port for a channel. -/
def State.occupancy (s : State) (port vc : Nat) : Nat := match s.ports.find? fun p => p.idx == port with
  | some p => ((p.occ.find? fun o => o.1 == vc).map (·.2)).getD 0
  | none => 0

/-- The port of an entry's minimal path, when it is valid. -/
def minPort (e : Nat) : Option Nat := if bitOf e 63 then some (bitsOf e 58 5) else none

/-- The intermediate with the least occupancy of its first port, lowest index on a tie, other than one to avoid (R292). -/
def State.pickVia (s : State) (vc : Nat) (vias : List Nat) : Option Nat :=
  vias.foldl (fun best v => match best with
    | none => some v
    | some b =>
      let occ := fun x => s.occupancy (bitsOf (s.routeEntry x) 58 5) vc
      if occ v < occ b then some v else best) none

/-- The intermediates in use of an entry. -/
def viasOf (e : Nat) : List Nat := (List.range (bitsOf e 55 3)).map fun i => bitsOf e (10 * i) 10

/-- The path chosen at injection (R292): NM and VIA, or none when there is no path; a re-send prefers an intermediate other than its last. -/
def State.inject (s : State) (dst vc : Nat) (resend : Option Nat) : Option (Bool × Nat) :=
  let e := s.routeEntry dst
  let vias := viasOf e
  match resend with
  | some last =>
    if vias.isEmpty then (if (minPort e).isSome then some (false, 0) else none)
    else
      let others := if vias.length = 1 then vias else vias.filter fun v => v != last
      (s.pickVia vc others).map fun v => (true, v)
  | none =>
    match minPort e with
    | some p => if s.occupancy p vc ≤ s.adth then some (false, 0)
      else match s.pickVia vc vias with
        | some v => some (true, v)
        | none => some (false, 0)
    | none => (s.pickVia vc vias).map fun v => (true, v)

/-- The first 16 bytes of a packet's header (R285). -/
def headerBytes16 (p : Packet) : Bytes :=
  [p.ty, p.vc, p.rf, p.cf] ++ natLe 2 p.src.toNat ++ natLe 2 p.dst.toNat ++ natLe 2 p.via.toNat ++ natLe 2 p.sasid.toNat ++ natLe 4 p.txid.toNat

/-- The beats of a packet (R284). -/
def beatsOf (p : Packet) : Nat := (p.data.length + 32 + (if bitOf p.cf.toNat 0 then 16 else 0) + 63) / 64

/-- The context of this device that a packet belongs to, for its counters: the sender's of a request from here, and of an answer to one; 0x200, none, for a
packet of another device (R415; log entry 193). -/
def State.packetAsid (s : State) (p : Packet) : Nat :=
  let answer := decide (4 ≤ p.ty.toNat ∧ p.ty.toNat ≤ 8)
  if p.src.toNat == s.devid && !answer then p.sasid.toNat
  else if answer then ((s.rtx.find? fun r => r.pkt.txid == p.txid && p.dst.toNat == s.devid).map (·.asid)).getD 0x200
  else 0x200

/-- A device event counted for the context of its packet (R415, R416). -/
def State.countPacket (s : State) (p : Packet) (event n : Nat) : State := s.count 0xFFFF (s.packetAsid p) 0 event n

/-- A packet dropped by this router: logged and counted (R286, R292, R296, R413). -/
def State.dropPacket (s : State) (p : Packet) : State := (s.logEvent 0x0002 0xFFFF (headerBytes16 p)).countPacket p 0x107 1

/-- A finder word (R285, R311). -/
def finder (dev point step kind : Nat) : Nat := dev + point * 2 ^ 10 + step * 2 ^ 16 + kind * 2 ^ 24

/-- Is a chunk bad? -/
def chunkBad (p : Packet) : Bool := bitOf p.cf.toNat 1

/-- A chunk marked bad, with its finder word (R309). -/
def markBad (p : Packet) (f : Nat) : Packet := { p with cf := p.cf ||| 2#8, sqf := BitVec.ofNat 32 f }

/-- Is a chunk due for verification at a checkpoint, and does it fail there (R308, R309)? -/
def checkFails (p : Packet) : Bool :=
  p.ty == 9#8 && bitOf p.cf.toNat 0 && !chunkBad p && chunkCheck p.fmt.toNat p.data != (p.chkS.toNat, p.chkA.toNat)

/-- A byte sequence with one bit turned over. -/
def flipBit (bs : Bytes) (i : Nat) : Bytes := bs.zipIdx.map fun (b, j) => if j = i / 8 then b ^^^ BitVec.ofNat 8 (2 ^ (i % 8)) else b

/-- A chunk on this device's internal path, where a soft error that is due strikes it, to the egress at its end, where its check is verified (R309, R311). -/
def State.egress (s : State) (p : Packet) : State × Packet :=
  if p.ty ≠ 9#8 then (s, p)
  else
    let q := match s.upset with
      | some i => { p with data := flipBit p.data i }
      | none => p
    let s := { s with upset := none }
    if checkFails q then (s.countPacket q 0x105 1, markBad q (finder s.devid 62 (if bitOf q.cf.toNat 2 then 1 else 0) 2)) else (s, q)

/-- A packet sent on a port (R284, R309, R416); until the port is in service only a hello travels (R288), and any other is lost there. -/
def State.emitOn (s : State) (port : Nat) (p : Packet) : State :=
  if (s.ports.any fun x => x.idx == port && x.up) || (p.ty == 12#8 && p.aux == 1#16) then
    let (s, p) := s.egress p
    State.countPacket { s with outPkts := s.outPkts ++ [(port, p)] } p 0x100 (beatsOf p)
  else s.dropPacket p

/-- The packet with NM cleared at its intermediate (R292). -/
def pastVia (s : State) (p : Packet) : Packet := if bitOf p.rf.toNat 2 && p.via.toNat == s.devid then { p with rf := p.rf &&& ~~~4#8 } else p

/-- The device that a packet makes for at this router. -/
def targetOf (s : State) (p : Packet) : Nat :=
  let q := pastVia s p
  if bitOf q.rf.toNat 2 then q.via.toNat else q.dst.toNat

/-- A packet put on the wire at this router (R292): the port its target's entry names; dropped when there is none. -/
def State.emit (s : State) (p : Packet) : State :=
  match minPort (s.routeEntry (targetOf s p)) with
  | some port => s.emitOn port (pastVia s p)
  | none => s.dropPacket p

/-- A packet with the path chosen for it at injection (R292). -/
def onPath (p : Packet) (nm : Bool) (via : Nat) : Packet :=
  { p with vc := BitVec.ofNat 8 (vcOf p.ty.toNat), rf := if nm then p.rf ||| 4#8 else p.rf &&& ~~~4#8, via := BitVec.ofNat 16 via }

/-- A packet injected by this device (R292). False when no path exists and nothing is sent. -/
def State.send (s : State) (p : Packet) (resend : Option Nat) : State × Bool :=
  match s.inject p.dst.toNat (vcOf p.ty.toNat) resend with
  | none => (s, false)
  | some (nm, via) => (s.emit (onPath p nm via), true)

/-- The entry of the multicast table for a group (R296). -/
def State.mcastEntry (s : State) (group : Nat) : Nat := match s.mcast.find? fun r => r.1 == group with
  | some r => r.2.toNat
  | none => 0

/-- Is a request an atomic: an ATOM, or the FLAG of a release atomic (R304, R306)? -/
def atomicReq (p : Packet) : Bool := p.ty == 3#8 || (p.ty == 11#8 && fieldLe p.data 8 1 == 2)

/-- The last byte that a request reads or writes; an atomic's is within its unit. -/
def lastByte (p : Packet) : Nat := if atomicReq p then p.addr.toNat else p.addr.toNat + (p.len.toNat - 1)

/-- Does a request of this device wait for an earlier unanswered WR or atomic to an aligned 64-byte unit of its own (R300)? The FLAG of a release atomic
counts as the ATOM in whose place it goes, since the threads of one issue are performed as one sequence, in lane order (R208; log entry 192). -/
def unitBusy (rtx : List Req) (p : Packet) : Bool :=
  (p.ty == 1#8 || p.ty == 2#8 || atomicReq p) &&
  rtx.any fun r => (r.pkt.ty == 2#8 || atomicReq r.pkt) && r.pkt.dst == p.dst &&
    decide (r.pkt.addr.toNat / 64 ≤ lastByte p / 64 ∧ p.addr.toNat / 64 ≤ lastByte r.pkt / 64)

/-- The retransmit buffer's entries (R298). -/
def rtxMax : Nat := 32768

/-- Has the buffer room for some requests? -/
def State.rtxRoom (s : State) (n : Nat) : Bool := decide (s.rtx.length + n ≤ rtxMax)

/-- A request entered in the retransmit buffer and sent, or held there with no send counted: under R300, or while the device may send none yet after a
reset (R298, R300, R305). The result says whether a path exists. -/
def State.request (s : State) (p : Packet) (owner : ReqFor) (asid grp : Nat) : State × Bool :=
  let p := { p with src := BitVec.ofNat 16 s.devid, txid := BitVec.ofNat 32 s.nextId, sasid := BitVec.ofNat 16 asid }
  match s.inject p.dst.toNat (vcOf p.ty.toNat) none with
  | none => (s.bump, false)
  | some (nm, via) =>
    let p := onPath p nm via
    if unitBusy s.rtx p || !s.fabricOpen then
      ({ s.bump with rtx := s.rtx ++ [{ pkt := p, sends := 0, sentAt := s.timeNs, owner, asid, grp }] }, true)
    else (State.emit { s.bump with rtx := s.rtx ++ [{ pkt := p, sentAt := s.timeNs, owner, asid, grp }] } p, true)

/-- A request of the buffer sent once more by a path (R292, R302). -/
def State.sendReq (s : State) (r : Req) (nm : Bool) (via : Nat) : State :=
  let p := onPath r.pkt nm via
  State.emit { s with rtx := mapIf (fun x => x.pkt.txid == p.txid) (fun x => { x with pkt := p, sends := x.sends + 1, sentAt := s.timeNs }) s.rtx } p

/-- Held requests whose unit is free are sent, in order (R300). -/
def sendHeld : List Req → List Req → State → State
  | _, [], s => s
  | before, r :: rest, s =>
    if r.sends == 0 && !unitBusy before r.pkt then
      match s.inject r.pkt.dst.toNat (vcOf r.pkt.ty.toNat) none with
      | some (nm, via) => sendHeld (before ++ [r]) rest (s.sendReq r nm via)
      | none => sendHeld (before ++ [r]) rest s
    else sendHeld (before ++ [r]) rest s

/-- Is a packet the request of a source piece, which a CHUNK answers (R307; log entry 63)? -/
def sourceAsk (p : Packet) : Bool := p.ty == 1#8 && bitOf p.cf.toNat 0

/-- The requests of source pieces that end, as the completion cache keeps them (log entry 63): a CHUNK that answers one of them again is known by it. -/
def sourcesDone (s : State) (txid : Word) : List (Nat × Nat × Packet × Nat) :=
  (s.rtx.filter fun r => r.pkt.txid == txid && sourceAsk r.pkt).map fun r => (r.pkt.dst.toNat, txid.toNat, r.pkt, s.timeNs)

/-- A request leaves the retransmit buffer, and those it held are sent. -/
def State.answered (s : State) (txid : Word) : State :=
  let s := { s with rtx := s.rtx.filter fun r => r.pkt.txid != txid, ccache := s.ccache ++ sourcesDone s txid }
  if s.fabricOpen then sendHeld [] s.rtx s else s

/-- The release-flag state towards a device (R305). -/
def State.flagOut (s : State) (dev : Nat) : FlagOut := (s.flagsOut.find? fun f => f.dev == dev).getD { dev := dev }

/-- A FLAG (R304 to R306): kind, operand size, atomic fields, and the barrier update's fields. -/
def State.sendFlag (s : State) (dev addr kind size aop arr cause badf : Nat) (bytes : Int) (opnd : Bytes) (owner : ReqFor) (asid grp : Nat) :
    State × Bool :=
  let f := s.flagOut dev
  let data := natLe 4 s.epoch.toNat ++ natLe 4 f.epoch.toNat ++ natLe 1 kind ++ natLe 1 size ++ natLe 2 aop ++ natLe 4 0 ++
    natLe 4 arr ++ natLe 1 cause ++ natLe 1 badf ++ natLe 2 0 ++ natLe 8 ((bytes % (2 ^ 64 : Nat)).toNat) ++ opnd
  let p : Packet := { ty := 11#8, src := 0#16, dst := BitVec.ofNat 16 dev, addr := BitVec.ofNat 64 addr, len := BitVec.ofNat 16 data.length,
                      sqf := f.next, data := data }
  match s.request p owner asid grp with
  | (s, true) => ({ s with flagsOut := { f with next := f.next + 1#32 } :: s.flagsOut.filter fun x => x.dev != dev }, true)
  | (s, false) => (s, false)

/-- A MGMT packet (R288) to a device, which no answer follows. One that answers no other waits until the device may send requests (R305). -/
def State.sendMgmt (s : State) (dev subtype asid : Nat) (data : Bytes) : State :=
  let p : Packet := { ty := 12#8, src := BitVec.ofNat 16 s.devid, dst := BitVec.ofNat 16 dev, sasid := BitVec.ofNat 16 asid,
                      txid := BitVec.ofNat 32 s.nextId, aux := BitVec.ofNat 16 subtype, len := BitVec.ofNat 16 data.length, data := data }
  if s.fabricOpen || subtype == 3 || subtype == 10 then (s.bump.send p none).1 else { s.bump with mgmtHeld := s.mgmtHeld ++ [p] }

/-- Management packets sent in order. -/
def sendAll : List Packet → State → State
  | [], s => s
  | p :: ps, s => sendAll ps (s.send p none).1

/-! ## Barrier updates and the finish of an operation -/

/-- An update sent to a barrier at a virtual address, which is translated as it is sent (R349): queued for its home here, or a FLAG to the home's device
(R352). It waits in the queue, untranslated, while its page migrates or the retransmit buffer is full (R298). An address that no longer translates changes
nothing and is logged. The result is the cause with which an `ARV` that sent it fails at once, 0 for none. -/
def State.sendUpdate (s : State) (va : Nat) (u : BUpdate) (grp : Nat) : State × BitVec 8 :=
  match s.xlate u.asid va rightsRdWr with
  | none => (s.logEvent 0x0009 u.asid (natLe 8 va ++ natLe 8 0), 0x81#8)
  | some t =>
    let u := { u with dev := s.devid, grp := grp, bar := va }
    if t.mig then ({ s with updates := s.updates ++ [{ u with va := va }] }, 0#8)
    else match s.target t va with
      | .remote dev pa =>
        if !s.rtxRoom 1 then ({ s with updates := s.updates ++ [{ u with va := va }] }, 0#8)
        else match s.sendFlag dev pa 3 0 0 u.arr ((u.cause.getD 0#8).toNat) (if u.bad then 1 else 0) u.byt [] (.update u) u.asid grp with
        | (s, true) => (s, 0#8)
        | (s, false) => (s, 0x61#8)
      | _ => ({ s with updates := s.updates ++ [{ u with pa := t.addr va }] }, 0#8)

/-- PROG with every bit set. -/
def progAll : DWord := BitVec.allOnes 64

/-- The `v` registers that the save of a thread writes: those of its own entry's mask, or all, within the budget of its role (R22, R384, R388). -/
def vMask (img : Image) (vbud : Nat) (t : Thread) : Nat := Nat.land (2 ^ vbud - 1) (match t.stopped.bind fun i => img.pe[i]? with
  | some e => e.vlive
  | none => 2 ^ 128 - 1)

/-- Is a register of a saved thread written by its save? -/
def savedReg (img : Image) (vbud : Nat) (t : Thread) (n : Nat) : Bool := bitOf (vMask img vbud t) n

/-- The address of a group's record in its team's save area, 0 when the team has none (R386). -/
def State.areaRecord (s : State) (g : Group) : Nat :=
  match s.team? g.team with
  | some t => if t.save = 0 then 0 else t.save + 0x100 + g.idx * 0x5800
  | none => 0

/-- The record of a saved group, 0 while the group is resident. -/
def State.recordAddr (s : State) (g : Group) : Nat := if g.resident then 0 else s.areaRecord g

/-- Bytes of a group's trap frames written to its save area, to which the trap-frame window leads (R369). -/
def State.framesOut (s : State) (g : Group) (off : Nat) (bs : Bytes) : State :=
  let a := s.areaRecord g + 0x840 + off
  if s.areaRecord g = 0 then s else State.tagExtent { s with mem := putBytes s.mem a bs } g.asid a bs.length

/-- Bytes that the trap-frame window of a group shows: those of its save area; a control team that has never been saved has none (R369). -/
def State.getFrames (s : State) (g : Group) (off n : Nat) : Bytes :=
  if s.areaRecord g = 0 then getBytes g.frames off n else getBytes s.mem (s.areaRecord g + 0x840 + off) n

/-- Bytes written through the trap-frame window of a group (R369). -/
def State.putFrames (s : State) (g : Group) (off : Nat) (bs : Bytes) : State :=
  (s.modGroup g.uid fun g => { g with frames := putBytes g.frames off bs }).framesOut g off bs

/-- The 16-byte image of a token (R388). -/
def tokenBytes (t : Token) : Bytes :=
  let st := match t.st with
    | .idle => 0 | .pend => 1 | .done => 2 | .doneBad => 3 | .poison => 4
  natLe 4 (st + t.cause.toNat * 256) ++ natLe 4 0 ++ natLe 8 t.prog.toNat

/-- A token register of a group written, resident or saved (R217, R390); a finished group has none (R399). -/
def State.putToken (s : State) (u k : Nat) (t : Token) : State :=
  match s.group? u with
  | none => s
  | some g =>
    if g.finished then s
    else
      let s := s.setGroup (g.setToken k t)
      let r := s.recordAddr g
      if r = 0 then s else s.homeWrite 0x200 (r + 0x1380 + 16 * k) (tokenBytes t)

/-- A token-tracked register of a lane written (R193, R390, R399). -/
def State.landReg (s : State) (u lane n : Nat) (x : Word) : State :=
  match s.group? u with
  | none => s
  | some g =>
    if g.finished then s
    else
      let t := g.thread lane
      let r := s.recordAddr g
      if r = 0 then s.setGroup (g.setThread lane (t.vset n x))
      else if savedReg (s.groupCode g) (s.budget g) t n then
        (s.setGroup (g.setThread lane { t with v := t.v.set n x })).homeWrite 0x200 (r + 0x1800 + n * 0x80 + lane * 4) (natLe 4 x.toNat)
      else s

/-- The targets of a part written from its data, low word first. -/
def landTargets (s : State) (u lane : Nat) : List Nat → Bytes → State
  | [], _ => s
  | n :: ns, bs => landTargets (s.landReg u lane n (BitVec.ofNat 32 (fieldLe bs 0 4))) u lane ns (bs.drop 4)

/-- An export's update: held with the `TEXP` while its entry stands in the group's queue, since the update is a release of what precedes it there; sent
at once after (R347). -/
def State.exportUpdate (s : State) (e : Exprt) (u : BUpdate) : State :=
  if (s.group? e.grp).any fun g => g.sq.any fun q => q.seq == e.seq && q.kind == .barrier then
    s.modGroup e.grp fun g => { g with sq := mapIf (fun q => q.seq == e.seq) (fun q => { q with upds := q.upds ++ [(e.bar, u)] }) g.sq }
  else (s.sendUpdate e.bar u e.grp).1

/-- The unit of R350 that sends an operation's exports: its cluster's copy engine, or 255. -/
def State.opUnit (s : State) (o : Op) : Nat := match o.kind, s.group? o.grp with
  | .copy _, some g => 192 + clusterOf g.core
  | _, _ => 255

/-- An export's update, before it says what it counts: it comes from the operation's unit, at the place in the order of the `TEXP` (R347, R350). -/
def Exprt.update (e : Exprt) (asid unit : Nat) : BUpdate := { unit := unit, asid := asid, seq := e.seq, pc := e.pc, lanes := e.lanes }

/-- The updates of an operation's exports at its finish (R347). -/
def sendExports (st : TokState) (cause : BitVec 8) (asid unit : Nat) : List Exprt → State → State
  | [], s => s
  | e :: es, s =>
    let u : BUpdate := { e.update asid unit with arr := e.arr, cause := if st == .poison then some cause else none, bad := st == .doneBad }
    sendExports st cause asid unit es (s.exportUpdate e u)

/-- The bytes of landed chunks counted down on an operation's byte exports (R347). -/
def countBytes (n asid unit : Nat) : List Exprt → State → State
  | [], s => s
  | e :: es, s => countBytes n asid unit es (if e.byt then s.exportUpdate e { e.update asid unit with byt := -(n : Int) } else s)

/-- An operation finishes (R193, R217): its clean targets are written, its token takes the final state unless it is detached, the operations that
sampled it as a precondition learn how it ended (R92), and its exports are sent (R347). -/
def State.finishOp (s : State) (id : Nat) (st : TokState) (cause : BitVec 8) : State :=
  match s.op? id with
  | none => s
  | some o =>
    let s := o.parts.foldl (fun s p => if p.fin == some 0#8 then landTargets s o.grp p.lane p.tgt p.data else s) s
    let prog := match s.group? o.grp with
      | some g => if o.nchunk = 0 then progAll else (g.token o.kd).prog
      | none => progAll
    let s := if o.bound then s.putToken o.grp o.kd { st := st, cause := if st == .poison then cause else 0#8, prog := prog, op := id } else s
    let s := { s with ops := (s.ops.filter fun (x : Op) => x.id != id).map (fun (x : Op) =>
                 { x with pre := mapIf (fun q => q.op == id) (fun q => { q with res := some (st, cause) }) x.pre }) }
    let s := s.modCtx o.asid fun c => { c with engq := c.engq.filter fun x => x != id }
    let s := { s with absent := s.absent.filter fun a => a.2.2 != id }
    sendExports st cause o.asid (s.opUnit o) o.exprts s

/-- When every part of a memory word's operation has finished, the operation does (R193): DONE, or POISON with the lowest failing lane's cause. -/
def State.settleParts (s : State) (id : Nat) : State :=
  match s.op? id with
  | none => s
  | some o =>
    if o.parts.all fun p => p.fin.isSome then
      match o.parts.find? fun p => p.fin != some 0#8 with
      | some p => s.finishOp id .poison (p.fin.getD 0#8)
      | none => s.finishOp id .done 0#8
    else s

/-- A lane's part finishes with a cause, 0 for clean (R193). -/
def State.finishPart (s : State) (id lane : Nat) (cause : BitVec 8) : State :=
  (s.modPart id lane fun p => { p with fin := some cause, performed := true }).settleParts id

/-- The status word of a final state (R242). -/
def statusWord (st : TokState) (cause : BitVec 8) : Word :=
  let c := match st with
    | .idle => 0 | .pend => 1 | .done => 2 | .doneBad => 3 | .poison => 4
  BitVec.ofNat 32 (c + cause.toNat * 256)

/-- A queue's slot takes a state and status in a cycle of its die; the slots' states at the start of the cycle are kept (R113, R237). -/
def StreamQ.put (q : StreamQ) (cycle j : Nat) (st : SlotState) (status : Word) : StreamQ :=
  { q with slots := q.slots.set j (st, status)
           prev := if q.prev.any fun p => p.1 == cycle then q.prev else some (cycle, q.slots.map (·.1)) }

/-- The slots' states as they stood at the start of a cycle (R113). -/
def StreamQ.before (q : StreamQ) (cycle : Nat) : List SlotState := match q.prev with
  | some (c, l) => if c = cycle then l else q.slots.map (·.1)
  | none => q.slots.map (·.1)

/-- A slot of a team's stream queue takes a state and status (R237). -/
def State.setSlot (s : State) (team q j : Nat) (st : SlotState) (status : Word) : State :=
  s.modTeam team fun t => { t with queues := mapIf (fun x => x.idx == q) (fun x => x.put (s.die (dieOf t.core)).cycles j st status) t.queues }

/-- A copy ends: every slice's token finishes with one state, and a published slot becomes filled (R226, R230, R231, R238). -/
def State.endCopy (s : State) (gid : Nat) (st : TokState) (cause : BitVec 8) : State :=
  match s.gather? gid with
  | none => s
  | some g =>
    let s := g.slices.foldl (fun s x => s.finishOp x.op st cause) s
    let s := match g.slot with
      | some (q, j) => s.setSlot g.team q j .filled (statusWord st cause)
      | none => s
    { s with gathers := s.gathers.filter fun x => x.id != gid }

/-! ## Fault records and the end of a task -/

/-- A fault record (R379). -/
structure FRec where
  cause : Nat
  lane  : Nat := 0xFF
  op    : Nat := 0
  size  : Nat := 0
  pc    : Nat := 0
  tcode : Nat := 0
  addr  : Nat := 0
  deriving DecidableEq, Repr

/-- Where a record's task and group stand. -/
structure FWhere where
  asid : Nat
  ltag : Nat := 0
  team : Nat := 0
  grp  : Nat := 0
  core : Nat := 0
  part : Nat := 0
  deriving DecidableEq, Repr

/-- The 64 bytes of a fault record (R379). -/
def faultBytes (s : State) (w : FWhere) (r : FRec) : Bytes :=
  natLe 2 1 ++ natLe 2 r.cause ++ natLe 2 w.asid ++ natLe 2 s.devid ++ natLe 8 w.ltag ++ natLe 4 w.team ++ natLe 1 w.grp ++ natLe 1 r.lane ++
  natLe 1 r.op ++ natLe 1 r.size ++ natLe 4 r.pc ++ natLe 4 r.tcode ++ natLe 8 r.addr ++ natLe 8 s.timeNs ++ natLe 1 w.core ++ natLe 1 w.part ++
  natLe 14 0

/-- The code of a park reason (R381). -/
def Reason.code : Reason → Nat
  | .absentLine => 1 | .tokenTarget => 2 | .translation => 3 | .lightFault => 4 | .migration => 5 | .precondition => 6 | .settle => 7 | .wait => 8

/-- The STAT word of a thread (R381). -/
def Thread.stat (t : Thread) : Nat :=
  (match t.st with
    | .runnable => 0
    | .parked r => 2 ^ 28 + r.code * 2 ^ 24
    | .rcvWait => 2 * 2 ^ 28
    | .exited => 3 * 2 ^ 28) + (if t.hnd then 2 ^ 23 else 0)

/-- A loop-stack entry as 12 bytes (R381). -/
def LoopEntry.bytes (e : LoopEntry) : Bytes :=
  if e.isLoop then natLe 4 e.start.toNat ++ natLe 4 e.fin.toNat ++ natLe 4 e.left.toNat else natLe 4 e.start.toNat ++ natLe 8 0

/-- A thread entry of 64 bytes (R381) with the PC it shows. -/
def threadEntry (t : Thread) (pc : Word) (peidx : Nat) : Bytes :=
  let st := t.stack.reverse
  let kinds := (st.zipIdx.map fun (e, i) => if e.isLoop then 2 ^ (4 + i) else 0).foldl (· + ·) 0
  natLe 4 pc.toNat ++ natLe 4 t.stat ++ natLe 4 peidx ++ natLe 4 (st.length + kinds) ++ sliceBytes (st.map LoopEntry.bytes).flatten 0 48

/-- A group-state record of 33 entries (R380). -/
def groupRecord (s : State) (w : FWhere) (g : Group) (cause : Nat) : Bytes :=
  natLe 2 2 ++ natLe 2 cause ++ natLe 2 w.asid ++ natLe 2 s.devid ++ natLe 8 w.ltag ++ natLe 4 w.team ++ natLe 4 w.grp ++ natLe 4 g.q.toNat ++
  natLe 4 g.fpst.toNat ++ natLe 8 0 ++ natLe 8 s.timeNs ++ natLe 1 w.core ++ natLe 1 w.part ++ natLe 1 g.slot ++ natLe 13 0 ++
  (g.threads.map fun t => threadEntry t t.pc (t.stopped.getD 0xFFFFFFFF)).flatten

/-- The slot of ring entry `n`, the first being 1 (R378; log entry 20). -/
def ringSlot (n : Nat) : Nat := 1 + n % 1023

/-- Entries written to a context's fault ring by Ochre one after another (R395); HEAD rises after each whole record (R378). -/
def ringWrite (addr : Nat) : Nat → Bytes → Nat → State → State
  | 0, _, _, s => s
  | n + 1, bs, head, s =>
    ringWrite addr n (bs.drop 64) (head + 1) (s.homeWrite 0x200 (addr + 64 * ringSlot (head + 1)) (sliceBytes bs 0 64))

/-- A record of `k` entries appended, padded so that it does not wrap, or dropped and counted (R378). -/
def State.ringAppend (s : State) (asid k : Nat) (bs : Bytes) : State :=
  match s.ctx? asid with
  | none => s
  | some c =>
    let head := c.ring.head
    let first := ringSlot (head + 1)
    let pad := if first + k ≤ 1024 then 0 else 1024 - first
    let tail := getLe s.mem (c.ring.addr + 4) 4
    let free := 1023 - (head + 2 ^ 32 - tail) % 2 ^ 32
    if pad + k ≤ free then
      let s := ringWrite c.ring.addr pad [] head s
      let s := ringWrite c.ring.addr k bs (head + pad) s
      let head' := (head + pad + k) % 2 ^ 32
      let s := s.homeWrite 0x200 c.ring.addr (natLe 4 head')
      s.modCtx asid fun c => { c with ring := { c.ring with head := head' } }
    else
      let s := s.homeWrite 0x200 (c.ring.addr + 8) (natLe 4 (c.ring.drop + 1))
      s.modCtx asid fun c => { c with ring := { c.ring with drop := c.ring.drop + 1 } }

/-- Is the operation an engine command (R218)? -/
def OpKind.isEngine : OpKind → Bool
  | .copy _ => true
  | .launch _ => true
  | .kvld => true
  | .kvseal => true
  | .kvhdr => true
  | .coll => true
  | .mcst => true
  | .rte => true
  | .rtc => true
  | _ => false

/-- The KIND of a cancel (R288), for the commands that have one. -/
def OpKind.cancelKind : OpKind → Option Nat
  | .coll => some 0
  | .rte => some 1
  | .rtc => some 2
  | _ => none

/-- The cancel of a collective or dispatch command, sent to its other members (R318, R332). -/
def State.sendCancel (s : State) (o : Op) (cause : Nat) : State :=
  match o.kind.cancelKind with
  | none => s
  | some kd => o.peers.foldl (fun s d => s.sendMgmt d 7 o.asid (natLe 4 o.cid ++ natLe 4 o.ordn ++ natLe 1 kd ++ natLe 1 cause ++ natLe 6 0)) s

/-- Commands of a launch that have not started leave the engine queue POISON 0x90, their slices and slots with them (R377). -/
def State.poisonUnstarted (s : State) (l : Nat) : State :=
  let gs := (s.gathers.filter fun g => !g.started && (s.team? g.team).any fun t => t.launch == l).map (·.id)
  let s := gs.foldl (fun s g => s.endCopy g .poison 0x90#8) s
  let os := (s.ops.filter fun o => o.launch == l && o.kind.isEngine && !o.started).map (·.id)
  let s := os.foldl (fun s o => s.finishOp o .poison 0x90#8) s
  { s with launches := s.launches.filter fun y => !(y.phase == .queued && os.contains y.op) }

/-- The launch ends: its threads stop, its unstarted commands are removed, and its started collective and dispatch commands are cancelled, here as at the other
members (R377; log entry 194). -/
def State.stopLaunch (s : State) (l cause : Nat) : State :=
  match s.launch? l with
  | none => s
  | some x =>
    if x.ended.isSome then s
    else
      let s := s.modLaunch l fun y => { y with ended := some cause }
      let s := s.poisonUnstarted l
      let s := (s.ops.filter fun o => o.launch == l && o.started && o.kind.cancelKind.isSome).foldl (fun s o => (s.sendCancel o 0x90).finishOp o.id .poison 0x90#8) s
      { s with teams := mapIf (fun t => t.launch == l && (match t.phase with | .saved _ => true | _ => false)) (fun t => { t with phase := .retired }) s.teams }

/-- Ochre terminates a context: every launch of it ends (R376, R396). -/
def State.terminateCtx (s : State) (asid cause : Nat) : State :=
  let ls := (s.launches.filter fun l => l.asid == asid && l.phase != .retired && l.phase != .failed && l.ended.isNone).map (·.uid)
  let s := ls.foldl (fun s l => s.stopLaunch l cause) s
  s.post 0x0081 0 0 asid (natLe 2 cause)

/-- A task ends (R376 to R380): fault records in lane order, one group-state record for the group named, and the launch stopped. When it is the
control team's launch, the whole context is terminated. -/
def State.endTask (s : State) (l : Nat) (recs : List FRec) (grp : Option Nat) : State :=
  match s.launch? l with
  | none => s
  | some x =>
    let cause := ((recs.find? fun r => r.cause != 0x12).map (·.cause)).getD 0x12
    let g? := grp.bind fun u => s.group? u
    let w : FWhere := match g? with
      | some g => { asid := x.asid, ltag := x.ltag.toNat, team := ((s.team? g.team).map (·.index)).getD 0, grp := g.idx, core := g.core, part := g.part }
      | none => { asid := x.asid, ltag := x.ltag.toNat }
    let s1 := s.stopLaunch l cause
    let s2 := recs.foldl (fun s r => s.ringAppend x.asid 1 (faultBytes s w r)) s1
    let s3 := match g? with
      | some g => s2.ringAppend x.asid 33 (groupRecord s w g cause)
      | none => s2
    if x.isCtrl then s3.terminateCtx x.asid 0x40 else s3

/-- A fault record that ends no task (R42). -/
def State.noteFault (s : State) (l : Nat) (g : Group) (r : FRec) : State :=
  match s.launch? l with
  | none => s
  | some x =>
    let team := ((s.team? g.team).map (·.index)).getD 0
    s.ringAppend x.asid 1 (faultBytes s { asid := x.asid, ltag := x.ltag.toNat, team, grp := g.idx, core := g.core, part := g.part } r)

/-! ## The loop decision (R144) -/

/-- A taken branch leaves every loop that ends at the word. -/
def leaveLoops (a : Word) : List LoopEntry → List LoopEntry
  | [] => []
  | e :: es => if e.isLoop && e.fin == a then leaveLoops a es else e :: es

/-- Any other word counts down the loops that end at it, innermost first. -/
def countLoops (a : Word) (pc : Word) : List LoopEntry → Word × List LoopEntry
  | [] => (pc, [])
  | e :: es =>
    if e.isLoop && e.fin == a then
      if e.left.toNat > 1 then (e.start, { e with left := e.left - 1#32 } :: es) else countLoops a (a + 4#32) es
    else (pc, e :: es)

/-- Where a thread goes after its word: on from address `a`; by a taken branch at the word; or to a target with no loop decision (R370). -/
inductive Next where
  | fall (a : Word)
  | jump (target : Word)
  | plain (target : Word)
  deriving DecidableEq, Repr

/-- The thread after its word at `pc`, hints cleared (R89) and the loop decision taken; a thread in its handler takes none (R370). -/
def advance (t : Thread) (pc : Word) (n : Next) : Thread :=
  let t := { t with hints := {}, st := .runnable, wake := .none }
  match n with
  | .plain target => { t with pc := target }
  | .jump target => if t.hnd then { t with pc := target } else { t with pc := target, stack := leaveLoops pc t.stack }
  | .fall a =>
    if t.hnd then { t with pc := a + 4#32 }
    else
      let (p, st) := countLoops a (a + 4#32) t.stack
      { t with pc := p, stack := st }

/-! ## Settle segments (R119 to R124, R160) -/

/-- The first word of a segment that raised an enabled flag: its PC, the enabled flags it raised, its number and its opcode (R160). -/
def firstRaise : List Pending → Option (Word × BitVec 5 × Nat × BitVec 8)
  | [] => none
  | p :: ps => if p.flags &&& p.te != 0#5 then some (p.pc, p.flags &&& p.te, p.wid, p.op) else firstRaise ps

/-- One pending result applied to its register, in issue order (R121, R122). A scalar result applied discards those of earlier words that are pending for the
same register, whatever thread produced them: a word issued later has written it. -/
def applyOne (skip : Option Nat) (g : Group) (t : Thread) (p : Pending) : Group × Thread :=
  let dead := skip == some p.wid
  match p.dest with
  | .v n => (g, if dead then t else { t with v := t.v.set n p.val })
  | .p n => (g, if dead then t else { t with p := setBit8 t.p n (p.val != 0#32) })
  | .s id =>
    match g.spend.find? fun x => x.id == id with
    | some x =>
      if dead then ({ g with spend := g.spend.filter fun y => y.id != id }, t)
      else ({ g with s := g.s.set x.sd x.val, spend := g.spend.filter fun y => !(y.sd == x.sd && decide (y.id ≤ id)) }, t)
    | none => (g, t)
  | .none => (g, t)

/-- Pending results applied one after another. -/
def applyAll (skip : Option Nat) : List Pending → Group → Thread → Group × Thread
  | [], g, t => (g, t)
  | p :: ps, g, t => let (g, t) := applyOne skip g t p; applyAll skip ps g t

/-- The segment of a thread closes (R123, R160): its pending results are applied, its flags go into FPST, and the first word that raised an enabled
flag, if any, is named; that word's result is discarded. -/
def closeSegment (g : Group) (t : Thread) : Group × Thread × Option (Word × BitVec 5 × BitVec 8) :=
  let r := firstRaise t.pend
  let (g', t') := applyAll (r.map fun x => x.2.2.1) t.pend g t
  let fl := t.pend.foldl (fun f p => f ||| p.flags) 0#5
  ({ g' with fpst := g'.fpst ||| BitVec.setWidth 32 fl }, { t' with pend := [] }, r.map fun x => (x.1, x.2.1, x.2.2.2))

/-! ## Taking a trap (R366 to R371) -/

/-- The number of pending hints of a thread. -/
def Hints.count (h : Hints) : Nat :=
  (if h.imm.isSome then 1 else 0) + (if h.dep.isSome then 1 else 0) + (if h.mod.isSome then 1 else 0) + (if h.sch.isSome then 1 else 0)

/-- The first word of a thread's pending hint chain (R90). -/
def Thread.chainPc (t : Thread) : Word := t.pc - BitVec.ofNat 32 (4 * t.hints.count)

/-- The trap frame of a thread (R369). -/
def frameBytes (t : Thread) (r : TrapReq) : Bytes :=
  natLe 4 (t.vget 0).toNat ++ natLe 4 (t.vget 1).toNat ++ natLe 4 r.tcode.toNat ++ natLe 4 r.fpc.toNat ++ natLe 4 r.cpc.toNat ++
  natLe 4 r.npc.toNat ++ natLe 8 r.addr.toNat ++ natLe 4 (r.op.toNat * 2 ^ 24 + r.size * 2 ^ 16) ++ natLe 28 0

/-- Entry to the trap handler in one step (R368): the frame is written, `v0` and `v1` take the lane index and TCODE, HND is set, hints are
discarded, and the thread is RUNNABLE at the TRAP offset. -/
def enterHandler (g : Group) (lane : Nat) (t : Thread) (r : TrapReq) (handler : Nat) : Group :=
  let t' := { t with v := (t.v.set 0 (BitVec.ofNat 32 lane)).set 1 r.tcode, hnd := true, pc := BitVec.ofNat 32 handler, hints := {},
                     st := .runnable, wake := .none, trap := none, stopped := r.hold.or t.stopped }
  Group.setThread { g with frames := putBytes g.frames (64 * lane) (frameBytes t r) } lane t'

/-- The arithmetic trap of a segment's close (R160, R366): the continuation is `cpc`. -/
def arithReq (x : Word × BitVec 5 × BitVec 8) (cpc : Word) : TrapReq :=
  { tcode := 0x10000000#32 + BitVec.setWidth 32 x.2.1, fpc := x.1, cpc := cpc, npc := cpc, op := x.2.2 }

/-- A thread on entry to its handler (R368): its segment closes, its pending results applied, and an arithmetic trap of it is taken instead (R160). -/
def enterClosed (g : Group) (t : Thread) (r : TrapReq) : Group × Thread × TrapReq :=
  match closeSegment g t with
  | (g, t, none) => (g, t, r)
  | (g, t, some a) => (g, t, { arithReq a r.cpc with hold := r.hold })

/-- A thread enters its handler: its trap frame is written, in its save area too (R368, R369). -/
def State.enter (s : State) (g : Group) (lane : Nat) (t : Thread) (r : TrapReq) (handler : Nat) : State :=
  let (g, t, r) := enterClosed g t r
  (s.setGroup (enterHandler g lane t r handler)).framesOut g (64 * lane) (frameBytes t r)

/-- The operations in flight that are to write a register of a lane (R121, R193). -/
def trackers (s : State) (grp lane n : Nat) : List Nat :=
  (s.ops.filter fun o => o.grp == grp && o.parts.any fun p => p.lane == lane && p.tgt.contains n).map (·.id)

/-- A thread's trap is delivered (R368): at once, or after the operations that target its `v0` or `v1` have finished. Until then the thread keeps its
pending results and hints: entry applies the ones and discards the others. -/
def State.deliver (s : State) (grp lane : Nat) (t : Thread) (r : TrapReq) (handler : Nat) : State :=
  match s.group? grp with
  | none => s
  | some g =>
    match trackers s grp lane 0 ++ trackers s grp lane 1 with
    | [] => s.enter g lane t r handler
    | ids => s.setGroup (g.setThread lane { t with trap := some r, st := .parked .tokenTarget, wake := .ops ids, parkedAt := s.timeNs })

/-! ## The issue of a word and its commit -/

/-- An issue (R114): the group as it issues, the lanes of its issue set, their PC and hints, the word's opcode and settle bit, and what the image
gives. -/
structure Issue where
  g     : Group
  lanes : List Nat
  pc    : Word
  hints : Hints := {}
  op    : BitVec 8 := 0#8
  st    : Bool := false
  codeLen : Nat := 4
  vbud  : Nat := 128
  handler : Option Nat := none
  /-- under an order to stop (R382): the offsets at which a thread stops, each with its entry -/
  stops : List (Nat × Nat) := []
  /-- under the forced full save (R384): a thread stops at any settle word -/
  full  : Bool := false
  /-- the lanes whose `v0` or `v1` an operation in flight is to write: a trap of theirs waits for it (R368) -/
  slow  : List Nat := []
  deriving DecidableEq, Repr

/-- What a word does for one lane: it goes on; it is a hint word and leaves its thread with hints pending; it exits; it waits at `RCV`; it parks before the
word; it traps; or it ends the task. -/
inductive Out where
  | go (t : Thread) (n : Next)
  | hint (h : Hints)
  | exit (t : Thread)
  | rcv (t : Thread)
  | park (r : Reason) (w : Wake)
  | trap (code : Word) (addr : DWord) (size : Nat)
  | stop (cause : Nat) (addr : DWord) (size : Nat)
  deriving DecidableEq, Repr

/-- How a lane's outcome resolves once its segment rules are applied. -/
inductive Res where
  | done (t : Thread)
  | trapped (t : Thread) (r : TrapReq)
  | ended (t : Thread) (cause : Nat) (addr : DWord) (size : Nat)
  deriving DecidableEq, Repr

/-- Where a thread of a team that is ordered to stop stops as it completes a word (R382, R384). -/
def Issue.stopAfter (x : Issue) (pc : Word) (settle : Bool) : Option Nat :=
  match x.stops.find? fun e => e.1 == pc.toNat with
  | some e => some e.2
  | none => if x.full && settle then some 0xFFFFFFFF else none

/-- A thread completes its word (R123): a settle word with pending results parks until they have landed, or closes the segment at once. -/
def resolveGo (now : Nat) (g : Group) (t : Thread) (settle : Bool) : Group × Res :=
  if !settle || t.pend.isEmpty then (g, .done t)
  else if t.pend.all fun p => p.landed then
    match closeSegment g t with
    | (g, t, none) => (g, .done t)
    | (g, t, some a) => (g, .trapped { t with stopped := none } (arithReq a t.pc))
  else (g, .done { t with st := .parked .settle, wake := .settle, parkedAt := now })

/-- The trap that a word raises for a thread (R367, R368). -/
def Thread.trapReq (t : Thread) (x : Issue) (code : Word) (addr : DWord) (size : Nat) : TrapReq :=
  { tcode := code, fpc := t.pc, cpc := t.chainPc, npc := t.pc + 4#32, addr := addr, op := x.op, size := size }

/-- A thread raises a trap (R367, R368): its segment closes, and an arithmetic trap of it is taken instead of the word's own (R160). A thread that must wait
before it enters its handler closes its segment as it enters. -/
def resolveTrap (g : Group) (lane : Nat) (t : Thread) (x : Issue) (code : Word) (addr : DWord) (size : Nat) : Group × Res :=
  if x.handler.isSome && !t.hnd && x.slow.contains lane then (g, .trapped t (t.trapReq x code addr size))
  else match closeSegment g t with
    | (g, t, some a) => (g, .trapped t (arithReq a t.chainPc))
    | (g, t, none) => (g, .trapped t (t.trapReq x code addr size))

/-- A thread outside its handler that parks or waits under the forced full save stops at once (R384). -/
def Issue.stopHere (x : Issue) (t : Thread) : Option Nat := if x.full && !t.hnd && t.stopped.isNone then some 0xFFFFFFFF else t.stopped

/-- A thread that parks before its word; under the forced full save one that has nothing of its own to settle, its segment closed, stops there (R160, R384). -/
def parkThread (now : Nat) (x : Issue) (t : Thread) (r : Reason) (w : Wake) : Thread :=
  if r == .settle then
    if x.full && t.pend.isEmpty then { t with st := .runnable, wake := .none, stopped := t.stopped.or (some 0xFFFFFFFF) }
    else { t with st := .parked r, wake := w, parkedAt := now }
  else { t with st := .parked r, wake := w, parkedAt := now, stopped := x.stopHere t }

/-- One lane's outcome resolved. -/
def resolve (now : Nat) (x : Issue) (g : Group) (lane : Nat) (o : Out) : Group × Res :=
  let t := g.thread lane
  match o with
  | .go t n => resolveGo now g { advance t x.pc n with stopped := x.stopAfter x.pc x.st } x.st
  | .hint h =>
    if !t.hnd && (match t.stack with
        | e :: _ => e.isLoop && e.fin == x.pc
        | [] => false) then (g, .done (advance t x.pc (.fall x.pc)))
    else (g, .done { t with pc := x.pc + 4#32, hints := h })
  | .exit t =>
    match closeSegment g t with
    | (g, t, none) => (g, .done { t with st := .exited, wake := .none, stack := [], hints := {}, hnd := false })
    | (g, t, some a) => (g, .trapped t (arithReq a x.pc))
  | .rcv t => (g, .done { t with st := .rcvWait, wake := .none, hints := {}, rcvS := x.st, stopped := x.stopHere t })
  | .park r w => (g, .done (parkThread now x t r w))
  | .trap code addr size => resolveTrap g lane t x code addr size
  | .stop cause addr size => (g, .ended t cause addr size)

/-- Every lane's outcome resolved, in lane order; threads that are done are stored back. -/
def resolveAll (now : Nat) (x : Issue) : List (Nat × Out) → Group → Group × List (Nat × Res)
  | [], g => (g, [])
  | (lane, o) :: rest, g =>
    let (g, r) := resolve now x g lane o
    let g := match r with
      | .done t => g.setThread lane t
      | _ => g
    let (g, rs) := resolveAll now x rest g
    (g, (lane, r) :: rs)

/-- Does a resolved outcome end the task (R370, R371, R376)? -/
def Res.ends (handler : Option Nat) : Res → Bool
  | .done _ => false
  | .trapped t _ => handler.isNone || t.hnd
  | .ended .. => true

/-- The fault record of a lane's outcome when the task ends (R367, R370, R371, R379). -/
def Res.record (handler : Option Nat) (x : Issue) (lane : Nat) : Res → List FRec
  | .done _ => []
  | .trapped t r => [{ cause := if handler.isNone then 0x10 else if t.hnd then 0x11 else 0x12, lane := lane, op := r.op.toNat, size := r.size,
                       pc := r.fpc.toNat, tcode := r.tcode.toNat, addr := r.addr.toNat }]
  | .ended _ cause addr size => [{ cause := cause, lane := lane, op := x.op.toNat, size := size, pc := x.pc.toNat, addr := addr.toNat }]

/-- The traps of an issue delivered, lane by lane (R367). -/
def deliverAll (grp handler : Nat) : List (Nat × Res) → State → State
  | [], s => s
  | (lane, .trapped t r) :: rest, s => deliverAll grp handler rest (s.deliver grp lane t r handler)
  | _ :: rest, s => deliverAll grp handler rest s

/-- The threads of a word that ended the task show that word (R381). -/
def showWord (x : Issue) : List Nat → Group → Group
  | [], g => g
  | l :: ls, g => showWord x ls (g.setThread l { g.thread l with pc := x.pc, st := .runnable })

/-- Does a lane of a word that ended the task show that word: every one but those that parked before it, which show it with their park (R381)? -/
def Thread.shows (t : Thread) : Bool := match t.st with
  | .parked r => r == .settle
  | _ => true

/-- Resolved outcomes take effect: the traps are delivered, or the task ends with a record for every lane that failed or trapped (R367, R377). -/
def State.applyRes (s : State) (x : Issue) (g : Group) (rs : List (Nat × Res)) : State :=
  if rs.any fun r => r.2.ends x.handler then
    (s.setGroup (showWord x (x.lanes.filter fun l => (g.thread l).shows) g)).endTask g.launch (rs.flatMap fun r => r.2.record x.handler x r.1) (some g.uid)
  else match x.handler with
    | some h => deliverAll g.uid h rs (s.setGroup g)
    | none => s.setGroup g

/-- The lanes of a group, lowest first. -/
def laneList : List Nat := List.range 32

/-- The lowest PC of the threads that wait at `RCV`, when every thread that has not exited waits (R125); one that
a forced save has stopped holds them all (R384). -/
def rcvReady (g : Group) : Option Word :=
  if g.threads.all fun t => (t.st == .rcvWait && t.stopped.isNone) || t.st == .exited then
    (g.threads.filter fun t => t.st == .rcvWait).foldl (fun m t => match m with
      | none => some t.pc
      | some p => if t.pc.toNat < p.toNat then some t.pc else some p) none
  else none

/-- The threads at the lowest `RCV` are released: each completes its `RCV` (R125, R144, R146). -/
def releaseLanes (now : Nat) (x : Issue) (pc : Word) : List Nat → Group → Group × List (Nat × Res)
  | [], g => (g, [])
  | lane :: rest, g =>
    let t := g.thread lane
    if t.st == .rcvWait && t.pc == pc then
      let (g, r) := resolveGo now g { advance t pc (.fall pc) with stopped := x.stopAfter pc t.rcvS } t.rcvS
      let g := match r with
        | .done t => g.setThread lane t
        | _ => g
      let (g, rs) := releaseLanes now x pc rest g
      (g, (lane, r) :: rs)
    else releaseLanes now x pc rest g

/-- `RCV` releases its lowest waiters when its condition holds (R125): they are the lanes of the word that completes, and that a record shows (R381). -/
def State.rcvRelease (s : State) (x : Issue) : State :=
  match s.group? x.g.uid with
  | none => s
  | some g =>
    match rcvReady g with
    | none => s
    | some pc =>
      let x := { x with pc := pc, op := 0x21#8, lanes := laneList.filter fun l => (g.thread l).st == .rcvWait && (g.thread l).pc == pc }
      let (g, rs) := releaseLanes s.timeNs x pc laneList g
      s.applyRes x g rs

/-- When the last group of a team finishes, its gathers that are not complete are discarded (R400); under an ended task R377 has removed them. -/
def State.discardGathers (s : State) (team : Nat) : State :=
  let gs := s.gathers.filter fun g => g.team == team && !g.started && decide (g.slices.length < bitsOf (fieldLe g.recd 0 8) 43 5 + 1)
  let ids := gs.flatMap fun g => g.slices.map (·.op)
  { s with gathers := s.gathers.filter fun g => !(gs.map (·.id)).contains g.id
           ops := s.ops.filter fun o => !ids.contains o.id
           absent := s.absent.filter fun a => !ids.contains a.2.2
           contexts := s.contexts.map fun c => { c with engq := c.engq.filter fun i => !ids.contains i } }

/-- A group whose threads have all exited and whose queue is empty is finished: its slot is released (R399), which is an occasion for
placement (R70), and with the team's last group its incomplete gathers go (R400). -/
def State.finishGroup (s : State) (u : Nat) : State :=
  match s.group? u with
  | none => s
  | some g =>
    if !g.finished && g.sq.isEmpty && g.threads.all fun t => t.st == .exited then
      let s := s.wantPlacement.setGroup { g with finished := true }
      if s.groups.all fun x => x.team != g.team || x.finished then s.discardGathers g.team else s
    else s

/-- An issued word takes effect: each lane's outcome, the release of `RCV`, and the finish of the group. -/
def State.commit (s : State) (x : Issue) (outs : List (Nat × Out)) : State :=
  match s.group? x.g.uid with
  | none => s
  | some g =>
    let (g, rs) := resolveAll s.timeNs x outs g
    let s := s.applyRes x g rs
    (s.rcvRelease x).finishGroup x.g.uid

/-- Is an opcode one of `CALL`, `RET`, `LOOP`, `BRK` and `RCV`, which a thread in its handler may not issue (R370)? -/
def nestedOp (op : BitVec 8) : Bool := op == 0x1C#8 || op == 0x1D#8 || op == 0x1E#8 || op == 0x1F#8 || op == 0x21#8

/-- The trap code of a word that is illegal with a detail, for one thread (R99, R366): in its handler, `LOOP`, `CALL`, `RET`, `BRK` and `RCV` raise the
nested trap of R370 whatever they would raise outside it. -/
def illegalCode (op : BitVec 8) (detail : Nat) (t : Thread) : Word :=
  if t.hnd && nestedOp op then 0x40020005#32 else 0x30000000#32 + BitVec.ofNat 32 detail

/-- An illegal-instruction trap is raised by every thread of the issue set (R99, R367). -/
def State.illegal (s : State) (x : Issue) (detail : Nat) : State :=
  s.commit x (x.lanes.map fun l => (l, .trap (illegalCode x.op detail (x.g.thread l)) 0#64 0))

end Sys2Proof.Machine
end

