-- ==== Sys2Proof/Machine/Operands.lean ====
section
/-!
DEFINITION. Operand forms: guards (R84, R93), immediates and their extension (R91), which word takes which hints (R95), register codes, runs and their
checks in the order of R99, the parks on token targets (R118), the precondition gate (R92), and the shapes in which words run over their issue set.
-/
namespace Sys2Proof.Machine
open Sys2Proof

/-! ## Immediates and guards -/

/-- The low `n` bits of a number, sign-extended to a word (R6). -/
def sextW (x n : Nat) : Word := (BitVec.ofNat n x).signExtend 32

/-- A 9-bit immediate, or IMM·2^9 + imm9 under `HIMM` (R91). -/
def imm9Of (h : Hints) (i : BitVec 9) : Word := match h.imm with
  | some m => BitVec.ofNat 32 (m.toNat * 512 + i.toNat)
  | none => i.signExtend 32

/-- A 7-bit immediate, or sext(IMM·2^7 + imm7, 30) under `HIMM` (R91). -/
def imm7Of (h : Hints) (i : BitVec 7) : Word := match h.imm with
  | some m => sextW (m.toNat * 128 + i.toNat) 30
  | none => i.signExtend 32

/-- `MOVI`'s immediate (R91, R131). -/
def imm16Of (h : Hints) (i : BitVec 16) : Word := match h.imm with
  | some m => BitVec.ofNat 32 (m.toNat % 2 ^ 16 * 2 ^ 16 + i.toNat)
  | none => i.signExtend 32

/-- `SMOVI`'s immediate (R91, R137). -/
def imm15Of (h : Hints) (i : BitVec 15) : Word := match h.imm with
  | some m => BitVec.ofNat 32 (m.toNat % 2 ^ 17 * 2 ^ 15 + i.toNat)
  | none => i.signExtend 32

/-- The byte offset that `HIMM` gives a memory word (R191). -/
def offOf (h : Hints) : Int := match h.imm with
  | some m => m.toInt
  | none => 0

/-- A 2-bit guard code (R84). -/
def guardCode (g : Nat) (t : Thread) : Bool :=
  match g with
  | 0 => true
  | 1 => t.pget 0
  | 2 => !t.pget 0
  | _ => t.pget 1

/-- The modifiers of the pending hints (R93). -/
def modOf (h : Hints) : ModHint := h.mod.getD {}

/-- A predicate or guard under `HMOD` GEN (R93): `p`GP, or its complement, replaces it. -/
def genGuard (h : Hints) (own : Bool) (t : Thread) : Bool :=
  let m := modOf h
  if m.gen then (t.pget m.gp.toNat != m.gneg) else own

/-- Does the thread take part in a word with a guard code (R84, R93)? -/
def takesPart (h : Hints) (g : Nat) (t : Thread) : Bool := genGuard h (guardCode g t) t

/-- The rounding mode of a word (R93). -/
def modeOf (h : Hints) : RMode := (rmodeOf (modOf h).rnd.toNat).getD .rne

/-! ## Hint acceptance (R95) -/

/-- Which `HMOD` fields a word accepts. -/
structure ModOk where
  rnd : Bool := false
  ovf : Bool := false
  cp  : Bool := false
  scp : Bool := false
  sem : Bool := false
  gen : Bool := false
  deriving DecidableEq, Repr

/-- What a word accepts of each hint (R95). -/
structure Accept where
  imm : Bool := false
  dep : Bool := false
  mods : ModOk := {}
  /-- it takes no `HMOD` at all, not even one whose fields are all zero (R136, R144, R255, R372, R373, R417) -/
  bare : Bool := false
  deriving DecidableEq, Repr

/-- Every field of the modifiers that is in use is accepted; a GP or GNEG in use counts as a use of GEN (log entry 21). -/
def ModOk.admits (o : ModOk) (m : ModHint) : Bool :=
  (o.rnd || m.rnd == 0#3) && (o.ovf || !m.ovf) && (o.cp || m.cp == 0#3) && (o.scp || m.scp == 0#3) && (o.sem || m.sem == 0#2) &&
  (o.gen || (!m.gen && !m.gneg && m.gp == 0#3))

/-- Does a word with this opcode bind its kd (R216)? -/
def bindsToken (op : Nat) : Bool :=
  [0x0A, 0x90, 0x91, 0x94, 0x95, 0x98, 0x9A, 0x9B, 0xA5, 0xA6, 0xB0, 0xB1, 0xB8, 0xB9, 0xBA, 0xBC, 0xBD, 0xBE, 0xBF, 0xCC].contains op ||
  (0xC0 ≤ op && op ≤ 0xC8)

/-- The row of R95 for an opcode; `HSCH` is accepted by every hinted word. A scalar word takes no `HMOD` (R136), nor do `LOOP` (R144), `TRAP` (R372), `SYSRD`
and `SYSWR` (R373), `PERF` (R417) and the words on tiles (R255); any other word whose row lists no field takes one whose fields are all zero, as R95 refuses a nonzero field (log entry 21). GEN on `PLOP` with Q = 1 and on `VTOS`, which
have no guard, is accepted and replaces nothing (log entry 148). -/
def acceptOf (op : Nat) : Accept :=
  let immOk := [0x49, 0x4B, 0x4C, 0x51, 0x5D, 0x5F, 0x90, 0x91, 0x92, 0x93, 0x96].contains op
  if 0x60 ≤ op && op ≤ 0x74 then { mods := { rnd := true, ovf := true, gen := true } }
  else if 0x78 ≤ op && op ≤ 0x7E then { mods := { rnd := true, ovf := true } }
  else if 0x90 ≤ op && op ≤ 0x9B then { imm := immOk, dep := true, mods := { cp := true, scp := true, sem := true, gen := true } }
  else if 0xC0 ≤ op && op ≤ 0xC8 then { dep := true, mods := { gen := true } }
  else if 0xCB ≤ op && op ≤ 0xCF then { dep := true, bare := true }
  else if op = 0x0A || (0xA0 ≤ op && op ≤ 0xBF) then
    { dep := true, mods := { scp := true, sem := true, cp := [0xB0, 0xB8, 0xBC, 0xBD, 0xBE, 0xBF].contains op } }
  else if [0x1F, 0x20, 0x23, 0x24, 0x25, 0x26].contains op || (0x30 ≤ op && op ≤ 0x4E) || (0x80 ≤ op && op ≤ 0x84) ||
      (0x19 ≤ op && op ≤ 0x1B) then { imm := immOk, mods := { gen := true } }
  else { imm := immOk, bare := (0x50 ≤ op && op ≤ 0x5F) || op == 0x1E || (6 ≤ op && op ≤ 9) }

/-- Is an opcode a hint word's (R88)? -/
def hintOp (op : Nat) : Bool := decide (1 ≤ op ∧ op ≤ 4)

/-- Does a thread already hold the kind of a hint word pending (R88)? -/
def Hints.holds (h : Hints) (op : Nat) : Bool :=
  match op with
  | 1 => h.imm.isSome
  | 2 => h.dep.isSome
  | 3 => h.mod.isSome
  | 4 => h.sch.isSome
  | _ => false

/-- Does a word accept the hints its threads hold (R92, R95)? POL = TRAP is accepted only by words that bind no token. -/
def acceptsHints (op : Nat) (h : Hints) : Bool :=
  let a := acceptOf op
  (a.imm || h.imm.isNone) &&
  (match h.dep with
    | none => true
    | some d => a.dep && !(bindsToken op && d.pol == 1#2)) &&
  (match h.mod with
    | none => true
    | some m => !a.bare && a.mods.admits m)

/-! ## The checks of R99 -/

/-- What a word needs of its fields: reserved codes absent, scalar and vector runs (first register, length), and its target inside the code. -/
structure Need where
  codeOk : Bool := true
  sregs  : List (Nat × Nat) := []
  vregs  : List (Nat × Nat) := []
  target : Bool := true
  deriving DecidableEq, Repr

/-- A run of registers starts at a multiple of its length (R82). -/
def aligned (r : Nat × Nat) : Bool := r.1 % r.2 == 0

/-- The first detail code of R99 that applies to a word that decodes, from 0x04 on. -/
def Need.detail (n : Need) (x : Issue) : Option Nat :=
  if !acceptsHints x.op.toNat x.hints then some 4
  else if !n.codeOk then some 5
  else if n.sregs.any fun r => decide (192 ≤ r.1) then some 6
  else if n.vregs.any fun r => decide (x.vbud < r.1 + r.2) then some 7
  else if n.sregs.any (fun r => !aligned r || decide (192 < r.1 + r.2)) || n.vregs.any (fun r => !aligned r) then some 8
  else if !n.target then some 9
  else none

/-- The issue that is being executed (R114), for a word with an opcode and a settle bit. -/
def State.issue? (s : State) (op : Nat) (st : Bool) : Option Issue :=
  match s.group? s.sel.grp with
  | none => none
  | some g =>
    let t := g.thread (s.sel.lanes.headD 0)
    let img := s.groupCode g
    let order := (s.team? g.team).bind fun t => t.stop
    some { g := g, lanes := s.sel.lanes, pc := t.pc, hints := t.hints, op := BitVec.ofNat 8 op, st := st, codeLen := img.codeLen,
           vbud := s.budget g, handler := img.trap, stops := if order.isSome then img.pe.zipIdx.map fun (e, i) => (e.pcoff, i) else []
           full := (order.map fun o => o.full || g.full).getD false
           slow := s.sel.lanes.filter fun l => !(trackers s g.uid l 0 ++ trackers s g.uid l 1).isEmpty }

/-- A word runs for its issue set: the checks of R99 first, then its effect. Nothing issues without a group. -/
def runWord (s : State) (op : Nat) (st : Bool) (need : Issue → Need) (body : Issue → State → State) : Host.Outcome State Fault Refusal :=
  match s.issue? op st with
  | none => .fault .noIssueSet
  | some x =>
    match (need x).detail x with
    | some d => .next (s.illegal x d)
    | none => .next (body x s)

/-! ## Shapes of effects -/

/-- Every lane of the issue set, by a function of the lane and its thread. -/
def eachLane (x : Issue) (f : Nat → Thread → Out) : List (Nat × Out) := x.lanes.map fun l => (l, f l (x.g.thread l))

/-- A lane's outcome, unless a register it reads or writes is the target of a token still PEND: then it parks before the word (R118, R121). -/
def whenFree (s : State) (x : Issue) (lane : Nat) (regs : List Nat) (o : Out) : Out :=
  match regs.flatMap fun r => trackers s x.g.uid lane r with
  | [] => o
  | ids => .park .tokenTarget (.ops ids)

/-- The lanes that take part in a word that combines lanes: guard true, and not parked on their own token targets (R118, R134, R181). -/
def partLanes (s : State) (x : Issue) (guard : Nat) (regs : List Nat) : List Nat :=
  x.lanes.filter fun l => takesPart x.hints guard (x.g.thread l) && (regs.flatMap fun r => trackers s x.g.uid l r).isEmpty

/-- A word with one bit for each lane of a list. -/
def laneMask (ls : List Nat) : Word := ls.foldl (fun m l => m ||| (1#32 <<< l)) 0#32

/-- A lane goes on to the next word unchanged. -/
def skipLane (x : Issue) (t : Thread) : Out := .go t (.fall x.pc)

/-- Every lane goes on to the next word. -/
def allGo (x : Issue) : List (Nat × Out) := eachLane x fun _ t => skipLane x t

/-- Every lane parks before the word. -/
def allPark (x : Issue) (r : Reason) (w : Wake) : List (Nat × Out) := eachLane x fun _ _ => .park r w

/-- Every lane takes a trap. -/
def allTrap (x : Issue) (code : Word) : List (Nat × Out) := eachLane x fun _ _ => .trap code 0#64 0

/-- The run of `n` registers from a first one. -/
def regRun (r n : Nat) : List Nat := (List.range n).map fun i => r + i

/-- A per-lane word over vector registers: guard-true lanes act, unless they park on a token target; the others pass (R84, R126). -/
def vectorWord (s : State) (x : Issue) (guard : Nat) (regs : List Nat) (f : Nat → Thread → Thread) : State :=
  s.commit x (eachLane x fun l t =>
    if takesPart x.hints guard t then whenFree s x l regs (.go (f l t) (.fall x.pc)) else skipLane x t)

/-- A long-class result of a lane, pending until its segment closes (R121); every word has its own number. -/
def Thread.long (t : Thread) (x : Issue) (wid : Nat) (te : BitVec 5) (d : Dest) (val : Word) (fl : FFlags) : Thread :=
  { t with pend := t.pend ++ [{ dest := d, val := val, flags := fl, te := te, pc := x.pc, wid := wid, op := x.op }] }

/-- A long-class write to a register that an earlier long-class result is pending for: that result is discarded when it would be applied, since the
later one is applied after it; both stay in issue order (R121). -/
def Thread.longV (t : Thread) (x : Issue) (wid : Nat) (te : BitVec 5) (n : Nat) (r : Word × FFlags) : Thread := t.long x wid te (.v n) r.1 r.2

/-- The trap enables of FPST (R159). -/
def trapEnables (g : Group) : BitVec 5 := g.fpst.extractLsb' 8 5

/-- A per-lane word with one long-class vector result. -/
def longWord (s : State) (x : Issue) (guard : Nat) (regs : List Nat) (d : Nat) (f : Nat → Thread → Word × FFlags) : State :=
  vectorWord s.bump x guard regs fun l t => t.longV x s.nextId (trapEnables x.g) d (f l t)

/-- A word that executes once for its issue set on the group's scalar state; every lane goes on (R136). -/
def scalarWord (s : State) (x : Issue) (f : Group → Group) : State := (s.modGroup x.g.uid f).commit x (allGo x)

/-! ## The precondition gate (R92) -/

/-- The operations that a word samples as preconditions: those bound to the named tokens that are not IDLE; a finished one with its end. -/
def samplePre (g : Group) (d : DepHint) : List Pre :=
  ((List.range 16).filter fun i => d.mask.getLsbD i && (g.token i).st != .idle).map fun i =>
    { k := i, op := (g.token i).op, res := if (g.token i).st == .pend then none else some ((g.token i).st, (g.token i).cause) }

/-- Does a finished precondition count as failed, and with which cause (R92)? -/
def preBad (badp : Bool) (p : Pre) : Option (BitVec 8) :=
  match p.res with
  | some (.poison, c) => some c
  | some (.doneBad, _) => if badp then some 0x18#8 else none
  | _ => none

/-- The cause of the failed precondition with the lowest token number (R92). -/
def firstBad (badp : Bool) (ps : List Pre) : Option (BitVec 8) := ps.findSome? (preBad badp)

/-- How the gate of a word that binds no token opens (R92): it parks, is skipped, traps, or runs. -/
inductive Gate where
  | run
  | skip
  | park (ids : List Nat)
  | trap (code : Word)
  deriving DecidableEq, Repr

/-- The gate of the pending `HDEP` for a word that binds no token. A word that has parked on its preconditions samples the tokens anew as it re-issues (log
entry 149). -/
def gateOf (x : Issue) : Gate :=
  match x.hints.dep with
  | none => .run
  | some d =>
    let ps := samplePre x.g d
    let open_ := ps.filter fun p => p.res.isNone
    if !open_.isEmpty then .park (open_.map (·.op))
    else match firstBad d.badp ps with
      | none => .run
      | some c => if d.pol == 2#2 then .run else if d.pol == 0#2 then .skip else .trap (0x40010000#32 + BitVec.setWidth 32 c)

/-- A word that binds no token runs behind its gate. -/
def gated (x : Issue) (s : State) (body : State → State) : State :=
  match gateOf x with
  | .run => body s
  | .skip => s.commit x (allGo x)
  | .park ids => s.commit x (allPark x .precondition (.ops ids))
  | .trap code => s.commit x (allTrap x code)

/-! ## Binding a token (R216) -/

/-- The operation last bound to a PEND token is detached (R216). -/
def State.detach (s : State) (g : Group) (k : Nat) : State :=
  if (g.token k).st == .pend then s.modOp (g.token k).op fun o => { o with bound := false } else s

/-- A word binds kd for its issue set: preconditions are sampled, an earlier operation is detached, and the token is PEND (R92, R216). The operation is
given by its kind and by what else the word gives it; the result names it. -/
def State.bindWith (s : State) (x : Issue) (k : Nat) (kind : OpKind) (f : Op → Op) : Nat × State :=
  let id := s.nextId
  let pre := match x.hints.dep with
    | some d => samplePre x.g d
    | none => []
  let d := x.hints.dep.getD { mask := 0#16, pol := 0#2, badp := false }
  let o : Op := { id := id, asid := x.g.asid, launch := x.g.launch, team := x.g.team, grp := x.g.uid, lanes := x.lanes, kd := k, seq := x.g.seq,
                  pc := x.pc, kind := kind, pre := pre, pol := d.pol, badp := d.badp, issuedAt := s.timeNs }
  let s := (s.bump.detach x.g k)
  let s := s.modGroup x.g.uid fun g => { g.setToken k { st := .pend, op := id } with seq := g.seq + 1 }
  (id, { s with ops := s.ops ++ [f o] })

/-- A word binds kd to an operation of a kind. -/
def State.bind (s : State) (x : Issue) (k : Nat) (kind : OpKind) : Nat × State := s.bindWith x k kind fun o => o

/-- An engine command enters its context's engine queue (R218). -/
def State.enqueue (s : State) (asid id : Nat) : State := s.modCtx asid fun c => { c with engq := c.engq ++ [id] }

/-- The preconditions of an operation hold when none is PEND (R92, R219). -/
def Op.ready (o : Op) : Bool := o.pre.all fun p => p.res.isSome

/-- The cause with which an operation is skipped (R92); none when it is performed. -/
def Op.skipCause (o : Op) : Option (BitVec 8) := if o.pol == 2#2 then none else firstBad o.badp o.pre

/-- The words of the issue set's scalar operands read at issue (R121). -/
def sargs (g : Group) (r n : Nat) : List Word := (List.range n).map fun i => g.sget (r + i)

end Sys2Proof.Machine
end

