-- ==== Sys2Proof/Machine/System.lean ====
section
/-!
DEFINITION. The meanings of the system words: `SYSRD` and `SYSWR` (R373, R374, R426), `PERF` (R415 to R417) and `DRAIN` (R365).
-/
namespace Sys2Proof.Machine
open Sys2Proof

/-- The system registers that R374 and R426 assign. -/
def sysAssigned (n : Nat) : Bool := [0x00, 0x01, 0x02, 0x03, 0x08, 0x09, 0x0A, 0x10, 0x40, 0x41, 0x42, 0x43, 0x44].contains n

/-- PLACE (R76). -/
def placeWord (s : State) (g : Group) : Word :=
  let sp := match s.team? g.team with
    | some t => if t.spLines = 0 then 0 else t.spBase
    | none => 0
  BitVec.ofNat 32 (g.core * 2 ^ 24 + g.part * 2 ^ 20 + g.slot * 2 ^ 17 + sp)

/-- PREQ (R374): PEND while a stop is ordered and its save has not begun, FULL while a forced full save of the team, or of a group of it, is. -/
def preqWord (s : State) (g : Group) : Word :=
  match (s.team? g.team).bind (·.stop) with
  | some o => if o.full || s.groups.any (fun x => x.team == g.team && x.full) then 3#32 else 1#32
  | none => 0#32

/-- CLK (R426): the die's clock, and the highest step allowed: 3.3 GHz, the step it stands at while a cause of R424 holds, or the floor
(log entry 22). -/
def clkWord (d : Die) : Word := BitVec.ofNat 32 (d.clk + (if d.hold then 10 else if d.limited then d.clk else 33) * 256)

/-- What `SYSRD` of a register returns. -/
def sysValue (s : State) (g : Group) (n : Nat) : Word :=
  let d := s.die (dieOf g.core)
  match n with
  | 0x00 => BitVec.ofNat 32 d.cycles
  | 0x01 => g.cycHi
  | 0x02 => BitVec.ofNat 32 s.timeNs
  | 0x03 => g.timHi
  | 0x08 => placeWord s g
  | 0x09 => BitVec.ofNat 32 (s.devid * 2 ^ 22 + g.asid * 2 ^ 13)
  | 0x0A => preqWord s g
  | 0x10 => g.fpst
  | 0x40 => clkWord d
  | 0x41 => BitVec.ofNat 32 (bitsOf s.pwr 0 16 + s.limitW * 2 ^ 16)
  | 0x42 => BitVec.ofNat 32 (bitsOf d.temp 0 8 + bitsOf s.tempUmber 0 8 * 2 ^ 8 + bitsOf s.tempHbm 0 8 * 2 ^ 16)
  | 0x43 => BitVec.ofNat 32 (d.thrt / 1000)
  | 0x44 => if d.hold then 1#32 else 0#32
  | _ => 0#32

/-- The group after a `SYSRD`: a read of CYCLO or TIMLO latches the high half (R374). -/
def sysLatch (s : State) (n : Nat) (g : Group) : Group :=
  if n = 0x00 then { g with cycHi := BitVec.ofNat 32 ((s.die (dieOf g.core)).cycles / 2 ^ 32) }
  else if n = 0x02 then { g with timHi := BitVec.ofNat 32 (s.timeNs / 2 ^ 32) }
  else g

/-- `SYSRD` (R373). A read of FPST parks the issue set while a thread of it holds pending results (R160). -/
def execSysrd (st : Bool) (d : BitVec 8) (n : BitVec 15) (s : State) : Host.Outcome State Fault Refusal :=
  runWord s 0x07 st (fun _ => { codeOk := sysAssigned n.toNat, sregs := [(d.toNat, 1)] }) fun x s =>
    if n == 0x10#15 && x.lanes.any fun l => !(x.g.thread l).pend.isEmpty then s.commit x (allPark x .settle (.settles x.lanes))
    else scalarWord s x fun g => (sysLatch s n.toNat g).sset d.toNat (sysValue s x.g n.toNat)

/-- FPST after a `SYSWR` (R159): HF and TE are written, and each FLAGS bit written as 1 is cleared. -/
def fpstWrite (old w : Word) : Word := (w &&& 0x00009F00#32) ||| (old &&& ~~~w &&& 0x0000001F#32)

/-- `SYSWR` (R373): FPST is the one register with RW fields. -/
def execSyswr (st : Bool) (d : BitVec 8) (n : BitVec 15) (s : State) : Host.Outcome State Fault Refusal :=
  runWord s 0x08 st (fun _ => { codeOk := n == 0x10#15, sregs := [(d.toNat, 1)] }) fun x s =>
    scalarWord s x fun g => { g with fpst := fpstWrite g.fpst (x.g.sget d.toNat) }

/-- A counter; one that nothing has set is OFF and zero (R415; log entry 23). -/
def State.counter (s : State) (core i : Nat) : Counter := (s.counters.find? fun c => c.core == core && c.idx == i).getD { core := core, idx := i }

/-- The state with a counter stored. -/
def State.putCounter (s : State) (c : Counter) : State :=
  { s with counters := c :: s.counters.filter fun x => !(x.core == c.core && x.idx == c.idx) }

/-- Has the group's context full access to a counter (R415)? -/
def Counter.opens (c : Counter) (asid : Nat) : Bool := c.mode == 2 && c.casid == asid

/-- A counter read by `PERF`, as it stood before the events of this cycle: [31:0] to sd, [47:32] into the group's latch; 0 without access (R415, R417). -/
def perfRead (s : State) (x : Issue) (d : Nat) (c : Counter) : State :=
  let v := if c.opens x.g.asid then c.before s.clockStamp else 0
  scalarWord s x fun g => { g.sset d (BitVec.ofNat 32 v) with perfHi := BitVec.ofNat 32 (v / 2 ^ 32) }

/-- A counter of the issuing core changed by `PERF`, with access (R415, R417). -/
def perfChange (s : State) (x : Issue) (n : Nat) (f : Counter → Counter) : State :=
  let c := s.counter x.g.core n
  (if c.opens x.g.asid then s.putCounter (f c) else s).commit x (allGo x)

/-- The fields that a `PERF` operation leaves unused are zero, its code is assigned, and a core counter is one of 8 (R417). -/
def perfOk (d a : BitVec 8) (o : BitVec 3) (n : BitVec 4) : Bool :=
  match o.toNat with
  | 0 => a == 0#8 && decide (n.toNat < 8)
  | 1 => a == 0#8 && decide (n.toNat < 8)
  | 2 => d == 0#8 && decide (n.toNat < 8)
  | 6 => a == 0#8
  | 7 => false
  | _ => d == 0#8 && a == 0#8 && decide (n.toNat < 8)

/-- `PERF` (R417). -/
def execPerf (st : Bool) (d a : BitVec 8) (o : BitVec 3) (n : BitVec 4) (s : State) : Host.Outcome State Fault Refusal :=
  runWord s 0x09 st (fun _ => { codeOk := perfOk d a o n, sregs := [(d.toNat, 1), (a.toNat, 1)] }) fun x s =>
    match o.toNat with
    | 0 => perfRead s x d.toNat (s.counter x.g.core n.toNat)
    | 1 => scalarWord s x fun g => g.sset d.toNat x.g.perfHi
    | 2 => perfChange s x n.toNat fun c =>
        { c with val := 0, base := 0, event := bitsOf (x.g.sget a.toNat).toNat 0 12, on := false
                 own := if (x.g.sget a.toNat).getLsbD 12 then some x.g.team else none }
    | 3 => perfChange s x n.toNat fun c => { c with val := 0, base := 0 }
    | 4 => perfChange s x n.toNat fun c => { c with on := true }
    | 5 => perfChange s x n.toNat fun c => { c with on := false }
    | _ => perfRead s x d.toNat (s.counter 0xFFFF n.toNat)

/-- `DRAIN` (R365): it binds kd; the step `QUIESCENCE_TIMER` finishes it. -/
def execDrain (st : Bool) (k : BitVec 4) (m : BitVec 3) (s : State) : Host.Outcome State Fault Refusal :=
  runWord s 0x0A st (fun _ => { codeOk := m == 0#3 || m == 5#3 || m == 6#3 }) fun x s =>
    ((s.bind x k.toNat (.drain (m == 6#3))).2).commit x (allGo x)

end Sys2Proof.Machine
end

