-- ==== Sys2Proof/Machine/Quiet.lean ====
section
/-!
DEFINITION. The quiescence tree (R364): whether a context is idle on the device, and the time since which it has been.
-/
namespace Sys2Proof.Machine
open Sys2Proof

/-- Does an operation keep its context from being idle (R364)? A `DRAIN` does not, nor does a `LAUNCH` whose command has left the engine queue: its launch
is pending. -/
def Op.holdsIdle (o : Op) : Bool := match o.kind with
  | .drain _ => false
  | .launch _ => !o.started
  | _ => true

/-- The context for which a read of the host is made: that of its operation, or of the group whose record it reads. -/
def State.readFor (s : State) (h : HostRead) : Option Nat := if h.op = 0 then (s.group? h.lane).map (·.asid) else (s.op? h.op).map (·.asid)

/-- Is the device idle for a context (R364)? -/
def State.idleFor (s : State) (asid : Nat) : Bool :=
  !(s.groups.any fun g => g.asid == asid && !g.sq.isEmpty) && !(s.ops.any fun o => o.asid == asid && o.holdsIdle) &&
  !(s.rtx.any fun r => r.asid == asid) && !(s.updates.any fun u => u.asid == asid) && !(s.doorbells.any fun d => d.asid == asid) &&
  !(s.hostReads.any fun h => s.readFor h == some asid) && !(s.mgmtHeld.any fun p => p.sasid.toNat == asid)

/-- The tree's observation of a state: contexts that are not idle are marked with the time (R364). -/
def State.observed (s : State) : State :=
  { s with contexts := mapIf (fun c => !s.idleFor c.asid) (fun c => { c with busyAt := s.timeNs }) s.contexts }

/-- Has the tree reported a context idle without a break for a time (R364)? -/
def State.quietFor (s : State) (asid ns : Nat) : Bool := match s.ctx? asid with
  | some c => s.idleFor asid && decide (c.busyAt + ns ≤ s.timeNs)
  | none => true

end Sys2Proof.Machine
end

