-- ==== Sys2Proof/Decode.lean ====
section
/-!
DEFINITION. Decoding: from the little-endian bytes of a word to an instruction or a rejection by name (R78, R79, R83, R88, R96 to R98), and
the encoder, written from the same field maps. A reserved bit rejects the word here; a reserved code in a field (a condition, a size, a
format) is found by the meaning of the word (R99, detail 0x05).
-/
namespace Sys2Proof

/-- Why a word has no instruction. -/
inductive Reject where
  /-- fewer than four bytes -/
  | short
  /-- an unassigned primary opcode (R98) -/
  | unassigned
  /-- a hint word with S = 1 (R88) -/
  | settledHint
  /-- a reserved bit is 1 (R83) -/
  | reservedBit
  deriving DecidableEq, Repr

/-- The field of `n` bits at bit `lo` of a word (R80). -/
def fld (w lo n : Nat) : BitVec n := BitVec.ofNat n (w / 2 ^ lo)

/-- The primary opcode OP (R79). -/
def opcodeOf (w : Nat) : Nat := w / 2 ^ 23 % 256

/-- The decoding of a word whose reserved bits must be zero (R83). -/
def guardZero (z : Bool) (i : Instr) : Except Reject Instr := if z then .ok i else .error .reservedBit

/-- The decoding of a hint word, which must have S = 0 (R88) and zero in its reserved bits. -/
def guardHint (w : Nat) (z : Bool) (i : Instr) : Except Reject Instr :=
  if bitOf w 31 then .error .settledHint else guardZero z i

/-- Opcodes 0x00 to 0x0F (R96, R97). -/
def decodeRow0 (w lo : Nat) : Except Reject Instr :=
  match lo with
  | 1 => guardHint w (true) (.himm (fld w 0 23))
  | 2 => guardHint w (bitsOf w 0 4 == 0) (.hdep (fld w 7 16) (fld w 5 2) (fld w 4 1))
  | 3 => guardHint w (bitsOf w 0 6 == 0) (.hmod (fld w 20 3) (fld w 19 1) (fld w 16 3) (fld w 13 3) (fld w 11 2) (fld w 10 1) (fld w 9 1) (fld w 6 3))
  | 4 => guardHint w (bitsOf w 0 19 == 0) (.hsch (fld w 20 3) (fld w 19 1))
  | 5 => guardZero (bitsOf w 0 23 == 0) (.nop (bitOf w 31))
  | 6 => guardZero (bitsOf w 16 7 == 0) (.trap (bitOf w 31) (fld w 0 16))
  | 7 => guardZero (true) (.sysrd (bitOf w 31) (fld w 15 8) (fld w 0 15))
  | 8 => guardZero (true) (.syswr (bitOf w 31) (fld w 15 8) (fld w 0 15))
  | 9 => guardZero (true) (.perf (bitOf w 31) (fld w 15 8) (fld w 7 8) (fld w 4 3) (fld w 0 4))
  | 10 => guardZero (bitsOf w 3 16 == 0) (.drain (bitOf w 31) (fld w 19 4) (fld w 0 3))
  | _ => .error .unassigned

/-- Opcodes 0x10 to 0x1F (R96, R97). -/
def decodeRow1 (w lo : Nat) : Except Reject Instr :=
  match lo with
  | 0 => guardZero (true) (.bra (bitOf w 31) (fld w 0 23))
  | 1 => guardZero (true) (.braQ0 (bitOf w 31) (fld w 0 23))
  | 2 => guardZero (true) (.braNotQ0 (bitOf w 31) (fld w 0 23))
  | 3 => guardZero (true) (.braQ1 (bitOf w 31) (fld w 0 23))
  | 4 => guardZero (true) (.braNotQ1 (bitOf w 31) (fld w 0 23))
  | 5 => guardZero (true) (.braQ2 (bitOf w 31) (fld w 0 23))
  | 6 => guardZero (true) (.braNotQ2 (bitOf w 31) (fld w 0 23))
  | 7 => guardZero (true) (.braQ3 (bitOf w 31) (fld w 0 23))
  | 8 => guardZero (true) (.braNotQ3 (bitOf w 31) (fld w 0 23))
  | 9 => guardZero (true) (.braP0 (bitOf w 31) (fld w 0 23))
  | 10 => guardZero (true) (.braNotP0 (bitOf w 31) (fld w 0 23))
  | 11 => guardZero (true) (.braP1 (bitOf w 31) (fld w 0 23))
  | 12 => guardZero (true) (.call (bitOf w 31) (fld w 0 23))
  | 13 => guardZero (bitsOf w 0 23 == 0) (.ret (bitOf w 31))
  | 14 => guardZero (bitsOf w 16 7 == 0) (.loop (bitOf w 31) (fld w 9 7) (fld w 0 9))
  | 15 => guardZero (bitsOf w 2 21 == 0) (.brk (bitOf w 31) (fld w 0 2))
  | _ => .error .unassigned

/-- Opcodes 0x20 to 0x2F (R96, R97). -/
def decodeRow2 (w lo : Nat) : Except Reject Instr :=
  match lo with
  | 0 => guardZero (bitsOf w 2 7 == 0 && bitsOf w 16 7 == 0) (.brx (bitOf w 31) (fld w 9 7) (fld w 0 2))
  | 1 => guardZero (bitsOf w 0 23 == 0) (.rcv (bitOf w 31))
  | 2 => guardZero (bitsOf w 0 23 == 0) (.yield (bitOf w 31))
  | 3 => guardZero (bitsOf w 2 21 == 0) (.exit (bitOf w 31) (fld w 0 2))
  | 4 => guardZero (bitsOf w 5 4 == 0 && bitsOf w 12 3 == 0) (.plop (bitOf w 31) (fld w 19 4) (fld w 16 3) (fld w 15 1) (fld w 9 3) (fld w 2 3) (fld w 0 2))
  | 5 => guardZero (bitsOf w 5 2 == 0 && bitsOf w 9 7 == 0) (.vote (bitOf w 31) (fld w 16 7) (fld w 7 2) (fld w 2 3) (fld w 0 2))
  | 6 => guardZero (bitsOf w 0 1 == 0 && bitsOf w 21 2 == 0) (.vtos (bitOf w 31) (fld w 16 5) (fld w 9 7) (fld w 1 8))
  | _ => .error .unassigned

/-- Opcodes 0x30 to 0x3F (R96, R97). -/
def decodeRow3 (w lo : Nat) : Except Reject Instr :=
  match lo with
  | 0 => guardZero (true) (.iadd (bitOf w 31) (fld w 16 7) (fld w 9 7) (fld w 2 7) (fld w 0 2))
  | 1 => guardZero (true) (.isub (bitOf w 31) (fld w 16 7) (fld w 9 7) (fld w 2 7) (fld w 0 2))
  | 2 => guardZero (true) (.imul (bitOf w 31) (fld w 16 7) (fld w 9 7) (fld w 2 7) (fld w 0 2))
  | 3 => guardZero (true) (.imulh (bitOf w 31) (fld w 16 7) (fld w 9 7) (fld w 2 7) (fld w 0 2))
  | 4 => guardZero (true) (.imad (bitOf w 31) (fld w 16 7) (fld w 9 7) (fld w 2 7) (fld w 0 2))
  | 5 => guardZero (true) (.imin (bitOf w 31) (fld w 16 7) (fld w 9 7) (fld w 2 7) (fld w 0 2))
  | 6 => guardZero (true) (.imax (bitOf w 31) (fld w 16 7) (fld w 9 7) (fld w 2 7) (fld w 0 2))
  | 7 => guardZero (bitsOf w 2 7 == 0) (.iabs (bitOf w 31) (fld w 16 7) (fld w 9 7) (fld w 0 2))
  | 8 => guardZero (bitsOf w 2 7 == 0) (.ineg (bitOf w 31) (fld w 16 7) (fld w 9 7) (fld w 0 2))
  | 9 => guardZero (true) (.and (bitOf w 31) (fld w 16 7) (fld w 9 7) (fld w 2 7) (fld w 0 2))
  | 10 => guardZero (true) (.or (bitOf w 31) (fld w 16 7) (fld w 9 7) (fld w 2 7) (fld w 0 2))
  | 11 => guardZero (true) (.xor (bitOf w 31) (fld w 16 7) (fld w 9 7) (fld w 2 7) (fld w 0 2))
  | 12 => guardZero (bitsOf w 2 7 == 0) (.not (bitOf w 31) (fld w 16 7) (fld w 9 7) (fld w 0 2))
  | 13 => guardZero (true) (.shl (bitOf w 31) (fld w 16 7) (fld w 9 7) (fld w 2 7) (fld w 0 2))
  | 14 => guardZero (true) (.shr (bitOf w 31) (fld w 16 7) (fld w 9 7) (fld w 2 7) (fld w 0 2))
  | 15 => guardZero (true) (.sar (bitOf w 31) (fld w 16 7) (fld w 9 7) (fld w 2 7) (fld w 0 2))
  | _ => .error .unassigned

/-- Opcodes 0x40 to 0x4F (R96, R97). -/
def decodeRow4 (w lo : Nat) : Except Reject Instr :=
  match lo with
  | 0 => guardZero (bitsOf w 2 7 == 0) (.popc (bitOf w 31) (fld w 16 7) (fld w 9 7) (fld w 0 2))
  | 1 => guardZero (bitsOf w 2 7 == 0) (.clz (bitOf w 31) (fld w 16 7) (fld w 9 7) (fld w 0 2))
  | 2 => guardZero (bitsOf w 2 7 == 0) (.brev (bitOf w 31) (fld w 16 7) (fld w 9 7) (fld w 0 2))
  | 3 => guardZero (true) (.bfe (bitOf w 31) (fld w 16 7) (fld w 9 7) (fld w 2 7) (fld w 0 2))
  | 4 => guardZero (true) (.bfi (bitOf w 31) (fld w 16 7) (fld w 9 7) (fld w 2 7) (fld w 0 2))
  | 5 => guardZero (true) (.sel (bitOf w 31) (fld w 16 7) (fld w 9 7) (fld w 2 7) (fld w 0 2))
  | 6 => guardZero (bitsOf w 2 7 == 0) (.mov (bitOf w 31) (fld w 16 7) (fld w 9 7) (fld w 0 2))
  | 7 => guardZero (true) (.icmp (bitOf w 31) (fld w 19 4) (fld w 16 3) (fld w 9 7) (fld w 2 7) (fld w 0 2))
  | 8 => guardZero (true) (.lea (bitOf w 31) (fld w 16 7) (fld w 9 7) (fld w 2 7) (fld w 0 2))
  | 9 => guardZero (true) (.iaddImm (bitOf w 31) (fld w 16 7) (fld w 9 7) (fld w 0 9))
  | 10 => guardZero (bitsOf w 5 4 == 0) (.shlImm (bitOf w 31) (fld w 16 7) (fld w 9 7) (fld w 0 5))
  | 11 => guardZero (true) (.icmpImm (bitOf w 31) (fld w 19 4) (fld w 16 3) (fld w 9 7) (fld w 0 9))
  | 12 => guardZero (true) (.movi (bitOf w 31) (fld w 16 7) (fld w 0 16))
  | 13 => guardZero (true) (.iaddScalar (bitOf w 31) (fld w 16 7) (fld w 9 7) (fld w 1 8) (fld w 0 1))
  | 14 => guardZero (bitsOf w 9 7 == 0) (.movScalar (bitOf w 31) (fld w 16 7) (fld w 1 8) (fld w 0 1))
  | _ => .error .unassigned

/-- Opcodes 0x50 to 0x5F (R96, R97). -/
def decodeRow5 (w lo : Nat) : Except Reject Instr :=
  match lo with
  | 0 => guardZero (true) (.sadd (bitOf w 31) (fld w 15 8) (fld w 7 8) (fld w 0 7))
  | 1 => guardZero (true) (.saddImm (bitOf w 31) (fld w 15 8) (fld w 7 8) (fld w 0 7))
  | 2 => guardZero (true) (.ssub (bitOf w 31) (fld w 15 8) (fld w 7 8) (fld w 0 7))
  | 3 => guardZero (true) (.smul (bitOf w 31) (fld w 15 8) (fld w 7 8) (fld w 0 7))
  | 4 => guardZero (true) (.slogAnd (bitOf w 31) (fld w 15 8) (fld w 7 8) (fld w 0 7))
  | 5 => guardZero (true) (.slogOr (bitOf w 31) (fld w 15 8) (fld w 7 8) (fld w 0 7))
  | 6 => guardZero (true) (.slogXor (bitOf w 31) (fld w 15 8) (fld w 7 8) (fld w 0 7))
  | 7 => guardZero (true) (.slogAndn (bitOf w 31) (fld w 15 8) (fld w 7 8) (fld w 0 7))
  | 8 => guardZero (true) (.sshfShl (bitOf w 31) (fld w 15 8) (fld w 7 8) (fld w 0 7))
  | 9 => guardZero (true) (.sshfShr (bitOf w 31) (fld w 15 8) (fld w 7 8) (fld w 0 7))
  | 10 => guardZero (true) (.sshfSar (bitOf w 31) (fld w 15 8) (fld w 7 8) (fld w 0 7))
  | 11 => guardZero (true) (.sshfImm (bitOf w 31) (fld w 15 8) (fld w 7 8) (fld w 5 2) (fld w 0 5))
  | 12 => guardZero (bitsOf w 0 7 == 0) (.smov (bitOf w 31) (fld w 15 8) (fld w 7 8))
  | 13 => guardZero (true) (.smovi (bitOf w 31) (fld w 15 8) (fld w 0 15))
  | 14 => guardZero (bitsOf w 17 2 == 0) (.scmp (bitOf w 31) (fld w 19 4) (fld w 15 2) (fld w 7 8) (fld w 0 7))
  | 15 => guardZero (bitsOf w 17 2 == 0) (.scmpImm (bitOf w 31) (fld w 19 4) (fld w 15 2) (fld w 7 8) (fld w 0 7))
  | _ => .error .unassigned

/-- Opcodes 0x60 to 0x6F (R96, R97). -/
def decodeRow6 (w lo : Nat) : Except Reject Instr :=
  match lo with
  | 0 => guardZero (true) (.fadd (bitOf w 31) (fld w 16 7) (fld w 9 7) (fld w 2 7) (fld w 0 2))
  | 1 => guardZero (true) (.fsub (bitOf w 31) (fld w 16 7) (fld w 9 7) (fld w 2 7) (fld w 0 2))
  | 2 => guardZero (true) (.fmul (bitOf w 31) (fld w 16 7) (fld w 9 7) (fld w 2 7) (fld w 0 2))
  | 3 => guardZero (true) (.ffma (bitOf w 31) (fld w 16 7) (fld w 9 7) (fld w 2 7) (fld w 0 2))
  | 4 => guardZero (true) (.fmin (bitOf w 31) (fld w 16 7) (fld w 9 7) (fld w 2 7) (fld w 0 2))
  | 5 => guardZero (true) (.fmax (bitOf w 31) (fld w 16 7) (fld w 9 7) (fld w 2 7) (fld w 0 2))
  | 6 => guardZero (true) (.fcmp (bitOf w 31) (fld w 19 4) (fld w 16 3) (fld w 9 7) (fld w 2 7) (fld w 0 2))
  | 7 => guardZero (bitsOf w 2 7 == 0) (.frcp (bitOf w 31) (fld w 16 7) (fld w 9 7) (fld w 0 2))
  | 8 => guardZero (bitsOf w 2 7 == 0) (.frsq (bitOf w 31) (fld w 16 7) (fld w 9 7) (fld w 0 2))
  | 9 => guardZero (bitsOf w 2 7 == 0) (.fex2 (bitOf w 31) (fld w 16 7) (fld w 9 7) (fld w 0 2))
  | 10 => guardZero (bitsOf w 2 7 == 0) (.flg2 (bitOf w 31) (fld w 16 7) (fld w 9 7) (fld w 0 2))
  | 11 => guardZero (bitsOf w 2 7 == 0) (.fcls (bitOf w 31) (fld w 16 7) (fld w 9 7) (fld w 0 2))
  | 12 => guardZero (bitsOf w 2 7 == 0) (.frnd (bitOf w 31) (fld w 16 7) (fld w 9 7) (fld w 0 2))
  | 13 => guardZero (true) (.hadd2 (bitOf w 31) (fld w 16 7) (fld w 9 7) (fld w 2 7) (fld w 0 2))
  | 14 => guardZero (true) (.hmul2 (bitOf w 31) (fld w 16 7) (fld w 9 7) (fld w 2 7) (fld w 0 2))
  | 15 => guardZero (true) (.hfma2 (bitOf w 31) (fld w 16 7) (fld w 9 7) (fld w 2 7) (fld w 0 2))
  | _ => .error .unassigned

/-- Opcodes 0x70 to 0x7F (R96, R97). -/
def decodeRow7 (w lo : Nat) : Except Reject Instr :=
  match lo with
  | 0 => guardZero (bitsOf w 0 1 == 0) (.cvt (bitOf w 31) (fld w 16 7) (fld w 9 7) (fld w 5 4) (fld w 1 4))
  | 1 => guardZero (true) (.pack (bitOf w 31) (fld w 16 7) (fld w 9 7) (fld w 5 4) (fld w 0 5))
  | 2 => guardZero (true) (.unpk (bitOf w 31) (fld w 16 7) (fld w 9 7) (fld w 5 4) (fld w 0 5))
  | 3 => guardZero (bitsOf w 0 3 == 0) (.qnt (bitOf w 31) (fld w 16 7) (fld w 9 7) (fld w 5 4) (fld w 3 2))
  | 4 => guardZero (true) (.sclx (bitOf w 31) (fld w 16 7) (fld w 9 7) (fld w 2 7) (fld w 0 2))
  | 8 => guardZero (true) (.dqntE4m3 (bitOf w 31) (fld w 16 7) (fld w 9 7) (fld w 2 7) (fld w 0 2))
  | 9 => guardZero (true) (.dqntE5m2 (bitOf w 31) (fld w 16 7) (fld w 9 7) (fld w 2 7) (fld w 0 2))
  | 10 => guardZero (true) (.dqntE2m3 (bitOf w 31) (fld w 16 7) (fld w 9 7) (fld w 2 7) (fld w 0 2))
  | 11 => guardZero (true) (.dqntE3m2 (bitOf w 31) (fld w 16 7) (fld w 9 7) (fld w 2 7) (fld w 0 2))
  | 12 => guardZero (true) (.dqntE2m1 (bitOf w 31) (fld w 16 7) (fld w 9 7) (fld w 2 7) (fld w 0 2))
  | 13 => guardZero (true) (.dqntSx4 (bitOf w 31) (fld w 16 7) (fld w 9 7) (fld w 2 7) (fld w 0 2))
  | 14 => guardZero (true) (.dqntI8 (bitOf w 31) (fld w 16 7) (fld w 9 7) (fld w 2 7) (fld w 0 2))
  | _ => .error .unassigned

/-- Opcodes 0x80 to 0x8F (R96, R97). -/
def decodeRow8 (w lo : Nat) : Except Reject Instr :=
  match lo with
  | 0 => guardZero (bitsOf w 4 5 == 0) (.xpat (bitOf w 31) (fld w 16 7) (fld w 9 7) (fld w 0 4))
  | 1 => guardZero (true) (.xperm (bitOf w 31) (fld w 16 7) (fld w 9 7) (fld w 2 7) (fld w 0 2))
  | 2 => guardZero (bitsOf w 5 2 == 0) (.shfl (bitOf w 31) (fld w 16 7) (fld w 9 7) (fld w 7 2) (fld w 0 5))
  | 3 => guardZero (true) (.scan (bitOf w 31) (fld w 16 7) (fld w 9 7) (fld w 5 4) (fld w 1 4) (fld w 0 1))
  | 4 => guardZero (bitsOf w 0 1 == 0) (.rdx (bitOf w 31) (fld w 16 7) (fld w 9 7) (fld w 5 4) (fld w 1 4))
  | _ => .error .unassigned

/-- Opcodes 0x90 to 0x9F (R96, R97). -/
def decodeRow9 (w lo : Nat) : Except Reject Instr :=
  match lo with
  | 0 => guardZero (true) (.ld (bitOf w 31) (fld w 16 7) (fld w 9 7) (fld w 5 4) (fld w 2 3) (fld w 0 2))
  | 1 => guardZero (true) (.st (bitOf w 31) (fld w 16 7) (fld w 9 7) (fld w 5 4) (fld w 2 3) (fld w 0 2))
  | 2 => guardZero (bitsOf w 5 4 == 0) (.lds (bitOf w 31) (fld w 16 7) (fld w 9 7) (fld w 2 3) (fld w 0 2))
  | 3 => guardZero (bitsOf w 5 4 == 0) (.sts (bitOf w 31) (fld w 16 7) (fld w 9 7) (fld w 2 3) (fld w 0 2))
  | 4 => guardZero (true) (.atom (bitOf w 31) (fld w 16 7) (fld w 9 7) (fld w 5 4) (fld w 4 1) (fld w 3 1) (fld w 0 3))
  | 5 => guardZero (bitsOf w 0 3 == 0) (.acas (bitOf w 31) (fld w 16 7) (fld w 9 7) (fld w 5 4) (fld w 4 1) (fld w 3 1))
  | 6 => guardZero (bitsOf w 5 4 == 0 && bitsOf w 18 5 == 0) (.prf (bitOf w 31) (fld w 16 2) (fld w 9 7) (fld w 2 3) (fld w 0 2))
  | 7 => guardZero (bitsOf w 4 12 == 0 && bitsOf w 19 4 == 0) (.fence (bitOf w 31) (fld w 16 3) (fld w 2 2) (fld w 0 2))
  | 8 => guardZero (bitsOf w 18 5 == 0) (.cflush (bitOf w 31) (fld w 16 2) (fld w 9 7) (fld w 5 4) (fld w 2 3) (fld w 0 2))
  | 9 => guardZero (bitsOf w 2 7 == 0) (.ptst (bitOf w 31) (fld w 16 7) (fld w 9 7) (fld w 0 2))
  | 10 => guardZero (bitsOf w 2 3 == 0) (.ldt (bitOf w 31) (fld w 16 7) (fld w 9 7) (fld w 5 4) (fld w 0 2))
  | 11 => guardZero (bitsOf w 2 3 == 0) (.stt (bitOf w 31) (fld w 16 7) (fld w 9 7) (fld w 5 4) (fld w 0 2))
  | _ => .error .unassigned

/-- Opcodes 0xA0 to 0xAF (R96, R97). -/
def decodeRowA (w lo : Nat) : Except Reject Instr :=
  match lo with
  | 0 => guardZero (bitsOf w 19 1 == 0) (.wait (bitOf w 31) (fld w 21 2) (fld w 20 1) (fld w 3 16) (fld w 2 1) (fld w 1 1) (fld w 0 1))
  | 1 => guardZero (bitsOf w 2 6 == 0) (.waitc (bitOf w 31) (fld w 19 4) (fld w 11 8) (fld w 9 2) (fld w 8 1) (fld w 1 1) (fld w 0 1))
  | 2 => guardZero (bitsOf w 1 2 == 0) (.tst (bitOf w 31) (fld w 19 4) (fld w 11 8) (fld w 3 8) (fld w 0 1))
  | 3 => guardZero (bitsOf w 0 3 == 0 && bitsOf w 19 4 == 0) (.tclr (bitOf w 31) (fld w 3 16))
  | 4 => guardZero (bitsOf w 2 1 == 0) (.texp (bitOf w 31) (fld w 19 4) (fld w 11 8) (fld w 3 8) (fld w 1 1) (fld w 0 1))
  | 5 => guardZero (bitsOf w 0 3 == 0) (.binit (bitOf w 31) (fld w 19 4) (fld w 11 8) (fld w 3 8))
  | 6 => guardZero (bitsOf w 2 1 == 0) (.arv (bitOf w 31) (fld w 19 4) (fld w 11 8) (fld w 3 8) (fld w 1 1) (fld w 0 1))
  | 7 => guardZero (bitsOf w 2 1 == 0 && bitsOf w 19 1 == 0) (.bwait (bitOf w 31) (fld w 21 2) (fld w 20 1) (fld w 11 8) (fld w 3 8) (fld w 1 1) (fld w 0 1))
  | 8 => guardZero (bitsOf w 0 3 == 0 && bitsOf w 19 2 == 0) (.bpoll (bitOf w 31) (fld w 21 2) (fld w 11 8) (fld w 3 8))
  | _ => .error .unassigned

/-- Opcodes 0xB0 to 0xBF (R96, R97). -/
def decodeRowB (w lo : Nat) : Except Reject Instr :=
  match lo with
  | 0 => guardZero (bitsOf w 2 1 == 0) (.cpy (bitOf w 31) (fld w 19 4) (fld w 11 8) (fld w 3 8) (fld w 1 1) (fld w 0 1))
  | 1 => guardZero (bitsOf w 0 11 == 0) (.launch (bitOf w 31) (fld w 19 4) (fld w 11 8))
  | 2 => guardZero (bitsOf w 3 8 == 0 && bitsOf w 19 4 == 0) (.sacq (bitOf w 31) (fld w 11 8) (fld w 0 3))
  | 3 => guardZero (bitsOf w 19 4 == 0) (.spop (bitOf w 31) (fld w 11 8) (fld w 3 8) (fld w 0 3))
  | 4 => guardZero (bitsOf w 4 7 == 0 && bitsOf w 19 4 == 0) (.srel (bitOf w 31) (fld w 11 8) (fld w 3 1) (fld w 0 3))
  | 8 => guardZero (bitsOf w 2 1 == 0) (.kvld (bitOf w 31) (fld w 19 4) (fld w 11 8) (fld w 3 8) (fld w 1 1) (fld w 0 1))
  | 9 => guardZero (bitsOf w 0 3 == 0) (.kvseal (bitOf w 31) (fld w 19 4) (fld w 11 8) (fld w 3 8))
  | 10 => guardZero (bitsOf w 0 3 == 0) (.kvhdr (bitOf w 31) (fld w 19 4) (fld w 11 8) (fld w 3 8))
  | 12 => guardZero (bitsOf w 0 3 == 0) (.coll (bitOf w 31) (fld w 19 4) (fld w 11 8) (fld w 3 8))
  | 13 => guardZero (bitsOf w 0 3 == 0) (.mcst (bitOf w 31) (fld w 19 4) (fld w 11 8) (fld w 3 8))
  | 14 => guardZero (bitsOf w 0 3 == 0) (.rte (bitOf w 31) (fld w 19 4) (fld w 11 8) (fld w 3 8))
  | 15 => guardZero (bitsOf w 0 3 == 0) (.rtc (bitOf w 31) (fld w 19 4) (fld w 11 8) (fld w 3 8))
  | _ => .error .unassigned

/-- Opcodes 0xC0 to 0xCF (R96, R97). -/
def decodeRowC (w lo : Nat) : Except Reject Instr :=
  match lo with
  | 0 => guardZero (true) (.mmaBf16 (bitOf w 31) (fld w 19 4) (fld w 14 5) (fld w 7 7) (fld w 0 7))
  | 1 => guardZero (true) (.mmaF16 (bitOf w 31) (fld w 19 4) (fld w 14 5) (fld w 7 7) (fld w 0 7))
  | 2 => guardZero (true) (.mmaE4m3 (bitOf w 31) (fld w 19 4) (fld w 14 5) (fld w 7 7) (fld w 0 7))
  | 3 => guardZero (true) (.mmaE5m2 (bitOf w 31) (fld w 19 4) (fld w 14 5) (fld w 7 7) (fld w 0 7))
  | 4 => guardZero (true) (.mmaE2m3 (bitOf w 31) (fld w 19 4) (fld w 14 5) (fld w 7 7) (fld w 0 7))
  | 5 => guardZero (true) (.mmaE3m2 (bitOf w 31) (fld w 19 4) (fld w 14 5) (fld w 7 7) (fld w 0 7))
  | 6 => guardZero (true) (.mmaI8 (bitOf w 31) (fld w 19 4) (fld w 14 5) (fld w 7 7) (fld w 0 7))
  | 7 => guardZero (true) (.mmaE2m1 (bitOf w 31) (fld w 19 4) (fld w 14 5) (fld w 7 7) (fld w 0 7))
  | 8 => guardZero (true) (.mmaSx4 (bitOf w 31) (fld w 19 4) (fld w 14 5) (fld w 7 7) (fld w 0 7))
  | 11 => guardZero (bitsOf w 0 14 == 0 && bitsOf w 19 4 == 0) (.acrel (bitOf w 31) (fld w 14 5))
  | 12 => guardZero (bitsOf w 0 14 == 0) (.acacq (bitOf w 31) (fld w 19 4) (fld w 14 5))
  | 13 => guardZero (bitsOf w 0 14 == 0 && bitsOf w 19 4 == 0) (.acz (bitOf w 31) (fld w 14 5))
  | 14 => guardZero (bitsOf w 19 4 == 0) (.acrd (bitOf w 31) (fld w 14 5) (fld w 7 7) (fld w 0 7))
  | 15 => guardZero (bitsOf w 19 4 == 0) (.acwr (bitOf w 31) (fld w 14 5) (fld w 7 7) (fld w 0 7))
  | _ => .error .unassigned

/-- The instruction of a 32-bit word, by the two halves of its opcode (R96). -/
def decodeWord (w : Nat) : Except Reject Instr :=
  match opcodeOf w / 16 with
  | 0 => decodeRow0 w (opcodeOf w % 16)
  | 1 => decodeRow1 w (opcodeOf w % 16)
  | 2 => decodeRow2 w (opcodeOf w % 16)
  | 3 => decodeRow3 w (opcodeOf w % 16)
  | 4 => decodeRow4 w (opcodeOf w % 16)
  | 5 => decodeRow5 w (opcodeOf w % 16)
  | 6 => decodeRow6 w (opcodeOf w % 16)
  | 7 => decodeRow7 w (opcodeOf w % 16)
  | 8 => decodeRow8 w (opcodeOf w % 16)
  | 9 => decodeRow9 w (opcodeOf w % 16)
  | 10 => decodeRowA w (opcodeOf w % 16)
  | 11 => decodeRowB w (opcodeOf w % 16)
  | 12 => decodeRowC w (opcodeOf w % 16)
  | _ => .error .unassigned

/-- The instruction at the front of a byte sequence, and the bytes after it: one little-endian word (R78). -/
def decodeBytes : Bytes → Except Reject (Instr × Bytes)
  | b0 :: b1 :: b2 :: b3 :: rest =>
    match decodeWord (leNat [b0, b1, b2, b3]) with
    | .ok i => .ok (i, rest)
    | .error e => .error e
  | _ => .error .short

/-- The instruction the decoder reads from an instruction whose bits are `w`: the word laid out as memory holds it (R78). A row without
words (a step of the device) has no bits and no instruction. -/
def decodeTableWord (nbits w : Nat) : Option Instr :=
  if nbits = 0 then none
  else match decodeBytes (natLe 4 (w % 2 ^ nbits)) with
    | .ok (i, _) => some i
    | .error _ => none

/-- Fields, each placed at its low bit. -/
def putFields : List (Nat × Nat) → Nat
  | [] => 0
  | (x, lo) :: fs => x * 2 ^ lo + putFields fs

/-- A word of an opcode, its settle bit and its fields (R79). -/
def word (op : Nat) (st : Bool) (fs : List (Nat × Nat)) : Option Nat :=
  some (op * 2 ^ 23 + (if st then 2 ^ 31 else 0) + putFields fs)

/-- The word of an instruction (R79 to R97); none for a step of the device, which has no word. -/
def encode : Instr → Option Nat
  | .himm yi => word 1 false [(yi.toNat, 0)]
  | .hdep yk yp yb => word 2 false [(yk.toNat, 7), (yp.toNat, 5), (yb.toNat, 4)]
  | .hmod yr yo yc ye ym yg yn yp => word 3 false [(yr.toNat, 20), (yo.toNat, 19), (yc.toNat, 16), (ye.toNat, 13), (ym.toNat, 11), (yg.toNat, 10), (yn.toNat, 9), (yp.toNat, 6)]
  | .hsch yp yy => word 4 false [(yp.toNat, 20), (yy.toNat, 19)]
  | .nop st => word 5 st []
  | .trap st yc => word 6 st [(yc.toNat, 0)]
  | .sysrd st yd yn => word 7 st [(yd.toNat, 15), (yn.toNat, 0)]
  | .syswr st yd yn => word 8 st [(yd.toNat, 15), (yn.toNat, 0)]
  | .perf st yd ya yo yn => word 9 st [(yd.toNat, 15), (ya.toNat, 7), (yo.toNat, 4), (yn.toNat, 0)]
  | .drain st yk ym => word 10 st [(yk.toNat, 19), (ym.toNat, 0)]
  | .bra st yo => word 16 st [(yo.toNat, 0)]
  | .braQ0 st yo => word 17 st [(yo.toNat, 0)]
  | .braNotQ0 st yo => word 18 st [(yo.toNat, 0)]
  | .braQ1 st yo => word 19 st [(yo.toNat, 0)]
  | .braNotQ1 st yo => word 20 st [(yo.toNat, 0)]
  | .braQ2 st yo => word 21 st [(yo.toNat, 0)]
  | .braNotQ2 st yo => word 22 st [(yo.toNat, 0)]
  | .braQ3 st yo => word 23 st [(yo.toNat, 0)]
  | .braNotQ3 st yo => word 24 st [(yo.toNat, 0)]
  | .braP0 st yo => word 25 st [(yo.toNat, 0)]
  | .braNotP0 st yo => word 26 st [(yo.toNat, 0)]
  | .braP1 st yo => word 27 st [(yo.toNat, 0)]
  | .call st yo => word 28 st [(yo.toNat, 0)]
  | .ret st => word 29 st []
  | .loop st ya yi => word 30 st [(ya.toNat, 9), (yi.toNat, 0)]
  | .brk st yg => word 31 st [(yg.toNat, 0)]
  | .brx st ya yg => word 32 st [(ya.toNat, 9), (yg.toNat, 0)]
  | .rcv st => word 33 st []
  | .yield st => word 34 st []
  | .exit st yg => word 35 st [(yg.toNat, 0)]
  | .plop st yf yp yq ya yb yg => word 36 st [(yf.toNat, 19), (yp.toNat, 16), (yq.toNat, 15), (ya.toNat, 9), (yb.toNat, 2), (yg.toNat, 0)]
  | .vote st yd ym yp yg => word 37 st [(yd.toNat, 16), (ym.toNat, 7), (yp.toNat, 2), (yg.toNat, 0)]
  | .vtos st yl ya yd => word 38 st [(yl.toNat, 16), (ya.toNat, 9), (yd.toNat, 1)]
  | .iadd st yd ya yb yg => word 48 st [(yd.toNat, 16), (ya.toNat, 9), (yb.toNat, 2), (yg.toNat, 0)]
  | .isub st yd ya yb yg => word 49 st [(yd.toNat, 16), (ya.toNat, 9), (yb.toNat, 2), (yg.toNat, 0)]
  | .imul st yd ya yb yg => word 50 st [(yd.toNat, 16), (ya.toNat, 9), (yb.toNat, 2), (yg.toNat, 0)]
  | .imulh st yd ya yb yg => word 51 st [(yd.toNat, 16), (ya.toNat, 9), (yb.toNat, 2), (yg.toNat, 0)]
  | .imad st yd ya yb yg => word 52 st [(yd.toNat, 16), (ya.toNat, 9), (yb.toNat, 2), (yg.toNat, 0)]
  | .imin st yd ya yb yg => word 53 st [(yd.toNat, 16), (ya.toNat, 9), (yb.toNat, 2), (yg.toNat, 0)]
  | .imax st yd ya yb yg => word 54 st [(yd.toNat, 16), (ya.toNat, 9), (yb.toNat, 2), (yg.toNat, 0)]
  | .iabs st yd ya yg => word 55 st [(yd.toNat, 16), (ya.toNat, 9), (yg.toNat, 0)]
  | .ineg st yd ya yg => word 56 st [(yd.toNat, 16), (ya.toNat, 9), (yg.toNat, 0)]
  | .and st yd ya yb yg => word 57 st [(yd.toNat, 16), (ya.toNat, 9), (yb.toNat, 2), (yg.toNat, 0)]
  | .or st yd ya yb yg => word 58 st [(yd.toNat, 16), (ya.toNat, 9), (yb.toNat, 2), (yg.toNat, 0)]
  | .xor st yd ya yb yg => word 59 st [(yd.toNat, 16), (ya.toNat, 9), (yb.toNat, 2), (yg.toNat, 0)]
  | .not st yd ya yg => word 60 st [(yd.toNat, 16), (ya.toNat, 9), (yg.toNat, 0)]
  | .shl st yd ya yb yg => word 61 st [(yd.toNat, 16), (ya.toNat, 9), (yb.toNat, 2), (yg.toNat, 0)]
  | .shr st yd ya yb yg => word 62 st [(yd.toNat, 16), (ya.toNat, 9), (yb.toNat, 2), (yg.toNat, 0)]
  | .sar st yd ya yb yg => word 63 st [(yd.toNat, 16), (ya.toNat, 9), (yb.toNat, 2), (yg.toNat, 0)]
  | .popc st yd ya yg => word 64 st [(yd.toNat, 16), (ya.toNat, 9), (yg.toNat, 0)]
  | .clz st yd ya yg => word 65 st [(yd.toNat, 16), (ya.toNat, 9), (yg.toNat, 0)]
  | .brev st yd ya yg => word 66 st [(yd.toNat, 16), (ya.toNat, 9), (yg.toNat, 0)]
  | .bfe st yd ya yb yg => word 67 st [(yd.toNat, 16), (ya.toNat, 9), (yb.toNat, 2), (yg.toNat, 0)]
  | .bfi st yd ya yb yg => word 68 st [(yd.toNat, 16), (ya.toNat, 9), (yb.toNat, 2), (yg.toNat, 0)]
  | .sel st yd ya yb yp => word 69 st [(yd.toNat, 16), (ya.toNat, 9), (yb.toNat, 2), (yp.toNat, 0)]
  | .mov st yd ya yg => word 70 st [(yd.toNat, 16), (ya.toNat, 9), (yg.toNat, 0)]
  | .icmp st yc yp ya yb yg => word 71 st [(yc.toNat, 19), (yp.toNat, 16), (ya.toNat, 9), (yb.toNat, 2), (yg.toNat, 0)]
  | .lea st yd ya yb yg => word 72 st [(yd.toNat, 16), (ya.toNat, 9), (yb.toNat, 2), (yg.toNat, 0)]
  | .iaddImm st yd ya yi => word 73 st [(yd.toNat, 16), (ya.toNat, 9), (yi.toNat, 0)]
  | .shlImm st yd ya yn => word 74 st [(yd.toNat, 16), (ya.toNat, 9), (yn.toNat, 0)]
  | .icmpImm st yc yp ya yi => word 75 st [(yc.toNat, 19), (yp.toNat, 16), (ya.toNat, 9), (yi.toNat, 0)]
  | .movi st yd yi => word 76 st [(yd.toNat, 16), (yi.toNat, 0)]
  | .iaddScalar st yd ya yb yg => word 77 st [(yd.toNat, 16), (ya.toNat, 9), (yb.toNat, 1), (yg.toNat, 0)]
  | .movScalar st yd yb yg => word 78 st [(yd.toNat, 16), (yb.toNat, 1), (yg.toNat, 0)]
  | .sadd st yd ya yb => word 80 st [(yd.toNat, 15), (ya.toNat, 7), (yb.toNat, 0)]
  | .saddImm st yd ya yi => word 81 st [(yd.toNat, 15), (ya.toNat, 7), (yi.toNat, 0)]
  | .ssub st yd ya yb => word 82 st [(yd.toNat, 15), (ya.toNat, 7), (yb.toNat, 0)]
  | .smul st yd ya yb => word 83 st [(yd.toNat, 15), (ya.toNat, 7), (yb.toNat, 0)]
  | .slogAnd st yd ya yb => word 84 st [(yd.toNat, 15), (ya.toNat, 7), (yb.toNat, 0)]
  | .slogOr st yd ya yb => word 85 st [(yd.toNat, 15), (ya.toNat, 7), (yb.toNat, 0)]
  | .slogXor st yd ya yb => word 86 st [(yd.toNat, 15), (ya.toNat, 7), (yb.toNat, 0)]
  | .slogAndn st yd ya yb => word 87 st [(yd.toNat, 15), (ya.toNat, 7), (yb.toNat, 0)]
  | .sshfShl st yd ya yb => word 88 st [(yd.toNat, 15), (ya.toNat, 7), (yb.toNat, 0)]
  | .sshfShr st yd ya yb => word 89 st [(yd.toNat, 15), (ya.toNat, 7), (yb.toNat, 0)]
  | .sshfSar st yd ya yb => word 90 st [(yd.toNat, 15), (ya.toNat, 7), (yb.toNat, 0)]
  | .sshfImm st yd ya yf yn => word 91 st [(yd.toNat, 15), (ya.toNat, 7), (yf.toNat, 5), (yn.toNat, 0)]
  | .smov st yd ya => word 92 st [(yd.toNat, 15), (ya.toNat, 7)]
  | .smovi st yd yi => word 93 st [(yd.toNat, 15), (yi.toNat, 0)]
  | .scmp st yc yq ya yb => word 94 st [(yc.toNat, 19), (yq.toNat, 15), (ya.toNat, 7), (yb.toNat, 0)]
  | .scmpImm st yc yq ya yi => word 95 st [(yc.toNat, 19), (yq.toNat, 15), (ya.toNat, 7), (yi.toNat, 0)]
  | .fadd st yd ya yb yg => word 96 st [(yd.toNat, 16), (ya.toNat, 9), (yb.toNat, 2), (yg.toNat, 0)]
  | .fsub st yd ya yb yg => word 97 st [(yd.toNat, 16), (ya.toNat, 9), (yb.toNat, 2), (yg.toNat, 0)]
  | .fmul st yd ya yb yg => word 98 st [(yd.toNat, 16), (ya.toNat, 9), (yb.toNat, 2), (yg.toNat, 0)]
  | .ffma st yd ya yb yg => word 99 st [(yd.toNat, 16), (ya.toNat, 9), (yb.toNat, 2), (yg.toNat, 0)]
  | .fmin st yd ya yb yg => word 100 st [(yd.toNat, 16), (ya.toNat, 9), (yb.toNat, 2), (yg.toNat, 0)]
  | .fmax st yd ya yb yg => word 101 st [(yd.toNat, 16), (ya.toNat, 9), (yb.toNat, 2), (yg.toNat, 0)]
  | .fcmp st yc yp ya yb yg => word 102 st [(yc.toNat, 19), (yp.toNat, 16), (ya.toNat, 9), (yb.toNat, 2), (yg.toNat, 0)]
  | .frcp st yd ya yg => word 103 st [(yd.toNat, 16), (ya.toNat, 9), (yg.toNat, 0)]
  | .frsq st yd ya yg => word 104 st [(yd.toNat, 16), (ya.toNat, 9), (yg.toNat, 0)]
  | .fex2 st yd ya yg => word 105 st [(yd.toNat, 16), (ya.toNat, 9), (yg.toNat, 0)]
  | .flg2 st yd ya yg => word 106 st [(yd.toNat, 16), (ya.toNat, 9), (yg.toNat, 0)]
  | .fcls st yd ya yg => word 107 st [(yd.toNat, 16), (ya.toNat, 9), (yg.toNat, 0)]
  | .frnd st yd ya yg => word 108 st [(yd.toNat, 16), (ya.toNat, 9), (yg.toNat, 0)]
  | .hadd2 st yd ya yb yg => word 109 st [(yd.toNat, 16), (ya.toNat, 9), (yb.toNat, 2), (yg.toNat, 0)]
  | .hmul2 st yd ya yb yg => word 110 st [(yd.toNat, 16), (ya.toNat, 9), (yb.toNat, 2), (yg.toNat, 0)]
  | .hfma2 st yd ya yb yg => word 111 st [(yd.toNat, 16), (ya.toNat, 9), (yb.toNat, 2), (yg.toNat, 0)]
  | .cvt st yd ya ye yf => word 112 st [(yd.toNat, 16), (ya.toNat, 9), (ye.toNat, 5), (yf.toNat, 1)]
  | .pack st yd ya yf yn => word 113 st [(yd.toNat, 16), (ya.toNat, 9), (yf.toNat, 5), (yn.toNat, 0)]
  | .unpk st yd ya yf yn => word 114 st [(yd.toNat, 16), (ya.toNat, 9), (yf.toNat, 5), (yn.toNat, 0)]
  | .qnt st yd ya yf yb => word 115 st [(yd.toNat, 16), (ya.toNat, 9), (yf.toNat, 5), (yb.toNat, 3)]
  | .sclx st yd ya yb yg => word 116 st [(yd.toNat, 16), (ya.toNat, 9), (yb.toNat, 2), (yg.toNat, 0)]
  | .dqntE4m3 st yd ya yb yc => word 120 st [(yd.toNat, 16), (ya.toNat, 9), (yb.toNat, 2), (yc.toNat, 0)]
  | .dqntE5m2 st yd ya yb yc => word 121 st [(yd.toNat, 16), (ya.toNat, 9), (yb.toNat, 2), (yc.toNat, 0)]
  | .dqntE2m3 st yd ya yb yc => word 122 st [(yd.toNat, 16), (ya.toNat, 9), (yb.toNat, 2), (yc.toNat, 0)]
  | .dqntE3m2 st yd ya yb yc => word 123 st [(yd.toNat, 16), (ya.toNat, 9), (yb.toNat, 2), (yc.toNat, 0)]
  | .dqntE2m1 st yd ya yb yc => word 124 st [(yd.toNat, 16), (ya.toNat, 9), (yb.toNat, 2), (yc.toNat, 0)]
  | .dqntSx4 st yd ya yb yc => word 125 st [(yd.toNat, 16), (ya.toNat, 9), (yb.toNat, 2), (yc.toNat, 0)]
  | .dqntI8 st yd ya yb yc => word 126 st [(yd.toNat, 16), (ya.toNat, 9), (yb.toNat, 2), (yc.toNat, 0)]
  | .xpat st yd ya yn => word 128 st [(yd.toNat, 16), (ya.toNat, 9), (yn.toNat, 0)]
  | .xperm st yd ya yb yg => word 129 st [(yd.toNat, 16), (ya.toNat, 9), (yb.toNat, 2), (yg.toNat, 0)]
  | .shfl st yd ya ym yn => word 130 st [(yd.toNat, 16), (ya.toNat, 9), (ym.toNat, 7), (yn.toNat, 0)]
  | .scan st yd ya yo yf yx => word 131 st [(yd.toNat, 16), (ya.toNat, 9), (yo.toNat, 5), (yf.toNat, 1), (yx.toNat, 0)]
  | .rdx st yd ya yo yf => word 132 st [(yd.toNat, 16), (ya.toNat, 9), (yo.toNat, 5), (yf.toNat, 1)]
  | .ld st yd ya yk yz yg => word 144 st [(yd.toNat, 16), (ya.toNat, 9), (yk.toNat, 5), (yz.toNat, 2), (yg.toNat, 0)]
  | .st st yd ya yk yz yg => word 145 st [(yd.toNat, 16), (ya.toNat, 9), (yk.toNat, 5), (yz.toNat, 2), (yg.toNat, 0)]
  | .lds st yd ya yz yg => word 146 st [(yd.toNat, 16), (ya.toNat, 9), (yz.toNat, 2), (yg.toNat, 0)]
  | .sts st yd ya yz yg => word 147 st [(yd.toNat, 16), (ya.toNat, 9), (yz.toNat, 2), (yg.toNat, 0)]
  | .atom st yd ya yk yr yw yo => word 148 st [(yd.toNat, 16), (ya.toNat, 9), (yk.toNat, 5), (yr.toNat, 4), (yw.toNat, 3), (yo.toNat, 0)]
  | .acas st yd ya yk yr yw => word 149 st [(yd.toNat, 16), (ya.toNat, 9), (yk.toNat, 5), (yr.toNat, 4), (yw.toNat, 3)]
  | .prf st yl ya yz yg => word 150 st [(yl.toNat, 16), (ya.toNat, 9), (yz.toNat, 2), (yg.toNat, 0)]
  | .fence st yp yk yg => word 151 st [(yp.toNat, 16), (yk.toNat, 2), (yg.toNat, 0)]
  | .cflush st yo ya yk yz yg => word 152 st [(yo.toNat, 16), (ya.toNat, 9), (yk.toNat, 5), (yz.toNat, 2), (yg.toNat, 0)]
  | .ptst st yd ya yg => word 153 st [(yd.toNat, 16), (ya.toNat, 9), (yg.toNat, 0)]
  | .ldt st yd ya yk yg => word 154 st [(yd.toNat, 16), (ya.toNat, 9), (yk.toNat, 5), (yg.toNat, 0)]
  | .stt st yd ya yk yg => word 155 st [(yd.toNat, 16), (ya.toNat, 9), (yk.toNat, 5), (yg.toNat, 0)]
  | .wait st yq ye yk yy yt yb => word 160 st [(yq.toNat, 21), (ye.toNat, 20), (yk.toNat, 3), (yy.toNat, 2), (yt.toNat, 1), (yb.toNat, 0)]
  | .waitc st yk ya yq ye yt yb => word 161 st [(yk.toNat, 19), (ya.toNat, 11), (yq.toNat, 9), (ye.toNat, 8), (yt.toNat, 1), (yb.toNat, 0)]
  | .tst st yk yd yb yw => word 162 st [(yk.toNat, 19), (yd.toNat, 11), (yb.toNat, 3), (yw.toNat, 0)]
  | .tclr st yk => word 163 st [(yk.toNat, 3)]
  | .texp st yk ya yb yy yr => word 164 st [(yk.toNat, 19), (ya.toNat, 11), (yb.toNat, 3), (yy.toNat, 1), (yr.toNat, 0)]
  | .binit st yk ya yb => word 165 st [(yk.toNat, 19), (ya.toNat, 11), (yb.toNat, 3)]
  | .arv st yk ya yb ye yp => word 166 st [(yk.toNat, 19), (ya.toNat, 11), (yb.toNat, 3), (ye.toNat, 1), (yp.toNat, 0)]
  | .bwait st yq ye ya yb yt yp => word 167 st [(yq.toNat, 21), (ye.toNat, 20), (ya.toNat, 11), (yb.toNat, 3), (yt.toNat, 1), (yp.toNat, 0)]
  | .bpoll st yq ya yb => word 168 st [(yq.toNat, 21), (ya.toNat, 11), (yb.toNat, 3)]
  | .cpy st yk ya yb yo yd => word 176 st [(yk.toNat, 19), (ya.toNat, 11), (yb.toNat, 3), (yo.toNat, 1), (yd.toNat, 0)]
  | .launch st yk ya => word 177 st [(yk.toNat, 19), (ya.toNat, 11)]
  | .sacq st yd yn => word 178 st [(yd.toNat, 11), (yn.toNat, 0)]
  | .spop st yd yc yn => word 179 st [(yd.toNat, 11), (yc.toNat, 3), (yn.toNat, 0)]
  | .srel st ya yf yn => word 180 st [(ya.toNat, 11), (yf.toNat, 3), (yn.toNat, 0)]
  | .kvld st yk ya yb yo yw => word 184 st [(yk.toNat, 19), (ya.toNat, 11), (yb.toNat, 3), (yo.toNat, 1), (yw.toNat, 0)]
  | .kvseal st yk ya yb => word 185 st [(yk.toNat, 19), (ya.toNat, 11), (yb.toNat, 3)]
  | .kvhdr st yk ya yb => word 186 st [(yk.toNat, 19), (ya.toNat, 11), (yb.toNat, 3)]
  | .coll st yk ya yb => word 188 st [(yk.toNat, 19), (ya.toNat, 11), (yb.toNat, 3)]
  | .mcst st yk ya yb => word 189 st [(yk.toNat, 19), (ya.toNat, 11), (yb.toNat, 3)]
  | .rte st yk ya yb => word 190 st [(yk.toNat, 19), (ya.toNat, 11), (yb.toNat, 3)]
  | .rtc st yk ya yb => word 191 st [(yk.toNat, 19), (ya.toNat, 11), (yb.toNat, 3)]
  | .mmaBf16 st yk yc ya yb => word 192 st [(yk.toNat, 19), (yc.toNat, 14), (ya.toNat, 7), (yb.toNat, 0)]
  | .mmaF16 st yk yc ya yb => word 193 st [(yk.toNat, 19), (yc.toNat, 14), (ya.toNat, 7), (yb.toNat, 0)]
  | .mmaE4m3 st yk yc ya yb => word 194 st [(yk.toNat, 19), (yc.toNat, 14), (ya.toNat, 7), (yb.toNat, 0)]
  | .mmaE5m2 st yk yc ya yb => word 195 st [(yk.toNat, 19), (yc.toNat, 14), (ya.toNat, 7), (yb.toNat, 0)]
  | .mmaE2m3 st yk yc ya yb => word 196 st [(yk.toNat, 19), (yc.toNat, 14), (ya.toNat, 7), (yb.toNat, 0)]
  | .mmaE3m2 st yk yc ya yb => word 197 st [(yk.toNat, 19), (yc.toNat, 14), (ya.toNat, 7), (yb.toNat, 0)]
  | .mmaI8 st yk yc ya yb => word 198 st [(yk.toNat, 19), (yc.toNat, 14), (ya.toNat, 7), (yb.toNat, 0)]
  | .mmaE2m1 st yk yc ya yb => word 199 st [(yk.toNat, 19), (yc.toNat, 14), (ya.toNat, 7), (yb.toNat, 0)]
  | .mmaSx4 st yk yc ya yb => word 200 st [(yk.toNat, 19), (yc.toNat, 14), (ya.toNat, 7), (yb.toNat, 0)]
  | .acrel st yc => word 203 st [(yc.toNat, 14)]
  | .acacq st yk yc => word 204 st [(yk.toNat, 19), (yc.toNat, 14)]
  | .acz st yc => word 205 st [(yc.toNat, 14)]
  | .acrd st yc yd yb => word 206 st [(yc.toNat, 14), (yd.toNat, 7), (yb.toNat, 0)]
  | .acwr st yc ya yb => word 207 st [(yc.toNat, 14), (ya.toNat, 7), (yb.toNat, 0)]
  | .longResultLand _ _ => none
  | .threadStarved _ _ => none
  | .groupStarvationGuard _ => none
  | .trapEntry _ _ => none
  | .storeQueueDrain _ => none
  | .memoryReply _ _ => none
  | .tlbWalkReturn _ _ _ => none
  | .lightFaultService _ _ => none
  | .migration _ _ _ => none
  | .migrationSwapOut _ => none
  | .engineCommandStart _ => none
  | .chunkLand _ _ => none
  | .copyFinish _ => none
  | .ldtRetry _ _ => none
  | .sttProgress _ _ => none
  | .mmaStart _ => none
  | .mmaFinish _ => none
  | .acacqFinish _ => none
  | .kvConversion _ _ => none
  | .kvPairing _ _ _ => none
  | .kvldRetry _ => none
  | .kvhdrRefill _ => none
  | .barrierUpdate _ => none
  | .quiescenceTimer _ => none
  | .launchValidation _ => none
  | .launchPreconditionsHeld _ => none
  | .leasePin _ => none
  | .placementDecision _ => none
  | .reservation _ => none
  | .reservationAnswer _ => none
  | .preemption _ => none
  | .unplaceableLog _ => none
  | .forcedFullSave _ => none
  | .teamSave _ => none
  | .saveWatchdog _ => none
  | .savedCompletion _ _ => none
  | .teamRetire _ => none
  | .launchRetire _ => none
  | .teardownRelease _ => none
  | .pinTimeout _ => none
  | .retransmitTimeout _ => none
  | .fabricStartDelay => none
  | .reductionStep _ _ => none
  | .combineStep _ _ => none
  | .gatherServe _ _ => none
  | .dispatchPlacement _ => none
  | .collectiveFinish _ => none
  | .dispatchFinish _ => none
  | .doorbell _ _ _ => none
  | .doorbellApply _ => none
  | .bar2Write _ _ => none
  | .bar2Read _ _ => none
  | .msixUnmask _ => none
  | .hostReadCompletion _ _ _ => none
  | .hostReadTimeout _ => none
  | .registerWrite _ _ => none
  | .create _ _ => none
  | .teardown => none
  | .deschedule => none
  | .reschedule => none
  | .pte => none
  | .residency => none
  | .thresholds => none
  | .ffring => none
  | .refill => none
  | .savepool => none
  | .retired => none
  | .clearlost => none
  | .aperture => none
  | .fabric => none
  | .counters => none
  | .power => none
  | .attest => none
  | .fwupdate => none
  | .recoveryGo => none
  | .deviceReset => none
  | .karicHello _ _ _ => none
  | .portDegraded _ => none
  | .linkFail _ => none
  | .portRestored _ => none
  | .karicForward => none
  | .karicRdreq => none
  | .karicWr => none
  | .karicAtom => none
  | .karicRdrsp => none
  | .karicWrack => none
  | .karicAtrsp => none
  | .karicChack => none
  | .karicNack => none
  | .karicChunk => none
  | .karicDisp => none
  | .karicFlag => none
  | .mgmtPin => none
  | .mgmtPinans => none
  | .mgmtUnpin => none
  | .mgmtCdesc => none
  | .mgmtDdesc => none
  | .mgmtCancel => none
  | .mgmtGather => none
  | .mgmtWatch => none
  | .mgmtAdvanced => none
  | .l2UncorrectableError _ => none
  | .cleanLineError _ => none
  | .hbmUncorrectableError _ => none
  | .clockStepDown _ => none
  | .clockStepUp _ => none
  | .thermalLimit _ => none
  | .thermalShutdown => none
  | .illegalInstruction _ => none
  | .runAheadFetch _ _ => none
  | .correctedSoftError _ => none
  | .thermalLimitClear _ => none
  | .watchReread _ => none

end Sys2Proof
end

