-- ==== Sys2Proof/Machine/Xlate.lean ====
section
/-!
DEFINITION. Addresses and translation: the page-table walk (R48 to R51, R266), the cluster TLB and shootdowns (R56 to R58), the lease check and the
windows (R53, R75), and the checks of a thread's access in the order of R192.
-/
namespace Sys2Proof.Machine
open Sys2Proof

/-! ## Leases and windows -/

/-- Do the declared ranges, their rights added, give the rights at an address (R27)? -/
def rangesGive (rs : List Range) (n : Rights) (a : Nat) : Bool :=
  let hit := rs.filter fun r => decide (r.lo ≤ a ∧ a < r.hi)
  (!n.rd || hit.any fun r => r.rd) && (!n.wr || hit.any fun r => r.wr) && (!n.ex || hit.any fun r => r.ex)

/-- The whole extent lies in ranges with the rights (R53): every 64 KiB unit it touches does. -/
def leaseOk (rs : List Range) (n : Rights) (a len : Nat) : Bool :=
  decide (a + len ≤ 2 ^ 57) && (List.range ((a + len - 1) / 65536 - a / 65536 + 1)).all fun i => rangesGive rs n ((a / 65536 + i) * 65536)

/-- Does an extent inside a core's window lie wholly within one resource allocated to a team of the context (R74, R75)? -/
def State.windowOwned (s : State) (asid core off len : Nat) : Bool :=
  if off < 0x200000 then
    off / 0x4000 == (off + len - 1) / 0x4000 &&
      (match s.slotGroup? core (off / 0x20000) (off % 0x20000 / 0x4000) with
        | some g => g.asid == asid
        | none => false)
  else (s.teamsOn asid core).any fun t =>
    if off < 0x300000 then
      decide (t.spBase ≤ (off - 0x200000) / 512 ∧ (off - 0x200000 + len - 1) / 512 < t.spBase + t.spLines)
    else if off < 0x380000 then
      t.arrays.any fun (a, t0, _) =>
        decide (a * 0x20000 + t0 * 0x1000 ≤ off - 0x300000 ∧ off - 0x300000 + len ≤ a * 0x20000 + (t0 + t.acct) * 0x1000)
    else
      t.arrays.any fun (a, _, k0) =>
        decide (a * 0x20000 + k0 * 1024 ≤ off - 0x380000 ∧ off - 0x380000 + len ≤ a * 0x20000 + (k0 + t.wbk) * 1024)

/-- A window address passes the lease check (R75). -/
def State.windowLease (s : State) (asid va len : Nat) : Bool :=
  decide (windowVa ≤ va ∧ va + len ≤ windowVa + 192 * 0x400000 ∧ (va - windowVa) / 0x400000 = (va + len - 1 - windowVa) / 0x400000) &&
    s.windowOwned asid ((va - windowVa) / 0x400000) ((va - windowVa) % 0x400000) len

/-- The lease check of an extent for a launch (R44, R53): windows by the context's resources, all else by the declared ranges. -/
def State.leased (s : State) (l : Launch) (n : Rights) (va len : Nat) : Bool :=
  if va < ochreVa then leaseOk l.ranges n va len && decide (va + len ≤ ochreVa)
  else s.windowLease l.asid va len

/-! ## TLBs and shootdowns (R56 to R58) -/

/-- The home slice of the second-level TLB (R56). -/
def tlbSlice (asid va : Nat) : Nat :=
  let x := Nat.xor (bitsOf va 21 36) (asid * 2 ^ 24)
  Nat.xor (Nat.xor (bitsOf x 0 12) (bitsOf x 12 12)) (bitsOf x 24 12) % 96

/-- The second-level unit of a core's access: numbered after the 48 cluster TLBs. -/
def slice2 (core asid va : Nat) : Nat := 48 + 96 * dieOf core + tlbSlice asid va

/-- The entry of a unit for an address. -/
def State.tlb? (s : State) (unit asid va : Nat) : Option Tlb :=
  s.tlb.find? fun t => t.unit == unit && t.asid == asid && decide (t.va ≤ va ∧ va < t.va + t.span)

/-- Do two entries share a unit, and for a cluster TLB, which has 8 ways, a set (R56)? -/
def tlbRivals (a b : Tlb) : Bool :=
  a.unit == b.unit && (decide (48 ≤ a.unit) || Config.tlbSet a.asid a.va a.span % 256 == Config.tlbSet b.asid b.va b.span % 256)

/-- An entry put into its unit, in place of one for the same page, or of a free choice among those of a full set: 2,048 entries in 8 ways in a cluster TLB,
4,096 in a slice of the second level (R56). -/
def State.fillTlb (s : State) (t : Tlb) : State :=
  let others := s.tlb.filter fun x => !(x.unit == t.unit && x.asid == t.asid && x.va == t.va)
  let rivals := others.filter fun x => tlbRivals x t
  if rivals.length < (if t.unit < 48 then 8 else 4096) then { s with tlb := t :: others }
  else { s with tlb := t :: others.filter (fun x => some x != rivals[Config.victim s.free % rivals.length]?), free := s.free + 1 }

/-- A shootdown of a context's virtual range (R58): TLB entries of every unit and L1 lines. -/
def State.shoot (s : State) (asid va len : Nat) : State :=
  { s with tlb := s.tlb.filter fun t => !(t.asid == asid && decide (t.va < va + len ∧ va < t.va + t.span))
           l1 := s.l1.filter fun l => !(l.asid == asid && decide (l.va < va + len ∧ va < l.va + 128)) }

/-- The L1 line of a core for a virtual address. -/
def State.l1? (s : State) (core asid va : Nat) : Option L1Line := s.l1.find? fun l => l.core == core && l.asid == asid && l.va == va / 128 * 128

/-! ## The checks of an access (R192) -/

/-- The kinds of access that the memory-type rules tell apart. -/
inductive Access where
  | load | store | atomic | tile | tileRd | barrierRd | barrierWr | fetch
  deriving DecidableEq, Repr

/-- The rights of a kind. -/
def Access.rights : Access → Rights
  | .load => rightsRd
  | .store => rightsWr
  | .barrierRd => rightsRd
  | .tileRd => rightsRd
  | .fetch => rightsEx
  | _ => rightsRdWr

/-- Does the kind write, and so need D? -/
def Access.writes : Access → Bool
  | .load => false
  | .barrierRd => false
  | .tileRd => false
  | .fetch => false
  | _ => true

/-- What the translation of a thread's access gives (R192 step 4). -/
inductive Xl where
  | ok (t : Tlb)
  | park (r : Reason) (w : Wake)
  | fault
  deriving DecidableEq, Repr

/-- What an entry gives an access: a fault for want of a right, a park on a migrating page or a needed A or D, or the translation (R51, R59, R62). -/
def useEntry (t : Tlb) (asid va : Nat) (rights : Rights) (writes : Bool) : Xl :=
  if !t.gives rights || !localMapped (t.addr va) then .fault
  else if t.mig then .park .migration (.mig asid t.va)
  else if !t.a || (writes && !t.d) then .park .lightFault (.light asid t.va)
  else .ok t

/-- Translation through the cluster TLB (R56). A miss parks for a walk; when the thread's own walk has returned and still no entry stands, the walk is
looked at again, and its fault ends the task. -/
def translate (s : State) (core asid va : Nat) (rights : Rights) (writes : Bool) (wake : Wake) : Xl :=
  match s.tlb? (clusterOf core) asid va with
  | some t => useEntry t asid va rights writes
  | none =>
    let page := va / 65536 * 65536
    let w := Wake.walk (clusterOf core) asid page rights.code
    if wake == w && !s.walkReqs.contains (clusterOf core, asid, page, rights.code) then
      match s.xlate asid va rights with
      | none => .fault
      | some _ => .park .translation w
    else .park .translation w

/-- The trap code of a misaligned access or a window access of a forbidden size (R366). -/
def trapMisaligned : Word := 0x20000001#32
/-- The trap code of a memory-type fault. -/
def trapMemType : Word := 0x20000002#32
/-- The trap code of a sealed-page fault. -/
def trapSealed : Word := 0x20000003#32

/-- The memory-type step of R192 (step 5; R42, R74, R211, R267, R268, R343): the trap it gives, if any. -/
def memType (s : State) (t : Tlb) (k : Access) (va size : Nat) : Option Word :=
  let ph := s.target t va
  let window := decide (winBase ≤ t.addr va ∧ t.addr va < winEnd) && t.dev == s.devid
  let plain := k == .load || k == .store
  if t.kv && (t.dev != s.devid || !plain) then some trapMemType
  else if !plain && (t.mt != 0 || (match ph with
      | .home _ => false
      | .remote _ _ => false
      | _ => true)) then some trapMemType
  else if window && !(size == 4 || size == 8 || size == 16) then some trapMisaligned
  else if k == .store && !t.opn then some trapSealed
  else none

/-- What the checks of an access give: its physical target, or a lane's outcome. -/
inductive Chk where
  | ok (p : Phys)
  | out (o : Out)
  deriving DecidableEq, Repr

/-- The trap-frame window of a thread's own group (R369), for naturally aligned `LD` and `ST` of 4 or 8 bytes. -/
def frameCheck (k : Access) (va size : Nat) : Chk :=
  if k != .load && k != .store then .out (.trap trapMemType (BitVec.ofNat 64 va) size)
  else if size == 4 || size == 8 then .ok (.frame (va - frameVa))
  else .out (.trap trapMisaligned (BitVec.ofNat 64 va) size)

/-- An access that needs no translation: a load that hits the L1, or a store to a present line with WR and D (R56, R60). -/
def l1Target (s : State) (core asid va : Nat) (k : Access) : Option Phys :=
  match s.l1? core asid va with
  | some l => if k == .load || (k == .store && l.wr && l.d) then some (.home (l.pa + va % 128)) else none
  | none => none

/-- Steps 3 to 5 of R192 for a thread's access. `extra` admits the barriers that the launch record names (R53). -/
def accessCheck (s : State) (x : Issue) (lane : Nat) (k : Access) (va size : Nat) (extra : Bool) : Chk :=
  let a : DWord := BitVec.ofNat 64 va
  if frameVa ≤ va ∧ va + size ≤ frameVa + 0x800 ∧ k != .fetch then frameCheck k va size
  else match s.launch? x.g.launch with
    | none => .out (.stop 1 a size)
    | some l =>
      if !(s.leased l k.rights va size || (extra && decide (va + size ≤ 2 ^ 57))) then .out (.stop 1 a size)
      else match l1Target s x.g.core x.g.asid va k with
        | some p => .ok p
        | none =>
          match translate s x.g.core x.g.asid va k.rights k.writes (x.g.thread lane).wake with
          | .fault => .out (.stop 2 a size)
          | .park r w => .out (.park r w)
          | .ok t => match memType s t k va size with
            | some c => .out (.trap c a size)
            | none => .ok (s.target t va)

/-- The requests that a word's parks send: walks to the second level (R56) and light faults to Ochre (R59), each once. -/
def noteParks (writes : Bool) : List (Nat × Out) → State → State
  | [], s => s
  | (_, .park _ (.walk c a v n)) :: rest, s =>
    noteParks writes rest (if s.walkReqs.contains (c, a, v, n) then s else { s with walkReqs := s.walkReqs ++ [(c, a, v, n)] })
  | (_, .park _ (.light a v)) :: rest, s =>
    noteParks writes rest (if s.lightReqs.contains (a, v, writes) then s else { s with lightReqs := s.lightReqs ++ [(a, v, writes)] })
  | _ :: rest, s => noteParks writes rest s

end Sys2Proof.Machine
end

