-- ==== Sys2Proof/Machine/MemWords.lean ====
section
/-!
DEFINITION. The meanings of the memory words 0x90 to 0x9B as they issue (R191 to R213, R361): the checks of each lane, the binding of the token, the
entries of the store queue, and the scratchpad words. What happens to an access afterwards are the steps of MemEvents.
-/
namespace Sys2Proof.Machine
open Sys2Proof

/-- What a memory word does for one lane as it issues: its guard is false; it has a part in the operation; or another outcome. -/
inductive LaneMem where
  | skip
  | part (p : Part)
  | out (o : Out)
  deriving DecidableEq, Repr

/-- The lane's outcome at the word. -/
def LaneMem.toOut (x : Issue) (t : Thread) : LaneMem → Out
  | .out o => o
  | _ => skipLane x t

/-- The parts of an issue. -/
def partsOf : List (Nat × LaneMem) → List Part
  | [] => []
  | (_, .part p) :: rest => p :: partsOf rest
  | _ :: rest => partsOf rest

/-- Does any lane complete the word, so that it binds its token (R193)? -/
def completes (ls : List (Nat × LaneMem)) : Bool := ls.any fun r => match r.2 with
  | .out _ => false
  | _ => true

/-- Entries of a group's store queue, one for each part, in lane order (R195). -/
def enqueueParts (s : State) (u id seq : Nat) (k : QKind) (ps : List Part) : State :=
  s.modGroup u fun g => { g with sq := g.sq ++ ps.map fun p => { seq := seq, kind := k, op := id, lane := p.lane } }

/-- A memory word that binds kd (R193). When a lane of the word ends the task, the accesses of the other lanes are performed, one of the two outcomes that
R192 allows (log entry 167). The token is bound when some lane completes the word, the parts enter the queue if the word uses it, and an operation without a
part finishes at once. -/
def memWord (s : State) (x : Issue) (k : Nat) (kind : OpKind) (queue : Option QKind) (writes : Bool) (f : Nat → Thread → LaneMem) : State :=
  let ls := x.lanes.map fun l => (l, f l (x.g.thread l))
  let outs := ls.map fun r => (r.1, r.2.toOut x (x.g.thread r.1))
  let s := noteParks writes outs s
  let s := if completes ls then
      let ps := partsOf ls
      let (id, s) := s.bindWith x k kind fun o => { o with parts := ps, cp := (modOf x.hints).cp.toNat }
      let s := match queue with
        | some q => enqueueParts s x.g.uid id x.g.seq q ps
        | none => s
      if ps.isEmpty then s.finishOp id .done 0#8 else s
    else s
  s.commit x outs

/-- The size in bytes of a code of R87. -/
def sizeOf (z : BitVec 3) : Nat := 2 ^ z.toNat
/-- The registers of an access of a size. -/
def regsOf (n : Nat) : Nat := if n ≤ 4 then 1 else n / 4

/-- The virtual address of a lane, modulo 2^64 (R191). -/
def laneVa (x : Issue) (t : Thread) (a : Nat) : Nat := (((t.vpair a : Int) + offOf x.hints) % (2 ^ 64 : Nat)).toNat

/-- The misalignment trap of an address (R192 step 1). -/
def misaligned (va : Nat) (size : Nat) : LaneMem := .out (.trap trapMisaligned (BitVec.ofNat 64 va) size)

/-- A lane of a memory word: its guard, its token targets, its alignment and its access checks; `mk` makes its part of a physical target. -/
def memLane (s : State) (x : Issue) (guard : Nat) (lane : Nat) (t : Thread) (regs : List Nat) (va size align : Nat) (k : Access) (mk : Phys → Part) :
    LaneMem :=
  if !takesPart x.hints guard t then .skip
  else match whenFree s x lane regs (skipLane x t) with
    | .go _ _ =>
      if va % align != 0 then misaligned va size
      else match accessCheck s x lane k va size false with
        | .ok p => .part (mk p)
        | .out o => .out o
    | o => .out o

/-- The scope of a memory word: SCP, 0 meaning `dev` (R199). -/
def memScope (x : Issue) : BitVec 3 := (modOf x.hints).scp
/-- Is the acquire half of SEM set? -/
def semAcq (x : Issue) : Bool := (modOf x.hints).sem.getLsbD 0
/-- Is the release half of SEM set? -/
def semRel (x : Issue) : Bool := (modOf x.hints).sem.getLsbD 1

/-- `LD` (R203). -/
def execLd (st : Bool) (d a : BitVec 7) (k : BitVec 4) (z : BitVec 3) (g : BitVec 2) (s : State) : Host.Outcome State Fault Refusal :=
  let n := sizeOf z
  runWord s 0x90 st (fun _ => { codeOk := decide (z.toNat < 5), vregs := [(d.toNat, regsOf n), (a.toNat, 2)] }) fun x s =>
    memWord s x k.toNat (.load (semAcq x) (memScope x)) none false fun l t =>
      memLane s x g.toNat l t (regRun d.toNat (regsOf n) ++ regRun a.toNat 2) (laneVa x t a.toNat) n n .load fun p =>
        { lane := l, va := laneVa x t a.toNat, phys := p, size := n, tgt := regRun d.toNat (regsOf n) }

/-- `ST` (R203): one entry of the store queue per taking-part thread, with the content of vd at issue. -/
def execSt (st : Bool) (d a : BitVec 7) (k : BitVec 4) (z : BitVec 3) (g : BitVec 2) (s : State) : Host.Outcome State Fault Refusal :=
  let n := sizeOf z
  runWord s 0x91 st (fun _ => { codeOk := decide (z.toNat < 5), vregs := [(d.toNat, regsOf n), (a.toNat, 2)] }) fun x s =>
    memWord s x k.toNat (.store (semRel x) (memScope x)) (some .store) true fun l t =>
      memLane s x g.toNat l t (regRun d.toNat (regsOf n) ++ regRun a.toNat 2) (laneVa x t a.toNat) n n .store fun p =>
        { lane := l, va := laneVa x t a.toNat, phys := p, size := n, data := (t.vbytes d.toNat (regsOf n)).take n }

/-! ## The scratchpad words (R200, R204, R205) -/

/-- The byte offset of a lane of a scratchpad word (R191). -/
def laneOff (x : Issue) (t : Thread) (a : Nat) : Int := ((t.vget a).toNat : Int) + offOf x.hints

/-- The first line and the number of lines of the group's team. -/
def spadRun (s : State) (g : Group) : Nat × Nat := match s.team? g.team with
  | some t => (t.spBase, t.spLines)
  | none => (0, 0)

/-- The checks of a scratchpad word (R192 steps 1 and 2): a trap, the end of the task, or nothing. -/
def spadCheck (s : State) (g : Group) (o : Int) (align size span : Nat) : Option Out :=
  let a : DWord := BitVec.ofInt 64 o
  if o % (align : Int) != 0 then some (.trap trapMisaligned a size)
  else if o < 0 ∨ ((spadRun s g).2 * 512 : Nat) < o + (span : Int) then some (.stop 3 a size)
  else none

/-- The physical lines of a core that an extent of a team's scratchpad touches. -/
def linesOf (base o n : Nat) : List Nat := (List.range ((o + n - 1) / 512 - o / 512 + 1)).map fun i => base + o / 512 + i

/-- The absent ones of a core's lines. -/
def absentOf (s : State) (core : Nat) (ls : List Nat) : List Nat := ls.filter fun l => s.absent.any fun a => a.1 == core && a.2.1 == l

/-- A lane of a scratchpad word; `f` gives its outcome once its checks have passed. -/
def spadLane (s : State) (x : Issue) (guard lane : Nat) (t : Thread) (regs : List Nat) (o : Int) (align size span : Nat) (f : Nat → Out) : Out :=
  if !takesPart x.hints guard t then skipLane x t
  else match whenFree s x lane regs (skipLane x t) with
    | .go _ _ => match spadCheck s x.g o align size span with
      | some out => out
      | none => f o.toNat
    | out => out

/-- The pending results of several registers of one word. -/
def longRun (t : Thread) (x : Issue) (wid d : Nat) (ws : List Word) : Thread :=
  ws.zipIdx.foldl (fun t (w, i) => t.long x wid (trapEnables x.g) (.v (d + i)) w 0#5) t

/-- A byte sequence as words, the last one zero-extended. -/
def wordsOf (bs : Bytes) (n : Nat) : List Word := (List.range n).map fun i => BitVec.ofNat 32 (fieldLe bs (4 * i) 4)

/-- `LDS` (R204): a lane parks while a line it touches is absent; the bytes are read at issue and the result is long-class. -/
def execLds (st : Bool) (d a : BitVec 7) (z : BitVec 3) (g : BitVec 2) (s : State) : Host.Outcome State Fault Refusal :=
  let n := sizeOf z
  runWord s 0x92 st (fun _ => { codeOk := decide (z.toNat < 5), vregs := [(d.toNat, regsOf n), (a.toNat, 1)] }) fun x s =>
    gated x s fun s =>
      let wid := s.nextId
      let base := (spadRun s x.g).1
      s.bump.commit x (eachLane x fun l t =>
        spadLane s x g.toNat l t (regRun d.toNat (regsOf n) ++ [a.toNat]) (laneOff x t a.toNat) n n n fun o =>
          match absentOf s x.g.core (linesOf base o n) with
          | [] => .go (longRun t x wid d.toNat (wordsOf (getBytes s.mem (spadAddr x.g.core (base * 512 + o)) n) (regsOf n))) (.fall x.pc)
          | ls => .park .absentLine (.lines x.g.core ls))

/-- The stores of an `STS` performed in lane order (log entry 24). -/
def stsAll (core base d n : Nat) (x : Issue) (a : Nat) : List (Nat × Out) → State → State
  | [], s => s
  | (l, .go _ _) :: rest, s =>
    let t := x.g.thread l
    stsAll core base d n x a rest { s with mem := putBytes s.mem (spadAddr core (base * 512 + (laneOff x t a).toNat)) ((t.vbytes d (regsOf n)).take n) }
  | _ :: rest, s => stsAll core base d n x a rest s

/-- `STS` (R204): performed at once, whatever the presence of its lines (R201). -/
def execSts (st : Bool) (d a : BitVec 7) (z : BitVec 3) (g : BitVec 2) (s : State) : Host.Outcome State Fault Refusal :=
  let n := sizeOf z
  runWord s 0x93 st (fun _ => { codeOk := decide (z.toNat < 5), vregs := [(d.toNat, regsOf n), (a.toNat, 1)] }) fun x s =>
    gated x s fun s =>
      let outs := eachLane x fun l t =>
        spadLane s x g.toNat l t (regRun d.toNat (regsOf n) ++ [a.toNat]) (laneOff x t a.toNat) n n n fun _ => skipLane x t
      let takers := outs.filter fun r => takesPart x.hints g.toNat (x.g.thread r.1)
      (stsAll x.g.core (spadRun s x.g).1 d.toNat n x a.toNat takers s).commit x outs

/-- The presence bits that `PTST` samples (R205). -/
def ptstWord (s : State) (g : Group) (o : Nat) : Word :=
  let (base, lines) := spadRun s g
  (List.range 32).foldl (fun m i =>
    let l := o / 512 + i
    if l < lines && !(s.absent.any fun a => a.1 == g.core && a.2.1 == base + l) then m ||| (1#32 <<< i) else m) 0#32

/-- `PTST` (R205). -/
def execPtst (st : Bool) (d a : BitVec 7) (g : BitVec 2) (s : State) : Host.Outcome State Fault Refusal :=
  runWord s 0x99 st (fun _ => { vregs := [(d.toNat, 1), (a.toNat, 1)] }) fun x s =>
    gated x s fun s =>
      let wid := s.nextId
      s.bump.commit x (eachLane x fun l t =>
        spadLane s x g.toNat l t [d.toNat, a.toNat] ((t.vget a.toNat).toNat : Int) 512 0 1 fun o =>
          .go (t.long x wid (trapEnables x.g) (.v d.toNat) (ptstWord s x.g o) 0#5) (.fall x.pc))

/-! ## Home operations (R206, R207, R210 to R213) -/

/-- `ATOM` (R206): `.fadd` has no 64-bit form. -/
def execAtom (st : Bool) (d a : BitVec 7) (k : BitVec 4) (r w : BitVec 1) (o : BitVec 3) (s : State) : Host.Outcome State Fault Refusal :=
  let n := if w == 1#1 then 8 else 4
  runWord s 0x94 st (fun _ => { codeOk := !(o == 7#3 && w == 1#1), vregs := [(d.toNat, n / 4), (a.toNat, 2)] }) fun x s =>
    memWord s x k.toNat (.atom o (w == 1#1) (r == 1#1) (modOf x.hints).sem (memScope x)) (some .home) true fun l t =>
      memLane s x 0 l t (regRun d.toNat (n / 4) ++ regRun a.toNat 2) (t.vpair a.toNat) n n .atomic fun p =>
        { lane := l, va := t.vpair a.toNat, phys := p, size := n, tgt := regRun d.toNat (n / 4), data := t.vbytes d.toNat (n / 4) }

/-- `ACAS` (R207): the expected value, then the new one. -/
def execAcas (st : Bool) (d a : BitVec 7) (k : BitVec 4) (r w : BitVec 1) (s : State) : Host.Outcome State Fault Refusal :=
  let n := if w == 1#1 then 8 else 4
  runWord s 0x95 st (fun _ => { vregs := [(d.toNat, n / 2), (a.toNat, 2)] }) fun x s =>
    memWord s x k.toNat (.cas (w == 1#1) (r == 1#1) (modOf x.hints).sem (memScope x)) (some .home) true fun l t =>
      memLane s x 0 l t (regRun d.toNat (n / 2) ++ regRun a.toNat 2) (t.vpair a.toNat) n n .atomic fun p =>
        { lane := l, va := t.vpair a.toNat, phys := p, size := n, tgt := regRun d.toNat (n / 4), data := t.vbytes d.toNat (n / 2) }

/-- Room for one more line in a cluster's cache of 2 MiB: a line of a free choice goes, its dirty bytes written back (R186). -/
def State.ccRoom (s : State) (clu : Nat) : State :=
  let mine := s.cc.filter fun l => l.clu == clu
  if mine.length < 8192 then s else match mine[Config.victim s.free % mine.length]? with
    | some l => State.dropLine { s with free := s.free + 1 } clu l.pa
    | none => s

/-- A line allocated in a cluster's cache, clean, when it is absent (R186). -/
def State.allocCC (s : State) (clu pa asid : Nat) : State :=
  match s.ccLine? clu pa with
  | some _ => s
  | none =>
    let s := s.ccRoom clu
    let y : CCLine := { clu := clu, pa := pa / 256 * 256, asid := asid, data := getBytes s.mem (pa / 256 * 256) 256, dirty := List.replicate 256 false }
    { s with cc := y :: s.cc }

/-- Room for one more line in a core's L1 of 256 KiB: a line of a free choice goes (R186). -/
def State.l1Room (s : State) (core : Nat) : State :=
  let mine := s.l1.filter fun l => l.core == core
  if mine.length < 2048 then s else match mine[Config.victim s.free % mine.length]? with
    | some v => { s with l1 := s.l1.filter fun l => !(l.core == core && l.asid == v.asid && l.va == v.va), free := s.free + 1 }
    | none => s

/-- A line brought into a core's L1, in place of other names of its bytes in the cluster (R57, R186). -/
def State.fillL1 (s : State) (core asid va pa : Nat) (t : Tlb) : State :=
  let base := pa / 128 * 128
  let byte := fun i => match s.ccLine? (clusterOf core) (base + i) with
    | some l => l.data.getD ((base + i) % 256) 0#8
    | none => memGet s.mem (base + i)
  let line : L1Line := { core := core, asid := asid, va := va / 128 * 128, pa := base, wr := t.wr && t.opn, d := t.d, data := (List.range 128).map byte }
  let kept := s.l1.filter fun l =>
    !(clusterOf l.core == clusterOf core && l.pa == base && (l.core == core || l.va != line.va || l.asid != asid)) &&
    !(l.core == core && l.asid == asid && l.va == line.va)
  let s := State.l1Room { s with l1 := kept } core
  { s with l1 := line :: s.l1 }

/-- A line that `PRF` brings near: into the L1 and the cluster's cache, or the cluster's cache alone, or L2, whose copies are its home's own bytes (R209). -/
def State.prfLine (s : State) (x : Issue) (lvl va pa : Nat) (t : Tlb) : State :=
  let s := if lvl < 2 then s.allocCC (clusterOf x.g.core) pa x.g.asid else s
  if lvl = 0 && (s.l1? x.g.core x.g.asid va).isNone then s.fillL1 x.g.core x.g.asid va pa t else s

/-- The 128-byte lines of a span that pass every check and lie in local NORMAL memory, filled (R209). -/
def prfLines (x : Issue) (lvl : Nat) : List Nat → State → State
  | [], s => s
  | va :: rest, s =>
    let ok := match s.launch? x.g.launch with
      | some l => s.leased l rightsRd va 128
      | none => false
    let s := match s.tlb? (clusterOf x.g.core) x.g.asid va with
      | some t => match useEntry t x.g.asid va rightsRd false, s.target t va with
        | .ok _, .home pa => if ok then s.prfLine x lvl va pa t else s
        | _, _ => s
      | none => s
    prfLines x lvl rest s

/-- Does the address lie in the trap-frame window (R369)? -/
def inFrames (va : Nat) : Bool := decide (frameVa ≤ va ∧ va < frameVa + 0x800)

/-- Does a span reach into the trap-frame window? -/
def meetsFrames (va n : Nat) : Bool := decide (va < frameVa + 0x800 ∧ frameVa < va + n)

/-- `PRF` (R209): no access, and no trap but that of the trap-frame window (R369; log entry 25). -/
def execPrf (st : Bool) (l : BitVec 2) (a : BitVec 7) (z : BitVec 3) (g : BitVec 2) (s : State) : Host.Outcome State Fault Refusal :=
  runWord s 0x96 st (fun _ => { codeOk := l != 3#2 && decide (z.toNat < 5), vregs := [(a.toNat, 2)] }) fun x s =>
    gated x s fun s =>
      let outs := eachLane x fun lane t =>
        if !takesPart x.hints g.toNat t then skipLane x t
        else
          let va := laneVa x t a.toNat
          whenFree s x lane (regRun a.toNat 2)
            (if meetsFrames (va / 256 * 256) (256 * 2 ^ z.toNat) then .trap trapMemType (BitVec.ofNat 64 va) 0 else skipLane x t)
      let takers := x.lanes.filter fun lane => takesPart x.hints g.toNat (x.g.thread lane)
      let vas := takers.flatMap fun lane =>
        let va := laneVa x (x.g.thread lane) a.toNat / 256 * 256
        (List.range (2 * 2 ^ z.toNat)).map fun i => va + 128 * i
      (prfLines x l.toNat vas s).commit x outs

/-- Step 3 of R192 for a whole `CFLUSH` span (R210): the outcome of a span that fails it. One in the trap-frame window passes it, and has a size that the
window does not take (R369). -/
def spanLease (s : State) (x : Issue) (va n : Nat) : Option Out :=
  if frameVa ≤ va ∧ va + n ≤ frameVa + 0x800 then some (.trap trapMisaligned (BitVec.ofNat 64 va) (n % 256))
  else if (s.launch? x.g.launch).any fun l => s.leased l rightsRd va n then none
  else some (.stop 1 (BitVec.ofNat 64 va) (n % 256))

/-- Step 4 of R192 for the part of a `CFLUSH` span in one page. -/
def spanPage (s : State) (x : Issue) (lane va n : Nat) : Chk :=
  match translate s x.g.core x.g.asid va rightsRd false (x.g.thread lane).wake with
  | .fault => .out (.stop 2 (BitVec.ofNat 64 va) (n % 256))
  | .park r w => .out (.park r w)
  | .ok t => .ok (if t.mt == 0 then s.target t va else .zero)

/-- The checks of a `CFLUSH` span (R192, R210): as a load, the whole span step by step, without the memory-type step; and the part that it gives the
operation, in one page or in two. -/
def spanCheck (s : State) (x : Issue) (lane va n : Nat) : LaneMem :=
  let n1 := min n (65536 - va % 65536)
  match spanLease s x va n with
  | some o => .out o
  | none => match spanPage s x lane va n1 with
    | .out o => .out o
    | .ok p =>
      if n1 = n then .part { lane := lane, va := va, phys := p, size := n }
      else match spanPage s x lane (va + n1) (n - n1) with
        | .out o => .out o
        | .ok q => .part { lane := lane, va := va, phys := p, size := n1, tail := some (q, n - n1) }

/-- `CFLUSH` (R210): OPN 0b11 and a size code above 4 are reserved; it enters the queue like a store. -/
def execCflush (st : Bool) (o : BitVec 2) (a : BitVec 7) (k : BitVec 4) (z : BitVec 3) (g : BitVec 2) (s : State) :
    Host.Outcome State Fault Refusal :=
  runWord s 0x98 st (fun _ => { codeOk := o != 3#2 && decide (z.toNat < 5), vregs := [(a.toNat, 2)] }) fun x s =>
    memWord s x k.toNat (.cflush o) (some .home) false fun l t =>
      if !takesPart x.hints g.toNat t then .skip
      else match whenFree s x l (regRun a.toNat 2) (skipLane x t) with
        | .go _ _ => spanCheck s x l (t.vpair a.toNat / 256 * 256) (256 * 2 ^ z.toNat)
        | out => .out out

/-- A lane of `LDT` or `STT` (R211 to R213): the scratchpad offset and the header are checked at issue, the header's alignment first, and a misaligned offset
is reported with size 0 (R192; log entry 189). -/
def tileLane (s : State) (x : Issue) (guard lane : Nat) (t : Thread) (d a : Nat) (k : Access) : LaneMem :=
  if !takesPart x.hints guard t then .skip
  else match whenFree s x lane ([d] ++ regRun a 2) (skipLane x t) with
    | .go _ _ =>
      let va := t.vpair a
      let o := (t.vget d).toNat
      if va % 64 != 0 then misaligned va 64
      else if o % 512 != 0 then misaligned o 0
      else match accessCheck s x lane k va 64 false with
        | .ok p => .part { lane := lane, va := va, phys := p, size := 64, data := natLe 4 o }
        | .out o => .out o
    | out => .out out

/-- `LDT` (R213). -/
def execLdt (st : Bool) (d a : BitVec 7) (k : BitVec 4) (g : BitVec 2) (s : State) : Host.Outcome State Fault Refusal :=
  runWord s 0x9A st (fun _ => { vregs := [(d.toNat, 1), (a.toNat, 2)] }) fun x s =>
    memWord s x k.toNat (.ldt (modOf x.hints).sem (memScope x)) (some .home) false fun l t => tileLane s x g.toNat l t d.toNat a.toNat .tileRd

/-- `STT` (R212). -/
def execStt (st : Bool) (d a : BitVec 7) (k : BitVec 4) (g : BitVec 2) (s : State) : Host.Outcome State Fault Refusal :=
  runWord s 0x9B st (fun _ => { vregs := [(d.toNat, 1), (a.toNat, 2)] }) fun x s =>
    memWord s x k.toNat (.stt (modOf x.hints).sem (memScope x)) (some .home) true fun l t => tileLane s x g.toNat l t d.toNat a.toNat .tile

/-! ## FENCE (R361) -/

/-- Is an operation's part an access that loads and has not yet been performed? -/
def loadPending (o : Op) (p : Part) : Bool := (match o.kind with
  | .load _ _ => true
  | .atom _ _ _ _ _ => true
  | .cas _ _ _ _ => true
  | .ldt _ _ => true
  | _ => false) && !p.performed && p.fin.isNone

/-- Is an operation of the kinds that acquire, and has it the acquire half? -/
def Op.acquires (o : Op) : Bool := match o.kind with
  | .load a _ => a
  | .atom _ _ _ m _ => m.getLsbD 0
  | .cas _ _ m _ => m.getLsbD 0
  | .ldt m _ => m.getLsbD 0
  | .stt m _ => m.getLsbD 0
  | _ => false

/-- Does an acquire of a lane of a group, before a place in its order, wait to be performed, and hold back what follows it (R359)? -/
def State.acquireHolds (s : State) (u seq lane : Nat) : Bool :=
  s.ops.any fun q => q.grp == u && decide (q.seq < seq) && q.acquires && q.parts.any fun p => p.lane == lane && !p.performed && p.fin.isNone

/-- Have all loads of some lanes of a group, issued before a place in its order, been performed? -/
def State.loadsDone (s : State) (u seq : Nat) (lanes : List Nat) : Bool :=
  s.ops.all fun o => !(o.grp == u && decide (o.seq < seq)) || o.parts.all fun p => !(lanes.contains p.lane && loadPending o p)

/-- Has a part of an operation been performed as a release at a scope needs it (R362)? Below `pod`, one for another device has when it has left the queue. -/
def partSettled (scope : Nat) (o : Op) (p : Part) : Bool :=
  p.fin.isSome || (match o.kind, p.phys with
    | .load _ _, _ => true
    | _, .remote _ _ => p.sent && decide (scope < 6)
    | .store _ _, .home _ => p.sent
    | .store _ _, .host _ => p.sent
    | _, _ => p.performed)

/-- Is an update one of a group's, of a word before a place in its order? -/
def BUpdate.precedes (b : BUpdate) (u seq : Nat) : Bool := b.grp == u && decide (b.seq < seq)

/-- Have the group's barrier updates before a place in its order been performed as a release at a scope needs it (R347, R362)? -/
def State.updatesDone (s : State) (u seq scope : Nat) : Bool :=
  !(s.updates.any fun b => b.precedes u seq) && (decide (scope < 6) || !(s.rtx.any fun r => match r.owner with
    | .update b => b.precedes u seq
    | _ => false))

/-- Have the group's stores, home operations and barrier updates before a place in its order been performed at a scope (R361, R362)? -/
def State.storesDone (s : State) (u seq scope : Nat) : Bool :=
  (s.ops.all fun o => !(o.grp == u && decide (o.seq < seq)) || o.parts.all (partSettled scope o)) && s.updatesDone u seq scope

/-- `FENCE` for the lanes that take part (R361). -/
def fenceWord (s : State) (x : Issue) (kind : Nat) (scope : BitVec 3) (ls : List Nat) : State :=
  let sc := scopeOf scope.toNat
  let seq := x.g.seq
  let woken := ls.all fun l => match (x.g.thread l).wake with
    | .fence _ _ _ => true
    | _ => false
  let out := fun (s : State) (o : Option Out) => s.commit x (eachLane x fun l t => if ls.contains l then o.getD (skipLane x t) else skipLane x t)
  let mark := fun (s : State) => s.modGroup x.g.uid fun g =>
    { g with seq := g.seq + 1, sq := g.sq ++ [{ seq := seq, kind := .fence scope seq, lane := (laneMask ls).toNat }] }
  if ls.isEmpty then s.commit x (allGo x)
  else if kind = 2 then out (mark s) none
  else if woken || (s.loadsDone x.g.uid seq ls && (kind = 1 || (x.g.sq.isEmpty && s.storesDone x.g.uid seq sc))) then
    let s := if kind = 3 then s.release (clusterOf x.g.core) sc else s
    out (s.acquire x.g.core sc) none
  else out (if kind = 3 then mark s else s) (some (.park .wait (.fence seq ls (kind == 3))))

/-- `FENCE` (R361): KIND 0b00 and SCP 0b111 are reserved; a nonzero SCP of `HMOD` replaces the word's. -/
def execFence (st : Bool) (p : BitVec 3) (k : BitVec 2) (g : BitVec 2) (s : State) : Host.Outcome State Fault Refusal :=
  runWord s 0x97 st (fun _ => { codeOk := k != 0#2 && p != 7#3 }) fun x s =>
    gated x s fun s =>
      fenceWord s x k.toNat (if (modOf x.hints).scp == 0#3 then p else (modOf x.hints).scp) (x.lanes.filter fun l => takesPart x.hints g.toNat (x.g.thread l))

end Sys2Proof.Machine
end

