-- ==== Sys2Proof/Machine/TokenWords.lean ====
section
/-!
DEFINITION. The meanings of the token and barrier words 0xA0 to 0xA8 (R343 to R347, R353 to R355): `WAIT`, `WAITC`, `TST`, `TCLR`, `TEXP`, `BINIT`, `ARV`,
`BWAIT` and `BPOLL`; and the barrier object as they read it (R348, R349).
-/
namespace Sys2Proof.Machine
open Sys2Proof

/-! ## WAIT and WAITC (R344, R345) -/

/-- The tokens of a mask, lowest first. -/
def maskTokens (m : BitVec 16) : List Nat := (List.range 16).filter fun i => m.getLsbD i

/-- Has a token finished: DONE, DONE-BAD or POISON? -/
def Token.finished (t : Token) : Bool := t.st == .done || t.st == .doneBad || t.st == .poison

/-- `WAIT`'s ready condition (R344). -/
def waitReady (g : Group) (m : BitVec 16) (any : Bool) : Bool :=
  let ks := (maskTokens m).map g.token
  if any then ks.isEmpty || ks.all (fun t => t.st == .idle) || ks.any Token.finished
  else ks.all fun t => t.st != .pend

/-- Is a token's end bad (R344, R345)? -/
def Token.bad (t : Token) (badp : Bool) : Bool := t.st == .poison || (badp && t.st == .doneBad)

/-- The status of a wait written to a uniform predicate when QEN is set. -/
def putStatus (e : BitVec 1) (q : BitVec 2) (bad : Bool) (g : Group) : Group := if e == 1#1 then g.qset q.toNat bad else g

/-- A wait that is over: the `q` write happens before the trap is taken (R344). -/
def endWait (s : State) (x : Issue) (e : BitVec 1) (q : BitVec 2) (trp : BitVec 1) (bad : Option (BitVec 8)) : State :=
  let s := s.modGroup x.g.uid (putStatus e q bad.isSome)
  match bad with
  | some c => s.commit x (if trp == 1#1 then allTrap x (0x40010000#32 + c.setWidth 32) else allGo x)
  | none => s.commit x (allGo x)

/-- The cause that a bad token gives a trap: its own, or 0x18 for DONE-BAD (R344). -/
def Token.badCause (t : Token) : BitVec 8 := if t.st == .doneBad then 0x18#8 else t.cause

/-- `WAIT` (R344). -/
def execWait (st : Bool) (q : BitVec 2) (e : BitVec 1) (k : BitVec 16) (y t b : BitVec 1) (s : State) : Host.Outcome State Fault Refusal :=
  runWord s 0xA0 st (fun _ => {}) fun x s =>
    gated x s fun s =>
      if waitReady x.g k (y == 1#1) then
        endWait s x e q t (((maskTokens k).map x.g.token).find? (fun u => u.bad (b == 1#1)) |>.map Token.badCause)
      else s.commit x (allPark x .wait (.tokens k (y == 1#1)))

/-- `WAITC`'s condition: the token is not PEND, or every bit of the mask is set in PROG (R345). -/
def progReady (g : Group) (k : Nat) (m : DWord) : Bool := (g.token k).st != .pend || (g.token k).prog &&& m == m

/-- `WAITC` (R345). -/
def execWaitc (st : Bool) (k : BitVec 4) (a : BitVec 8) (q : BitVec 2) (e t b : BitVec 1) (s : State) : Host.Outcome State Fault Refusal :=
  runWord s 0xA1 st (fun _ => { sregs := [(a.toNat, 2)] }) fun x s =>
    gated x s fun s =>
      let m : DWord := BitVec.ofNat 64 (x.g.spair a.toNat)
      let u := x.g.token k.toNat
      if progReady x.g k.toNat m then endWait s x e q t (if u.bad (b == 1#1) then some u.badCause else none)
      else s.commit x (allPark x .wait (.prog k.toNat m))

/-! ## TST and TCLR (R346) -/

/-- `TST` (R346): with PW = 0, sb must be 0. -/
def execTst (st : Bool) (k : BitVec 4) (d b : BitVec 8) (w : BitVec 1) (s : State) : Host.Outcome State Fault Refusal :=
  runWord s 0xA2 st (fun _ => { codeOk := w == 1#1 || b == 0#8, sregs := if w == 1#1 then [(d.toNat, 1), (b.toNat, 2)] else [(d.toNat, 1)] }) fun x s =>
    gated x s fun s =>
      let t := x.g.token k.toNat
      scalarWord s x fun g =>
        let g := g.sset d.toNat (statusWord t.st t.cause)
        if w == 1#1 then (g.sset b.toNat (t.prog.setWidth 32)).sset (b.toNat + 1) (t.prog.extractLsb' 32 32) else g

/-- Tokens cleared one after another: a PEND one's operation is detached (R216, R339, R346). -/
def clearTokens (u : Nat) : List Nat → State → State
  | [], s => s
  | i :: is, s => clearTokens u is (match s.group? u with
    | some g => (s.detach g i).modGroup u fun g => g.setToken i {}
    | none => s)

/-- `TCLR` (R346). -/
def execTclr (st : Bool) (k : BitVec 16) (s : State) : Host.Outcome State Fault Refusal :=
  runWord s 0xA3 st (fun _ => {}) fun x s => gated x s fun s => (clearTokens x.g.uid (maskTokens k) s).commit x (allGo x)

/-! ## The barrier object (R348, R349) -/

/-- A phase barrier's fields. -/
structure Barrier where
  phase : Nat
  flags : Nat
  expa  : Nat
  pena  : Nat
  penb  : Nat
  brld  : Nat
  nasid : Nat
  deriving DecidableEq, Repr

/-- The barrier that 32 bytes hold. -/
def barrierOf (bs : Bytes) : Barrier :=
  { phase := fieldLe bs 0 4, flags := fieldLe bs 4 4, expa := fieldLe bs 8 4, pena := fieldLe bs 12 4, penb := fieldLe bs 16 8, brld := fieldLe bs 24 4,
    nasid := fieldLe bs 28 4 }

/-- The 32 bytes of a barrier. -/
def Barrier.bytes (b : Barrier) : Bytes :=
  natLe 4 b.phase ++ natLe 4 b.flags ++ natLe 4 b.expa ++ natLe 4 b.pena ++ natLe 8 b.penb ++ natLe 4 b.brld ++ natLe 4 b.nasid

/-- The SCOPE of a barrier. -/
def Barrier.scope (b : Barrier) : Nat := bitsOf b.flags 17 3
/-- POIS. -/
def Barrier.pois (b : Barrier) : Bool := bitOf b.flags 23
/-- CAUSE. -/
def Barrier.cause (b : Barrier) : BitVec 8 := BitVec.ofNat 8 (bitsOf b.flags 24 8)
/-- LBAD. -/
def Barrier.lbad (b : Barrier) : Bool := bitOf b.flags 22

/-- Is the barrier valid (R349)? -/
def Barrier.valid (b : Barrier) : Bool :=
  bitOf b.flags 16 && bitsOf b.flags 0 16 == 0 && decide (1 ≤ b.scope ∧ b.scope ≤ 6) && decide (0 < b.expa ∧ b.expa < 2 ^ 24 ∧ b.pena ≤ b.expa) &&
  decide (b.nasid < 512)

/-- Is a phase at or past a target in serial order (R26)? -/
def phaseReached (phase target : Nat) : Bool := decide ((phase + 2 ^ 32 - target) % 2 ^ 32 < 2 ^ 31)

/-- The target is reached, or the barrier is invalid (R355). -/
def Barrier.reached (b : Barrier) (target : Nat) : Bool := !b.valid || phaseReached b.phase target

/-- The cause with which a waiter finds a barrier bad (R355). -/
def Barrier.badCause (b : Barrier) (badp : Bool) : Option (BitVec 8) :=
  if !b.valid then some 0x81#8 else if b.pois then some b.cause else if badp && b.lbad then some 0x18#8 else none

/-- The barrier at a device-local address, read at its home. -/
def State.barrierAt (s : State) (pa : Nat) : Barrier := barrierOf (getBytes s.mem pa 32)

/-- Is the address one of the launch record's barriers, which pass the lease check for its barrier operations (R53)? -/
def State.namedBarrier (s : State) (g : Group) (va : Nat) : Bool := match s.launch? g.launch with
  | some l => va != 0 && (l.doneb == va || l.pres.any fun p => p.bar == va)
  | none => false

/-- The checks of a barrier address at issue (R343), for all 32 bytes and for the whole issue set; a word that reads the barrier ends the task when its line
is lost (R397). -/
def barrierCheck (s : State) (x : Issue) (va : Nat) (k : Access) : Chk :=
  if va % 32 != 0 then .out (.trap trapMisaligned (BitVec.ofNat 64 va) 32)
  else match accessCheck s x (x.lanes.headD 0) k va 32 (s.namedBarrier x.g va) with
    | .ok (.home pa) => if k == .barrierRd && s.lostIn pa 32 then .out (.stop 0x31 (BitVec.ofNat 64 va) 32) else .ok (.home pa)
    | r => r

/-- A barrier word behind its address check: a failed check is every thread's outcome. -/
def barrierWord (s : State) (x : Issue) (va : Nat) (k : Access) (body : Phys → State) : State :=
  match barrierCheck s x va k with
  | .ok p => body p
  | .out o => (noteParks k.writes [(0, o)] s).commit x (eachLane x fun _ _ => o)

/-! ## TEXP, BINIT and ARV (R347, R353, R354) -/

/-- An entry of the group's store queue for a barrier word (R343), with the update that a `TEXP` of a finished token sends from it. -/
def pushBarrier (s : State) (u seq op : Nat) (upds : List (Nat × BUpdate)) : State :=
  s.modGroup u fun g => { g with sq := g.sq ++ [{ seq := seq, kind := .barrier, op := op, upds := upds }] }

/-- `TEXP` once its address has passed (R347): an update now, or an export attached to the operation in flight. -/
def texpBody (s : State) (x : Issue) (k va arr : Nat) (byt : Bool) : State :=
  let t := x.g.token k
  let seq := x.g.seq
  let s' := s.modGroup x.g.uid fun g => { g with seq := g.seq + 1 }
  match (if t.st == .pend then s.op? t.op else none) with
  | some o =>
    if 4 ≤ o.exprts.length then s.commit x (allTrap x 0x40050001#32)
    else
      let s' := s'.modOp o.id fun o => { o with exprts := o.exprts ++ [{ bar := va, arr := arr, byt := byt, grp := x.g.uid, seq := seq, pc := x.pc, lanes := x.lanes }] }
      (pushBarrier s' x.g.uid seq 0 []).commit x (allGo x)
  | none =>
    let u : BUpdate := { arr := arr, cause := if t.st == .poison then some t.cause else none, bad := t.st == .doneBad, unit := x.g.core, asid := x.g.asid,
                         seq := seq, pc := x.pc, lanes := x.lanes }
    (pushBarrier s' x.g.uid seq 0 [(va, u)]).commit x (allGo x)

/-- `TEXP` (R347): ARR and BYT are not both 0, and sb is 0 when ARR is 0. -/
def execTexp (st : Bool) (k : BitVec 4) (a b : BitVec 8) (y r : BitVec 1) (s : State) : Host.Outcome State Fault Refusal :=
  runWord s 0xA4 st (fun _ => { codeOk := !(y == 0#1 && r == 0#1) && (r == 1#1 || b == 0#8), sregs := [(a.toNat, 2), (b.toNat, 1)] }) fun x s =>
    gated x s fun s =>
      let va := x.g.spair a.toNat
      let c := (x.g.sget b.toNat).toNat
      if r == 1#1 && decide (2 ^ 16 ≤ c) then s.commit x (allTrap x 0x40050002#32)
      else barrierWord s x va .barrierWr fun _ => texpBody s x k.toNat va (if r == 1#1 then c else 0) (y == 1#1)

/-- An operation of a barrier word bound and queued (R343, R353, R354); `bad` is the cause of an invalid descriptor, 0 for none. -/
def bindBarrier (s : State) (x : Issue) (k va : Nat) (p : Phys) (kind : OpKind) (bad : Nat) : State :=
  let (id, s) := s.bindWith x k kind fun o => { o with parts := [{ lane := 0, va := va, phys := p, size := 32 }], stage := bad, va := va }
  (pushBarrier s x.g.uid x.g.seq id []).commit x (allGo x)

/-- Is `BINIT`'s descriptor word valid (R353)? -/
def binitOk (w : Nat) : Bool := bitsOf w 0 24 != 0 && bitsOf w 24 3 != 0 && bitsOf w 24 3 != 7 && bitsOf w 28 4 == 0

/-- `BINIT` (R353). -/
def execBinit (st : Bool) (k : BitVec 4) (a b : BitVec 8) (s : State) : Host.Outcome State Fault Refusal :=
  runWord s 0xA5 st (fun _ => { sregs := [(a.toNat, 2), (b.toNat, 2)] }) fun x s =>
    let va := x.g.spair a.toNat
    barrierWord s x va .barrierWr fun p =>
      bindBarrier s x k.toNat va p (.binit (x.g.sget b.toNat) (x.g.sget (b.toNat + 1))) (if binitOk (x.g.sget b.toNat).toNat then 0 else 0x82)

/-- Is `ARV`'s descriptor valid (R354)? -/
def arvOk (w : Nat) (psn : Bool) : Bool :=
  bitsOf w 16 8 == 0 && (if psn then decide (0xC0 ≤ bitsOf w 24 8) else bitsOf w 24 8 == 0)

/-- `ARV` (R354). -/
def execArv (st : Bool) (k : BitVec 4) (a b : BitVec 8) (e p : BitVec 1) (s : State) : Host.Outcome State Fault Refusal :=
  runWord s 0xA6 st (fun _ => { sregs := [(a.toNat, 2), (b.toNat, 2)] }) fun x s =>
    let va := x.g.spair a.toNat
    let w := (x.g.sget b.toNat).toNat
    let n : Int := ((x.g.sget (b.toNat + 1)).toNat : Int)
    barrierWord s x va .barrierWr fun ph =>
      bindBarrier s x k.toNat va ph (.arv (bitsOf w 0 16) (if e == 1#1 then n else -n) (if p == 1#1 then some (BitVec.ofNat 8 (bitsOf w 24 8)) else none))
        (if arvOk w (p == 1#1) then 0 else 0x83)

/-! ## BWAIT and BPOLL (R352, R355) -/

/-- The key of a remote barrier in a group's reads: its physical address. -/
def remoteKey (dev pa : Nat) : Nat := dev * 2 ^ 46 + pa

/-- The read of a group's remote barrier: not begun, under way, returned, or failed with a cause. -/
def State.barRead (s : State) (u key : Nat) : Option (Option Bytes × BitVec 8) :=
  (s.barReads.find? fun r => r.1 == u && r.2.1 == key).map fun r => r.2.2

/-- A group's reads without the one of a barrier. -/
def State.dropBarRead (s : State) (u key : Nat) : State := { s with barReads := s.barReads.filter fun r => !(r.1 == u && r.2.1 == key) }

/-- A load of a remote barrier sent to its home (R352), when the retransmit buffer has room; without a path it fails at once with 0x61. -/
def State.askBarrier (s : State) (u asid dev pa : Nat) : State :=
  let p : Packet := { ty := 1#8, src := 0#16, dst := BitVec.ofNat 16 dev, addr := BitVec.ofNat 64 pa, len := 32#16 }
  let key := remoteKey dev pa
  if !s.rtxRoom 1 then s else
  let s := { s with advanced := s.advanced.filter fun a => !(a.1 == dev && a.2.1 == pa) }
  match s.request p (.barRead u key) asid u with
  | (s, true) => { s with barReads := (u, key, none, 0#8) :: s.barReads }
  | (s, false) => { s with barReads := (u, key, none, 0x61#8) :: s.barReads }

/-- What a barrier word reads at issue: the barrier here; the outcome of a remote read; or nothing yet. -/
inductive BarView where
  | here (b : Barrier)
  | failed (cause : BitVec 8)
  | ask
  | pending
  deriving DecidableEq, Repr

/-- The view of a barrier for a group. -/
def State.barView (s : State) (u : Nat) (p : Phys) : BarView :=
  match p with
  | .remote dev pa => match s.barRead u (remoteKey dev pa) with
    | none => .ask
    | some (some bs, _) => .here (barrierOf bs)
    | some (none, c) => if c == 0#8 then .pending else .failed c
  | .home pa => .here (s.barrierAt pa)
  | _ => .ask

/-- A finished view of a remote barrier is consumed by the word that uses it. -/
def State.useView (s : State) (u : Nat) (p : Phys) : State := match p with
  | .remote dev pa => s.dropBarRead u (remoteKey dev pa)
  | _ => s

/-- An acquire at a valid barrier's scope, once its target is reached (R355). -/
def State.acquireAt (s : State) (core : Nat) (b : Barrier) : State := if b.valid then s.acquire core b.scope else s

/-- A barrier word reads at the home (R357): its cluster's copies of the line go there first, and later loads read there too. -/
def State.toHome (s : State) (x : Issue) (p : Phys) : State := match p with
  | .home pa => s.dropExtent (clusterOf x.g.core) pa 32
  | _ => s

/-- The outcome of a barrier word whose remote read was denied: its task ends, each thread's record naming its own word (R303, R376, R379). -/
def deniedRead (s : State) (x : Issue) (va : Nat) : State := s.commit x (eachLane x fun _ _ => .stop 4 (BitVec.ofNat 64 va) 32)

/-- A `BWAIT` that has not reached its target: parked on the home here, or watching it at the other device (R352). -/
def parkBarrier (s : State) (x : Issue) (p : Phys) (target : Word) (watch : Bool) : State :=
  match p with
  | .remote dev pa =>
    let s := if watch then (s.dropBarRead x.g.uid (remoteKey dev pa)).sendMgmt dev 9 x.g.asid (natLe 8 pa ++ natLe 4 target.toNat ++ natLe 4 0) else s
    s.commit x (allPark x .wait (.watch dev pa target))
  | .home pa => s.commit x (allPark x .wait (.barrier pa target))
  | _ => s.commit x (allGo x)

/-- `BWAIT` (R355). -/
def execBwait (st : Bool) (q : BitVec 2) (e : BitVec 1) (a b : BitVec 8) (t p : BitVec 1) (s : State) : Host.Outcome State Fault Refusal :=
  runWord s 0xA7 st (fun _ => { sregs := [(a.toNat, 2), (b.toNat, 1)] }) fun x s =>
    gated x s fun s =>
      let target := x.g.sget b.toNat
      barrierWord s x (x.g.spair a.toNat) .barrierRd fun ph =>
        let s := s.toHome x ph
        match s.barView x.g.uid ph with
        | .here bar =>
          if bar.reached target.toNat then
            endWait ((s.useView x.g.uid ph).acquireAt x.g.core bar) x e q t (bar.badCause (p == 1#1))
          else parkBarrier s x ph target true
        | .failed c => if c == 0x60#8 then deniedRead (s.useView x.g.uid ph) x (x.g.spair a.toNat) else endWait (s.useView x.g.uid ph) x e q t (some c)
        | .pending => parkBarrier s x ph target false
        | .ask => match ph with
          | .remote dev pa => parkBarrier (s.askBarrier x.g.uid x.g.asid dev pa) x ph target false
          | _ => s.commit x (allGo x)

/-- What `BPOLL` writes (R355). -/
def pollWrite (q : BitVec 2) (b : Nat) (reached : Bool) (flags phase : Nat) (g : Group) : Group :=
  ((g.qset q.toNat reached).sset b (BitVec.ofNat 32 flags)).sset (b + 1) (BitVec.ofNat 32 phase)

/-- `BPOLL` (R355): one read, without a watch. -/
def execBpoll (st : Bool) (q : BitVec 2) (a b : BitVec 8) (s : State) : Host.Outcome State Fault Refusal :=
  runWord s 0xA8 st (fun _ => { sregs := [(a.toNat, 2), (b.toNat, 2)] }) fun x s =>
    gated x s fun s =>
      let target := x.g.sget b.toNat
      barrierWord s x (x.g.spair a.toNat) .barrierRd fun ph =>
        let s := s.toHome x ph
        match s.barView x.g.uid ph with
        | .here bar =>
          let s := s.useView x.g.uid ph
          let s := if bar.reached target.toNat then s.acquireAt x.g.core bar else s
          scalarWord s x (pollWrite q b.toNat (bar.reached target.toNat) bar.flags bar.phase)
        | .failed c => if c == 0x60#8 then deniedRead (s.useView x.g.uid ph) x (x.g.spair a.toNat) else scalarWord (s.useView x.g.uid ph) x (pollWrite q b.toNat true (0x00800000 + c.toNat * 2 ^ 24) 0)
        | .pending => parkBarrier s x ph target false
        | .ask => match ph with
          | .remote dev pa => parkBarrier (s.askBarrier x.g.uid x.g.asid dev pa) x ph target false
          | _ => s.commit x (allGo x)

end Sys2Proof.Machine
end

