-- ==== Sys2Proof/Machine/Shape.lean ====
section
/-!
DEFINITION. The shape record of copies and its longer forms for collectives, multicasts and dispatch (R221 to R223, R314, R320, R323): their fields, their
limits as the engine checks them at issue, and the destination extents that clear presence (R226). Also the view that a group has of memory at the issue of
an engine command (R196, R224).
-/
namespace Sys2Proof.Machine
open Sys2Proof

/-- The two's-complement number of eight bytes. -/
def fieldS64 (bs : Bytes) (off : Nat) : Int := sextNat (fieldLe bs off 8) 64

/-- A shape record's fields (R221, R222). -/
structure Shape where
  ctl   : Nat
  src   : Nat
  dst   : Nat
  e0    : Nat
  e1    : Nat
  e2    : Nat
  e3    : Nat
  ss1   : Int
  ss2   : Int
  ss3   : Int
  badl  : Nat
  ckin  : Nat
  ckout : Nat
  deriving DecidableEq, Repr

/-- The fields that 128 bytes hold. -/
def shapeOf (bs : Bytes) : Shape :=
  { ctl := fieldLe bs 0 8, src := fieldLe bs 8 8, dst := fieldLe bs 16 8, e0 := fieldLe bs 0x18 4, e1 := fieldLe bs 0x1C 4, e2 := fieldLe bs 0x20 4,
    e3 := fieldLe bs 0x24 4, ss1 := fieldS64 bs 0x28, ss2 := fieldS64 bs 0x30, ss3 := fieldS64 bs 0x38, badl := fieldLe bs 0x40 8,
    ckin := fieldLe bs 0x48 8, ckout := fieldLe bs 0x50 8 }

/-- XTAG. -/
def Shape.xtag (h : Shape) : Nat := bitsOf h.ctl 48 16
/-- SLM1: the number of slices minus 1. -/
def Shape.slm1 (h : Shape) : Nat := bitsOf h.ctl 43 5
/-- SQ. -/
def Shape.sq (h : Shape) : Nat := bitsOf h.ctl 40 3
/-- PUB. -/
def Shape.pub (h : Shape) : Bool := bitOf h.ctl 39
/-- SCOPE. -/
def Shape.scope (h : Shape) : Nat := bitsOf h.ctl 36 3
/-- REL. -/
def Shape.rel (h : Shape) : Bool := bitOf h.ctl 35
/-- ACQ. -/
def Shape.acq (h : Shape) : Bool := bitOf h.ctl 34
/-- CKV: verify each chunk's check. -/
def Shape.ckv (h : Shape) : Bool := bitOf h.ctl 33
/-- CKG: generate each chunk's check. -/
def Shape.ckg (h : Shape) : Bool := bitOf h.ctl 32
/-- XF: 0 NONE, 1 TRANS, 2 EXP6, 3 UNPACK. -/
def Shape.xf (h : Shape) : Nat := bitsOf h.ctl 30 2
/-- FMT. -/
def Shape.fmt (h : Shape) : Nat := bitsOf h.ctl 26 4
/-- SKIND: 0 MEM, 1 SPAD. -/
def Shape.skind (h : Shape) : Nat := bitsOf h.ctl 24 2
/-- DKIND: 0 MEM, 1 SPAD, 2 WBUF, 3 WIN. -/
def Shape.dkind (h : Shape) : Nat := bitsOf h.ctl 22 2
/-- WARR. -/
def Shape.warr (h : Shape) : Nat := bitsOf h.ctl 20 2

/-- The bytes of the source sequence (R223). -/
def Shape.total (h : Shape) : Nat := h.e0 * h.e1 * h.e2 * h.e3

/-- DL, the bytes of a copy's destination sequence (R228). -/
def Shape.dl (h : Shape) : Nat := if h.xf = 3 then 512 * h.e1 else if h.xf = 2 then h.total * 4 / 3 else h.total

/-- The number of chunks of a sequence of bytes (R223). -/
def chunksOf (dl : Nat) : Nat := (dl + 511) / 512

/-- The format of the destination bytes (R229): the expanded one under EXP6. -/
def Shape.dfmt (h : Shape) : Nat := if h.xf = 2 then (if h.fmt = 5 then 3 else if h.fmt = 6 then 4 else h.fmt) else h.fmt

/-- A copy's source with an offset added: a scratchpad offset, or an address modulo 2^64 (R225). -/
def Shape.srcAt (h : Shape) (soff : Int) : Int := if h.skind = 1 then (h.src % 2 ^ 32 : Nat) + soff else ((h.src : Int) + soff) % (2 ^ 64 : Nat)

/-- A copy's destination with an offset added. -/
def Shape.dstAt (h : Shape) (doff : Nat) : Nat := if h.dkind = 1 ∨ h.dkind = 2 then h.dst % 2 ^ 32 + doff else (h.dst + doff) % 2 ^ 64

/-- What every use of a shape record checks: reserved bits, kinds, the sizes and strides of the runs (R221 to R223). -/
def Shape.common (bs : Bytes) (h : Shape) (src : Int) (dst : Nat) : Bool :=
  bitsOf h.ctl 0 20 == 0 && (sliceBytes bs 0x58 40).all (fun b => b == 0#8) && h.scope != 7 && decide (h.skind < 2) && decide (h.fmt < 12) &&
  (h.pub || h.sq == 0) && (h.dkind == 2 || h.warr == 0) && (h.skind != 1 || h.src / 2 ^ 32 == 0) &&
  (!(h.dkind == 1 || h.dkind == 2) || h.dst / 2 ^ 32 == 0) &&
  decide (4 ≤ h.e0 ∧ h.e0 ≤ 2 ^ 26) && h.e0 % 4 == 0 && decide (1 ≤ h.e1 ∧ 1 ≤ h.e2 ∧ 1 ≤ h.e3) && decide (h.total ≤ 2 ^ 29) &&
  src % 4 == 0 && (h.e1 == 1 || h.ss1 % 4 == 0) && (h.e2 == 1 || h.ss2 % 4 == 0) && (h.e3 == 1 || h.ss3 % 4 == 0) &&
  dst % (if h.dkind == 0 then 64 else 512) == 0 && !(h.fmt == 8 && (h.ckg || h.ckv)) &&
  (!h.ckg || h.ckout != 0) && h.ckin % 16 == 0 && h.ckout % 16 == 0 && h.badl % 16 == 0

/-- A destination of `dl` bytes keeps the limits of R223. -/
def dlOk (dkind dl : Nat) : Bool := decide (1 ≤ chunksOf dl ∧ chunksOf dl ≤ 2 ^ 20) && dl % (if dkind == 0 then 64 else 512) == 0

/-- The limits of R223 and R231 on a copy's record, with the offsets added. -/
def Shape.copyOk (bs : Bytes) (h : Shape) (doff : Nat) (soff : Int) : Bool :=
  h.common bs (h.srcAt soff) (h.dstAt doff) && dlOk h.dkind h.dl &&
  (h.xf != 1 || fmtWidth h.fmt == 8 || fmtWidth h.fmt == 16 || fmtWidth h.fmt == 32) &&
  (h.xf != 2 || ((h.fmt == 5 || h.fmt == 6) && h.e0 % 12 == 0)) &&
  (h.xf != 3 || (h.skind == 0 && h.srcAt soff % 8 == 0 && h.e0 % 8 == 0 && h.e2 == 1 && h.e3 == 1 && h.ss1 == 0 && h.ss2 == 0 && h.ss3 == 0)) &&
  (!h.ckv || h.xf == 3 || h.ckin != 0)

/-- The lowest offset of a strided dimension. -/
def lowSpan (n : Nat) (stride : Int) : Int := if stride < 0 then ((n : Int) - 1) * stride else 0
/-- The highest offset of a strided dimension. -/
def highSpan (n : Nat) (stride : Int) : Int := if stride < 0 then 0 else ((n : Int) - 1) * stride

/-- Does a scratchpad source stay inside `lim` bytes (R231, cause 0x43)? -/
def Shape.srcIn (h : Shape) (src : Int) (lim : Nat) : Bool :=
  h.skind != 1 || (decide (0 ≤ src + lowSpan h.e1 h.ss1 + lowSpan h.e2 h.ss2 + lowSpan h.e3 h.ss3) &&
    decide (src + highSpan h.e1 h.ss1 + highSpan h.e2 h.ss2 + highSpan h.e3 h.ss3 + (h.e0 : Int) ≤ (lim : Int)))

/-- Does a destination of `dl` bytes stay inside the team's allocation or its share of a weight buffer (R231, cause 0x43)? -/
def dstIn (t : Team) (dkind warr dst dl : Nat) : Bool :=
  if dkind = 1 then decide (dst + dl ≤ t.spLines * 512)
  else if dkind = 2 then (t.arrays.any fun a => a.1 == warr) && decide (dst + dl ≤ t.wbk * 1024)
  else true

/-- A copy's record as its gather opens: 0x40, 0x43 or 0 (R224, R231). -/
def copyCheck (bs : Bytes) (t : Team) (doff : Nat) (soff : Int) : Nat :=
  let h := shapeOf bs
  if !h.copyOk bs doff soff then 0x40
  else if !(h.srcIn (h.srcAt soff) (t.spLines * 512) && dstIn t h.dkind h.warr (h.dstAt doff) h.dl) then 0x43
  else 0

/-! ## Collective, multicast and dispatch records -/

/-- Are bytes of a record zero? -/
def zeroed (bs : Bytes) (off n : Nat) : Bool := (sliceBytes bs off n).all fun b => b == 0#8

/-- The grid of a `COLL` record (R314). -/
def collDims (bs : Bytes) : List Nat := [fieldLe bs 0x80 2, fieldLe bs 0x82 2, fieldLe bs 0x84 2]

/-- NRANK. -/
def collRanks (bs : Bytes) : Nat := fieldLe bs 0x80 2 * fieldLe bs 0x82 2 * fieldLe bs 0x84 2

/-- RMASK bit k. -/
def collMask (bs : Bytes) (k : Nat) : Bool := bitOf (fieldLe bs 0x86 1) k

/-- G, the ranks of one group (R315). -/
def collG (bs : Bytes) : Nat :=
  (if collMask bs 0 then fieldLe bs 0x80 2 else 1) * (if collMask bs 1 then fieldLe bs 0x82 2 else 1) * (if collMask bs 2 then fieldLe bs 0x84 2 else 1)

/-- OP: 0 none, 1 sum, 2 min, 3 max. -/
def collOp (bs : Bytes) : Nat := bitsOf (fieldLe bs 0x87 1) 0 2
/-- SCAT. -/
def collScat (bs : Bytes) : Bool := bitOf (fieldLe bs 0x87 1) 2
/-- ROOT. -/
def collRoot (bs : Bytes) : Bool := bitOf (fieldLe bs 0x87 1) 3
/-- ORD: 0 arrival, 1 record, 2 replay. -/
def collOrd (bs : Bytes) : Nat := bitsOf (fieldLe bs 0x87 1) 4 2

/-- The destination bytes of a member (R316). -/
def collDl (bs : Bytes) : Nat :=
  let l := (shapeOf bs).total
  if collOp bs = 0 then (if collScat bs || collRoot bs then l else collG bs * l)
  else if collScat bs then l / collG bs else l

/-- A `COLL` record as the command issues: 0x40, 0x43 or 0 (R314, R316, R318). -/
def collCheck (bs : Bytes) (t : Team) : Nat :=
  let h := shapeOf bs
  let ok := h.common bs (h.srcAt 0) (h.dstAt 0) && h.xf == 0 && h.slm1 == 0 && !h.pub && !h.ckv && decide (h.dkind < 2) &&
    (collOp bs == 0 || decide (h.fmt < 5)) && (collDims bs).all (fun d => decide (1 ≤ d)) && decide (collRanks bs ≤ 993) &&
    bitsOf (fieldLe bs 0x86 1) 3 5 == 0 && fieldLe bs 0x86 1 != 0 && bitsOf (fieldLe bs 0x87 1) 6 2 == 0 && collOrd bs != 3 &&
    !(collRoot bs && (collScat bs || collOp bs != 0)) && h.total % 512 == 0 && (!collScat bs || h.total % (512 * collG bs) == 0) &&
    dlOk h.dkind (collDl bs) && (collOrd bs == 0 || fieldLe bs 0x90 8 % 8 == 0) && fieldLe bs 0x98 8 % 16 == 0 && zeroed bs 0xA4 92
  if !ok then 0x40
  else if !(h.srcIn (h.srcAt 0) (t.spLines * 512) && dstIn t h.dkind 0 (h.dstAt 0) (collDl bs)) then 0x43
  else 0

/-- An `MCST` record and its group operand as the command issues: 0x40, 0x43 or 0 (R320, R321). -/
def mcstCheck (bs : Bytes) (t : Team) (sb : Nat) : Nat :=
  let h := shapeOf bs
  let ok := h.common bs (h.srcAt 0) (h.dstAt 0) && h.xf == 0 && h.slm1 == 0 && !h.pub && !h.ckv && h.dkind == 0 && dlOk 0 h.total &&
    decide (1 ≤ fieldLe bs 0x80 1 ∧ fieldLe bs 0x80 1 ≤ 64) && zeroed bs 0x81 7 && fieldLe bs 0x90 8 % 16 == 0 && zeroed bs 0x98 104 && sb / 2 ^ 16 == 0
  if !ok then 0x40 else if !h.srcIn (h.srcAt 0) (t.spLines * 512) then 0x43 else 0

/-- NDEV of a dispatch record (R323). -/
def dispNdev (bs : Bytes) : Nat := fieldLe bs 0x80 2
/-- NEXP. -/
def dispNexp (bs : Bytes) : Nat := fieldLe bs 0x82 2
/-- K, the choices of an item. -/
def dispK (bs : Bytes) : Nat := fieldLe bs 0x84 1
/-- DID. -/
def dispDid (bs : Bytes) : Nat := fieldLe bs 0xC0 4

/-- A dispatch record keeps R323. -/
def dispOk (bs : Bytes) (combine : Bool) : Bool :=
  let h := shapeOf bs
  bitsOf h.ctl 0 20 == 0 && zeroed bs 0x58 40 && zeroed bs 0x85 3 && zeroed bs 0xC4 60 && h.xf == 0 && h.slm1 == 0 && !h.pub && h.sq == 0 && !h.ckv &&
  h.warr == 0 && (!h.ckg || (combine && h.ckout != 0)) && h.ckin % 16 == 0 && h.ckout % 16 == 0 && h.scope != 7 && h.e0 % 512 == 0 && decide (512 ≤ h.e0 ∧ h.e0 ≤ 65536) &&
  h.e1 == 1 && h.e2 == 1 && h.e3 == 1 && decide (1 ≤ dispNdev bs ∧ dispNdev bs ≤ 993) &&
  decide (1 ≤ dispNexp bs ∧ dispNexp bs ≤ 4096) && decide (1 ≤ dispK bs ∧ dispK bs ≤ 8) && fieldLe bs 0x90 8 % 16 == 0 && fieldLe bs 0x98 8 % 4 == 0 &&
  fieldLe bs 0xA0 8 % 8 == 0 && h.badl % 16 == 0 && fieldLe bs 0xB8 8 % 16 == 0 &&
  (if combine then h.skind == 0 && h.src == 0 && h.ss1 == 0 && decide (h.dkind < 2) && decide (h.fmt < 3) && (h.dkind != 1 || h.dst / 2 ^ 32 == 0) &&
      h.dst % (if h.dkind == 0 then 64 else 512) == 0 && fieldLe bs 0xA8 8 == 0 && fieldLe bs 0xB0 8 == 0
   else h.dkind == 0 && h.dst == 0 && decide (h.skind < 2) && decide (h.fmt < 12) && h.ss1 % 4 == 0 && h.src % 4 == 0 &&
      (h.skind != 1 || h.src / 2 ^ 32 == 0) && fieldLe bs 0xA8 8 % 16 == 0 && fieldLe bs 0xB0 8 % 8 == 0)

/-- A dispatch record and T as the command issues: 0x40, 0x43, 0x74 or 0 (R323, R331, R338). -/
def dispCheck (bs : Bytes) (t : Team) (combine : Bool) (sb : Nat) : Nat :=
  let h := shapeOf bs
  let n := bitsOf sb 0 21
  let span : Int := ((n : Int) - 1) * h.ss1
  let out := if combine then h.dkind == 1 && decide (t.spLines * 512 < h.dst + n * h.e0)
    else h.skind == 1 && n != 0 && (decide ((h.src : Int) + min 0 span < 0) || decide (((t.spLines * 512 : Nat) : Int) < (h.src : Int) + max 0 span + h.e0))
  if !dispOk bs combine then 0x40 else if out then 0x43 else if sb / 2 ^ 21 != 0 ∨ 2 ^ 20 < n then 0x74 else 0

/-! ## What a group sees of memory as an engine command issues (R196, R224) -/

/-- Do two physical extents overlap? -/
def Phys.meets (p : Phys) (n : Nat) (q : Phys) (m : Nat) : Bool :=
  let hit := fun (a b : Nat) => decide (a < b + m ∧ b < a + n)
  match p, q with
  | .home a, .home b => hit a b
  | .window a, .window b => hit a b
  | .host a, .host b => hit a b
  | .remote d a, .remote e b => d == e && hit a b
  | .frame a, .frame b => hit a b
  | _, _ => false

/-- Does an operation write memory through its parts? -/
def OpKind.storing : OpKind → Bool
  | .store _ _ => true
  | .atom _ _ _ _ _ => true
  | .cas _ _ _ _ => true
  | .stt _ _ => true
  | .binit _ _ => true
  | .arv _ _ _ => true
  | _ => false

/-- A piece of an extent: its address and length, cut at 32 KiB, so that none crosses a page or the end of a converted page's store. -/
def pageRuns (va len : Nat) : List (Nat × Nat) :=
  (List.range ((va + len - 1) / 32768 - va / 32768 + 1)).map fun i =>
    let a := max va ((va / 32768 + i) * 32768)
    let e := min (va + len) ((va / 32768 + i + 1) * 32768)
    (a, e - a)

/-- CHUNKS of a tile word. -/
def tileChunks (w : Nat) : Nat := bitsOf w 32 8

/-- The byte that a cluster sees: its cache's, else its home's. -/
def State.clusterByte (s : State) (clu pa : Nat) : Byte := match s.ccLine? clu pa with
  | some l => l.data.getD (pa % 256) 0#8
  | none => s.localByte pa

/-- The tile word that a cluster sees here, when the header lies on this device. -/
def State.tileHere (s : State) (clu : Nat) (p : Part) : Option Nat := match p.phys with
  | .home pa => some (leNat ((List.range 8).map fun i => s.clusterByte clu (pa + i)))
  | _ => none

/-- The data of a tile operation: the pieces of as many chunks as its tile word names, or the largest tile's while that is unknown (R211). -/
def State.tileData (s : State) (clu : Nat) (o : Op) (p : Part) : List (Phys × Nat) :=
  let n := 512 * min 64 (if p.stage = 0 then ((s.tileHere clu p).map tileChunks).getD 64 else tileChunks p.tile)
  if n = 0 then [] else (pageRuns (p.va + 64) n).filterMap fun (a, k) => (s.xlate o.asid a rightsRd).map fun t => (s.target t a, k)

/-- The extents that a part of an operation reads or writes: a tile's are its header and its data (R211). -/
def State.footprint (s : State) (clu : Nat) (o : Op) (p : Part) : List (Phys × Nat) := match o.kind with
  | .stt _ _ => (p.phys, 64) :: s.tileData clu o p
  | .ldt _ _ => (p.phys, 64) :: s.tileData clu o p
  | _ => [(p.phys, p.size)]

/-- Is a part a plain store that its group may forward from its queue, or one already performed in the cluster (R196)? -/
def forwardable (o : Op) (p : Part) : Bool := match o.kind, p.phys with
  | .store _ _, .home _ => p.sent || o.ready
  | _, _ => p.performed || p.fin.isSome

/-- Is an update on its way to a barrier in an extent (R347)? -/
def State.updateMeets (s : State) (p : Phys) (n : Nat) (va : Nat) (u : BUpdate) : Bool :=
  if va = 0 then (Phys.home u.pa).meets 32 p n
  else match s.xlate u.asid va rightsRdWr with
    | some t => (s.target t va).meets 32 p n
    | none => false

/-- Is a barrier update of a group, sent from its queue or still in it before a place in its order, yet to be performed in an extent (R196, R347)? -/
def State.updateBlocked (s : State) (g : Group) (seq : Nat) (p : Phys) (n : Nat) : Bool :=
  (g.sq.any fun e => decide (e.seq < seq) && e.upds.any fun x => s.updateMeets p n x.1 x.2) ||
  (s.updates.any fun u => u.grp == g.uid && s.updateMeets p n u.va u) ||
  (s.rtx.any fun r => r.grp == g.uid && (match r.owner with
    | .update _ => true
    | _ => false) && (Phys.remote r.pkt.dst.toNat r.pkt.addr.toNat).meets 32 p n)

/-- A group's earlier write of an extent whose value cannot be seen yet: the reader waits for it (R196). `seen` says of which writes the value can be. -/
def State.writesUnseen (s : State) (g : Group) (seq : Nat) (seen : Op → Part → Bool) (p : Phys) (n : Nat) : Bool :=
  (s.ops.any fun o => o.grp == g.uid && decide (o.seq < seq) && o.kind.storing && !(o.ready && o.skipCause.isSome) &&
    o.parts.any fun q => !seen o q && (s.footprint (clusterOf g.core) o q).any fun x => x.1.meets x.2 p n) || s.updateBlocked g seq p n

/-- As a thread's load or a record's read sees its group's writes: those in the queue may be forwarded. -/
def State.ownBlocked (s : State) (g : Group) (seq : Nat) (p : Phys) (n : Nat) : Bool := s.writesUnseen g seq forwardable p n

/-- The byte that the youngest entry of the group's queue before a place in its order forwards for an address (R196). -/
def State.forwarded (s : State) (g : Group) (seq pa : Nat) : Option Byte :=
  g.sq.reverse.findSome? fun e =>
    if e.kind == .store && decide (e.seq < seq) then
      match s.op? e.op with
      | some o => if o.ready && o.skipCause.isSome then none
        else (o.parts.find? fun p => p.lane == e.lane && !p.sent && p.phys.meets p.size (.home pa) 1).bind fun p => match p.phys with
          | .home b => p.data[pa - b]?
          | _ => none
      | none => none
    else none

/-- Local bytes as a group's engine sees them at a place in its order. -/
def State.groupBytes (s : State) (g : Group) (seq pa n : Nat) : Bytes :=
  (List.range n).map fun i => (s.forwarded g seq (pa + i)).getD (s.clusterByte (clusterOf g.core) (pa + i))

/-- The key of a record's read on its way from another device or the host: apart from the keys of barriers. -/
def recordKey (dev pa : Nat) : Nat := 2 ^ 60 + remoteKey dev pa

/-- What a command finds of its record at issue. -/
inductive RecView where
  | bytes (b : Bytes)
  | failed (cause : BitVec 8)
  /-- its read is sent now, and the word does not issue -/
  | ask
  | pending
  deriving DecidableEq, Repr

/-- A record's view at the place of its command in the group's order. -/
def State.recordView (s : State) (g : Group) (p : Phys) (n : Nat) : RecView :=
  if s.ownBlocked g g.seq p n then .pending
  else
    let away := fun (key : Nat) => match s.barRead g.uid key with
      | none => RecView.ask
      | some (some bs, _) => .bytes (sliceBytes bs 0 n)
      | some (none, c) => if c == 0#8 then .pending else .failed c
    match p with
    | .remote dev pa => away (recordKey dev pa)
    | .host pa => away (recordKey s.devid pa)
    | .home pa => .bytes (s.groupBytes g g.seq pa n)
    | .window pa => .bytes (s.localBytes pa n)
    | _ => .bytes (List.replicate n 0#8)

/-- Has the device a tag free for a further read of the host: fewer than 1,024 are outstanding (R40)? -/
def State.hostRoom (s : State) : Bool := decide (s.hostReads.length < 1024)

/-- The aperture window of an address, when it is enabled: its host bus base (R42). -/
def State.apertureOf (s : State) (pa : Nat) : Option Nat := (s.aperture.find? fun a => a.1 == (pa - hostBase) / 2 ^ 32).map (·.2)

/-- A read of bytes of another device, for a group or a launch, sent to it; without a path it fails at once with 0x61 (R303). -/
def State.askAway (s : State) (u asid dev pa n : Nat) : State :=
  let key := recordKey dev pa
  if !s.rtxRoom 1 then s else
  let pkt : Packet := { ty := 1#8, src := 0#16, dst := BitVec.ofNat 16 dev, addr := BitVec.ofNat 64 pa, len := BitVec.ofNat 16 n }
  match s.request pkt (.barRead u key) asid u with
  | (s, true) => { s with barReads := (u, key, none, 0#8) :: s.barReads }
  | (s, false) => { s with barReads := (u, key, none, 0x61#8) :: s.barReads }

/-- A record's read sent to the device or the host that holds it. A disabled window reads zero and is recorded (R42). -/
def State.askRecord (s : State) (g : Group) (p : Phys) (n : Nat) : State :=
  match p with
  | .remote dev pa => s.askAway g.uid g.asid dev pa n
  | .host pa =>
    let key := recordKey s.devid pa
    match s.apertureOf pa with
    | some base =>
      let rid := s.nextId
      if !s.hostRoom then s
      else { s.bump with
        hostReads := s.hostReads ++ [{ rid := rid, op := 0, lane := g.uid, win := (pa - hostBase) / 2 ^ 32, pa := pa, len := n, at0 := s.timeNs }]
        hostOut := s.hostOut ++ [.apertureRead rid (base + (pa - hostBase) % 2 ^ 32) n]
        barReads := (g.uid, key, none, 0#8) :: s.barReads }
    | none =>
      let s := s.noteFault g.launch g { cause := Config.apertureCause, size := n % 256, addr := pa }
      { s with barReads := (g.uid, key, some (List.replicate n 0#8), 0#8) :: s.barReads }
  | _ => s

/-- The read of a record is consumed by the command that uses it. -/
def State.useRecord (s : State) (u : Nat) (p : Phys) : State := match p with
  | .remote dev pa => s.dropBarRead u (recordKey dev pa)
  | .host pa => s.dropBarRead u (recordKey s.devid pa)
  | _ => s

end Sys2Proof.Machine
end

