-- ==== Sys2Proof/Machine/EngineWords.lean ====
section
/-!
DEFINITION. The meanings of the engine words 0xB0 to 0xBF as they issue (R218, R224 to R226, R237 to R243, R269, R277, R280, R318, R321, R331, R336): the
checks of the record, the binding of the token, the gathers, the presence bits cleared, and the entry in the engine queue; and the stream-queue words.
What the engines do afterwards are the steps of CopyEvents, KvEvents, CollEvents, DispatchEvents and LaunchEvents.
-/
namespace Sys2Proof.Machine
open Sys2Proof

/-- Steps 1 to 4 of R192 for a record, as a load by every thread of the issue set (R239); the trap frames are outside every lease for an engine (R369). -/
def recordCheck (s : State) (x : Issue) (va n : Nat) : Chk :=
  let a : DWord := BitVec.ofNat 64 va
  match s.launch? x.g.launch with
  | none => .out (.stop 1 a n)
  | some l =>
    if !(s.leased l rightsRd va n) then .out (.stop 1 a n)
    else match translate s x.g.core x.g.asid va rightsRd false (x.g.thread (x.lanes.headD 0)).wake with
      | .fault => .out (.stop 2 a n)
      | .park r w => .out (.park r w)
      | .ok t => match s.target t va with
        | .home pa => if s.lostIn pa n then .out (.stop 0x31 a n) else .ok (.home pa)
        | p => .ok p

/-- The record's flags and scope with those of `HMOD` (R220); each slice of a gathered copy has those of its own word (log entry 191). -/
def engineFlags (x : Issue) (acq rel : Bool) (scope : Nat) (o : Op) : Op :=
  { o with acq := acq || semAcq x, rel := rel || semRel x, scope := if memScope x == 0#3 then BitVec.ofNat 3 scope else memScope x }

/-- Presence cleared for an operation (R200, R226): its lines are absent until it lands or ends. -/
def State.clearLines (s : State) (core id : Nat) (ls : List Nat) : State := { s with absent := s.absent ++ ls.map fun l => (core, l, id) }

/-- The physical lines of a team's scratchpad that an extent touches, cut at the end of its allocation. -/
def teamLines (t : Team) (off n : Nat) : List Nat :=
  let n := min n (t.spLines * 512 - off)
  if n = 0 then [] else linesOf t.spBase off n

/-- PROG bits that name no chunk of a copy (R230). -/
def unusedProg (n : Nat) : DWord := (List.range 64).foldl (fun m g => if n ≤ g * ((n + 63) / 64) then m ||| (1#64 <<< g) else m) 0#64

/-- A command that fails as it issues: its token is bound, and the operation ends at once (R224, R225, R239). -/
def failAtIssue (s : State) (x : Issue) (k : Nat) (kind : OpKind) (cause : BitVec 8) : State :=
  let (id, s) := s.bind x k kind
  (s.finishOp id .poison cause).commit x (allGo x)

/-- A word that reads its record at issue: a misaligned one poisons the token with 0x40 and is not read; a failed check is every thread's outcome; a record
that is still on its way holds the word, which does not issue (R112, R224, R239). -/
def recordWord (s : State) (x : Issue) (k : Nat) (kind : OpKind) (va n : Nat) (body : Bytes → State → State) : State :=
  if va % n != 0 then failAtIssue s x k kind 0x40#8
  else match recordCheck s x va n with
    | .out o => (noteParks false [(0, o)] s).commit x (eachLane x fun _ _ => o)
    | .ok p => match s.recordView x.g p n with
      | .bytes bs => body bs (s.useRecord x.g.uid p)
      | .failed c => if c == 0x60#8 then (s.useRecord x.g.uid p).commit x (eachLane x fun _ _ => .stop 4 (BitVec.ofNat 64 va) (n % 256)) else failAtIssue (s.useRecord x.g.uid p) x k kind c
      | .ask => s.askRecord x.g p n
      | .pending => s

/-- The team of a group. -/
def State.teamOf (s : State) (g : Group) : Team := (s.team? g.team).getD { uid := 0, launch := 0, asid := 0, index := 0, core := 0 }

/-- The team of an operation. -/
def State.opTeam (s : State) (o : Op) : Team := (s.team? o.team).getD { uid := 0, launch := 0, asid := 0, index := 0, core := 0 }

/-! ## CPY (R224 to R226, R239) -/

/-- The slot that a publishing copy fills (R238): queue and slot, when its target is valid. -/
def publishSlot (t : Team) (h : Shape) (doff : Nat) : Option (Nat × Nat) :=
  (t.queues.find? fun q => q.idx == h.sq).bind fun q =>
    ((List.range q.slots.length).find? fun j => (q.basel + j * q.slotl) * 512 == h.dstAt doff && (q.slots[j]?.map (·.1)) == some .acquired).bind fun j =>
      if h.dkind == 1 && decide (h.dl ≤ q.slotl * 512) then some (q.idx, j) else none

/-- A slice bound, joined to its gather, and entered in the engine queue (R216, R218, R224, R226). -/
def joinGather (s : State) (x : Issue) (k gid idx : Nat) (h : Shape) (sl : Slice) : State :=
  let t := s.teamOf x.g
  let (id, s) := s.bindWith x k (.copy gid) fun o => engineFlags x h.acq h.rel h.scope { o with nchunk := chunksOf h.dl }
  let s := s.modGather gid fun g => { g with slices := g.slices ++ [{ sl with idx := idx, op := id }] }
  let s := s.modGroup x.g.uid fun g => g.setToken k { g.token k with prog := unusedProg (chunksOf h.dl) }
  let s := if h.dkind = 1 then s.clearLines x.g.core id (teamLines t (h.dst % 2 ^ 32 + sl.doff) h.dl) else s
  (s.enqueue x.g.asid id).commit x (allGo x)

/-- A gather opened with a valid record (R224, R238). -/
def openGather (s : State) (x : Issue) (va : Nat) (bs : Bytes) (doff : Nat) : Nat × State :=
  let h := shapeOf bs
  let gid := s.nextId
  let slot := if h.pub then publishSlot (s.teamOf x.g) h doff else none
  let g : Gather := { id := gid, team := x.g.team, va := va, recd := bs, slot := slot, fail := if h.pub && slot.isNone then some 0x44#8 else none }
  let s := { s.bump with gathers := s.gathers ++ [g] }
  (gid, match slot with
    | some (q, j) => s.setSlot x.g.team q j .filling 0#32
    | none => s)

/-- The oldest open gather of a key that does not hold a slice index (R224). -/
def State.gatherFor (s : State) (team va idx : Nat) : Option Gather :=
  s.gathers.find? fun g => g.team == team && g.va == va && decide (g.slices.length ≤ (shapeOf g.recd).slm1) && !(g.slices.any fun sl => sl.idx == idx)

/-- A slice whose descriptor has no reserved bit set finds or opens its gather. -/
def cpySlice (s : State) (x : Issue) (k va idx : Nat) (sl : Slice) : State :=
  match s.gatherFor x.g.team va idx with
  | some g => if (shapeOf g.recd).slm1 < idx then failAtIssue s x k (.copy 0) 0x41#8 else joinGather s x k g.id idx (shapeOf g.recd) sl
  | none =>
    recordWord s x k (.copy 0) va 128 fun bs s =>
      let c := copyCheck bs (s.teamOf x.g) sl.doff (sextNat sl.soff 64)
      if c ≠ 0 then failAtIssue s x k (.copy 0) (BitVec.ofNat 8 c)
      else if (shapeOf bs).slm1 < idx then failAtIssue s x k (.copy 0) 0x41#8
      else
        let (gid, s) := openGather s x va bs sl.doff
        joinGather s x k gid idx (shapeOf bs) sl

/-- What `CPY` needs of its fields: its record's pair, and its slice's word or four words (R239). -/
def cpyNeed (a b : BitVec 8) (o d : BitVec 1) : Need := { sregs := [(a.toNat, 2), (b.toNat, if o == 0#1 && d == 0#1 then 1 else 4)] }

/-- What a command with a 256-byte record needs of its fields: its record's pair, and its word (R318, R321, R331, R336). -/
def podNeed (a b : BitVec 8) : Need := { sregs := [(a.toNat, 2), (b.toNat, 1)] }

/-- `CPY` (R239). -/
def execCpy (st : Bool) (k : BitVec 4) (a b : BitVec 8) (o d : BitVec 1) (s : State) : Host.Outcome State Fault Refusal :=
  runWord s 0xB0 st (fun _ => cpyNeed a b o d) fun x s =>
    let va := x.g.spair a.toNat
    let w := (x.g.sget b.toNat).toNat
    let doff := if d == 1#1 then (x.g.sget (b.toNat + 1)).toNat else 0
    let soff := if o == 1#1 then x.g.spair (b.toNat + 2) else 0
    let sl : Slice := { idx := 0, op := 0, dov := d == 1#1, sov := o == 1#1, doff := doff, soff := soff }
    if va % 128 != 0 then failAtIssue s x k.toNat (.copy 0) 0x40#8
    else match recordCheck s x va 128 with
      | .out out => (noteParks false [(0, out)] s).commit x (eachLane x fun _ _ => out)
      | .ok _ => if w / 32 != 0 then failAtIssue s x k.toNat (.copy 0) 0x41#8 else cpySlice s x k.toNat va (w % 32) sl

/-! ## LAUNCH (R240) -/

/-- `LAUNCH` (R240): the command enters the engine queue with a launch that is yet to be read. -/
def execLaunch (st : Bool) (k : BitVec 4) (a : BitVec 8) (s : State) : Host.Outcome State Fault Refusal :=
  runWord s 0xB1 st (fun _ => { sregs := [(a.toNat, 2)] }) fun x s =>
    let l := s.nextId
    let (id, s) := s.bump.bindWith x k.toNat (.launch l) fun o => engineFlags x false false 0 { o with va := x.g.spair a.toNat }
    let y : Launch := { uid := l, asid := x.g.asid, va := x.g.spair a.toNat, op := id, die := dieOf x.g.core, entered := s.timeNs }
    let s : State := { s with launches := s.launches ++ [y] }
    (s.enqueue x.g.asid id).commit x (allGo x)

/-! ## Stream queues (R237, R241 to R243) -/

/-- The queue of the group's team. -/
def State.queue? (s : State) (g : Group) (n : Nat) : Option StreamQ := (s.teamOf g).queues.find? fun q => q.idx == n

/-- The byte offset of a slot (R237). -/
def StreamQ.offset (q : StreamQ) (j : Nat) : Nat := (q.basel + j * q.slotl) * 512

/-- The state of a slot. -/
def StreamQ.stateAt (q : StreamQ) (j : Nat) : SlotState := (q.slots.getD j (.empty, 0#32)).1

/-- Does the team's image declare the queue (R19, R243)? -/
def queueDeclared (s : State) (x : Issue) (n : Nat) : Bool := (s.queue? x.g n).isSome

/-- `SACQ` takes the slot at APTR (R241). -/
def sacqBody (s : State) (x : Issue) (d n : Nat) : State :=
  match s.queue? x.g n with
  | none => s
  | some q =>
    if q.stateAt q.aptr == .empty then
      let s := (s.setSlot x.g.team n q.aptr .acquired 0#32).modTeam x.g.team fun t =>
        { t with queues := mapIf (fun y => y.idx == n) (fun y => { y with aptr := (q.aptr + 1) % q.slots.length }) t.queues }
      scalarWord s x fun g => g.sset d (BitVec.ofNat 32 (q.offset q.aptr))
    else s.commit x (allPark x .wait (.slotEmpty n))

/-- `SACQ` (R241). -/
def execSacq (st : Bool) (d : BitVec 8) (n : BitVec 3) (s : State) : Host.Outcome State Fault Refusal :=
  runWord s 0xB2 st (fun x => { codeOk := queueDeclared s x n.toNat, sregs := [(d.toNat, 1)] }) fun x s =>
    gated x s fun s => sacqBody s x d.toNat n.toNat

/-- `SPOP` takes the slot at PPTR (R242). -/
def spopBody (s : State) (x : Issue) (d c n : Nat) : State :=
  match s.queue? x.g n with
  | none => s
  | some q =>
    if q.stateAt q.pptr == .filled then
      let status := (q.slots.getD q.pptr (.empty, 0#32)).2
      let s := (s.setSlot x.g.team n q.pptr .popped 0#32).modTeam x.g.team fun t =>
        { t with queues := mapIf (fun y => y.idx == n) (fun y => { y with pptr := (q.pptr + 1) % q.slots.length }) t.queues }
      scalarWord s x fun g => (g.sset d (BitVec.ofNat 32 (q.offset q.pptr))).sset c status
    else s.commit x (allPark x .wait (.slotFilled n))

/-- `SPOP` (R242). -/
def execSpop (st : Bool) (d c : BitVec 8) (n : BitVec 3) (s : State) : Host.Outcome State Fault Refusal :=
  runWord s 0xB3 st (fun x => { codeOk := queueDeclared s x n.toNat, sregs := [(d.toNat, 1), (c.toNat, 1)] }) fun x s =>
    gated x s fun s => spopBody s x d.toNat c.toNat n.toNat

/-- `SREL` gives a slot back, or fills it (R243). -/
def srelBody (s : State) (x : Issue) (o n : Nat) (fill : Bool) : State :=
  match s.queue? x.g n with
  | none => s
  | some q =>
    match (List.range q.slots.length).find? fun j => q.offset j == o && q.stateAt j == (if fill then .acquired else .popped) with
    | some j => (s.setSlot x.g.team n j (if fill then .filled else .empty) (if fill then statusWord .done 0#8 else 0#32)).commit x (allGo x)
    | none => s.commit x (allTrap x 0x40030001#32)

/-- `SREL` (R243). -/
def execSrel (st : Bool) (a : BitVec 8) (f : BitVec 1) (n : BitVec 3) (s : State) : Host.Outcome State Fault Refusal :=
  runWord s 0xB4 st (fun x => { codeOk := queueDeclared s x n.toNat, sregs := [(a.toNat, 1)] }) fun x s =>
    gated x s fun s => srelBody s x (x.g.sget a.toNat).toNat n.toNat (f == 1#1)

/-! ## Key-value words (R269, R277, R280) -/

/-- A key-value command bound and queued with its operands. -/
def kvWord (s : State) (x : Issue) (k : Nat) (kind : OpKind) (va : Nat) (args : List Word) (lines : List Nat) : State :=
  let (id, s) := s.bindWith x k kind fun o => engineFlags x false false 0 { o with va := va, args := args }
  ((s.clearLines x.g.core id lines).enqueue x.g.asid id).commit x (allGo x)

/-- Does a `KVLD` name the trap frames, a HOST page or a window, which is a memory-type fault (R42, R74, R369)? -/
def kvldMemType (s : State) (x : Issue) (va : Nat) : Bool :=
  inFrames va || (match s.launch? x.g.launch, s.walk x.g.asid va with
    | some l, .leaf t _ => s.leased l rightsRd va 1 && (t.mt != 0 || decide (winBase ≤ t.addr va ∧ t.dev = s.devid))
    | _, _ => false)

/-- `KVLD` (R277, R278): the lines that its operands bound are cleared as it issues. -/
def execKvld (st : Bool) (k : BitVec 4) (a b : BitVec 8) (o w : BitVec 1) (s : State) : Host.Outcome State Fault Refusal :=
  runWord s 0xB8 st (fun _ => { sregs := [(a.toNat, 2), (b.toNat, if w == 1#1 then 4 else 2)] }) fun x s =>
    let va := x.g.spair a.toNat
    let off := (x.g.sget (b.toNat + 1)).toNat
    let rows := bitsOf (x.g.sget b.toNat).toNat 16 16
    let lines := if w == 1#1 || off % 512 != 0 then [] else teamLines (s.teamOf x.g) off (min (rows * 4096) 122880)
    if kvldMemType s x va then s.commit x (eachLane x fun _ _ => .trap trapMemType (BitVec.ofNat 64 va) 0)
    else kvWord s x k.toNat .kvld va (sargs x.g b.toNat (if w == 1#1 then 4 else 2) ++ (if w == 1#1 then [] else [0#32, 0#32]) ++
      [o.setWidth 32, w.setWidth 32]) lines

/-- `KVSEAL` (R269). -/
def execKvseal (st : Bool) (k : BitVec 4) (a b : BitVec 8) (s : State) : Host.Outcome State Fault Refusal :=
  runWord s 0xB9 st (fun _ => { sregs := [(a.toNat, 2), (b.toNat, 1)] }) fun x s =>
    kvWord s x k.toNat .kvseal (x.g.spair a.toNat) (sargs x.g b.toNat 1) []

/-- `KVHDR` (R280). -/
def execKvhdr (st : Bool) (k : BitVec 4) (a b : BitVec 8) (s : State) : Host.Outcome State Fault Refusal :=
  runWord s 0xBA st (fun _ => { sregs := [(a.toNat, 2), (b.toNat, 1)] }) fun x s =>
    kvWord s x k.toNat .kvhdr (x.g.spair a.toNat) (sargs x.g b.toNat 1) []

/-! ## Collectives, multicast and dispatch (R318, R321, R331, R336) -/

/-- The ordinal of a command among those of its context with one identifier (R318, R322); each issue counts. -/
def State.nextOrdinal (s : State) (asid kind cid : Nat) : Nat × State :=
  let n := match s.ordinals.find? fun o => o.1 == asid && o.2.1 == kind && o.2.2.1 == cid with
    | some o => o.2.2.2 + 1
    | none => 1
  (n, { s with ordinals := (asid, kind, cid, n) :: s.ordinals.filter fun o => !(o.1 == asid && o.2.1 == kind && o.2.2.1 == cid) })

/-- Those of some packets that come from a context with an ASID, when there are any: each device gives its own ASIDs, so that another member's need not be
the same (R32, R322; log entry 160). -/
def preferFrom (asid : Nat) (ps : List Packet) : List Packet :=
  let same := ps.filter fun p => p.sasid.toNat == asid
  if same.isEmpty then ps else same

/-- Those of some operations that are of a context with an ASID, when there are any (log entry 160). -/
def preferOf (asid : Nat) (os : List Op) : List Op :=
  let same := os.filter fun o => o.asid == asid
  if same.isEmpty then os else same

/-- The cancel that came before this member issued its command (R332). -/
def State.cancelled (s : State) (asid kind cid n : Nat) : Option Packet :=
  (preferFrom asid (s.descs.filter fun p => p.aux == 7#16 && fieldLe p.data 0 4 == cid && fieldLe p.data 4 4 == n && fieldLe p.data 8 1 == kind)).head?

/-- A command that a cancel had come for: its token is poisoned with the cancel's cause as it is bound, and the cancel is used up (R332). -/
def cancelAtIssue (s : State) (x : Issue) (k : Nat) (kind : OpKind) (p : Packet) : State :=
  failAtIssue { s with descs := s.descs.filter fun q => q != p } x k kind (BitVec.ofNat 8 (fieldLe p.data 9 1))

/-- A command with a 256-byte record bound and queued. -/
def podWord (s : State) (x : Issue) (k : Nat) (kind : OpKind) (va : Nat) (bs : Bytes) (args : List Word) (cid n nchunk : Nat) (lines : List Nat) : State :=
  let h := shapeOf bs
  let (id, s) := s.bindWith x k kind fun o => engineFlags x h.acq h.rel h.scope { o with va := va, recd := bs, args := args, cid := cid, ordn := n, nchunk := nchunk }
  let s := if nchunk = 0 then s else s.modGroup x.g.uid fun g => g.setToken k { g.token k with prog := unusedProg nchunk }
  ((s.clearLines x.g.core id lines).enqueue x.g.asid id).commit x (allGo x)

/-- `COLL` (R318). -/
def execColl (st : Bool) (k : BitVec 4) (a b : BitVec 8) (s : State) : Host.Outcome State Fault Refusal :=
  runWord s 0xBC st (fun _ => podNeed a b) fun x s =>
    recordWord s x k.toNat .coll (x.g.spair a.toNat) 256 fun bs s =>
      let cid := fieldLe bs 0xA0 4
      let (n, s) := s.nextOrdinal x.g.asid 0 cid
      let h := shapeOf bs
      let c := collCheck bs (s.teamOf x.g)
      if c ≠ 0 then failAtIssue s x k.toNat .coll (BitVec.ofNat 8 c)
      else match s.cancelled x.g.asid 0 cid n with
        | some p => cancelAtIssue s x k.toNat .coll p
        | none => podWord s x k.toNat .coll (x.g.spair a.toNat) bs (sargs x.g b.toNat 1) cid n (chunksOf (collDl bs))
            (if h.dkind = 1 then teamLines (s.teamOf x.g) (h.dst % 2 ^ 32) (collDl bs) else [])

/-- `MCST` (R321). -/
def execMcst (st : Bool) (k : BitVec 4) (a b : BitVec 8) (s : State) : Host.Outcome State Fault Refusal :=
  runWord s 0xBD st (fun _ => podNeed a b) fun x s =>
    recordWord s x k.toNat .mcst (x.g.spair a.toNat) 256 fun bs s =>
      let c := mcstCheck bs (s.teamOf x.g) (x.g.sget b.toNat).toNat
      if c ≠ 0 then failAtIssue s x k.toNat .mcst (BitVec.ofNat 8 c)
      else podWord s x k.toNat .mcst (x.g.spair a.toNat) bs (sargs x.g b.toNat 1) 0 0 0 []

/-- `RTE` or `RTC` with its record read (R331, R336). -/
def dispatchBody (s : State) (x : Issue) (k a b : Nat) (combine : Bool) (bs : Bytes) : State :=
  let kind : OpKind := if combine then .rtc else .rte
  let code := if combine then 2 else 1
  let h := shapeOf bs
  let w := (x.g.sget b).toNat
  let (n, s) := s.nextOrdinal x.g.asid code (dispDid bs)
  let c := dispCheck bs (s.teamOf x.g) combine w
  if c ≠ 0 then failAtIssue s x k kind (BitVec.ofNat 8 c)
  else match s.cancelled x.g.asid code (dispDid bs) n with
    | some p => cancelAtIssue s x k kind p
    | none => podWord s x k kind (x.g.spair a) bs (sargs x.g b 1) (dispDid bs) n 0
        (if combine && h.dkind == 1 then teamLines (s.teamOf x.g) (h.dst % 2 ^ 32) (w * h.e0) else [])

/-- `RTE` (R331). -/
def execRte (st : Bool) (k : BitVec 4) (a b : BitVec 8) (s : State) : Host.Outcome State Fault Refusal :=
  runWord s 0xBE st (fun _ => podNeed a b) fun x s =>
    recordWord s x k.toNat .rte (x.g.spair a.toNat) 256 fun bs s => dispatchBody s x k.toNat a.toNat b.toNat false bs

/-- `RTC` (R336). -/
def execRtc (st : Bool) (k : BitVec 4) (a b : BitVec 8) (s : State) : Host.Outcome State Fault Refusal :=
  runWord s 0xBF st (fun _ => podNeed a b) fun x s =>
    recordWord s x k.toNat .rtc (x.g.spair a.toNat) 256 fun bs s => dispatchBody s x k.toNat a.toNat b.toNat true bs

end Sys2Proof.Machine
end

