-- ==== Sys2Proof/Machine/MatrixWords.lean ====
section
/-!
DEFINITION. The meanings of the matrix words 0xC0 to 0xCF as they issue (R244 to R259): tiles and their ownership, the descriptor and register checks of
R249, the capture of A, and the tile access words. The arrays' own steps are those of MatrixEvents.
-/
namespace Sys2Proof.Machine
open Sys2Proof

/-! ## Tiles -/

/-- The array that serves a group (R245). -/
def arrayOf (g : Group) : Nat := g.part / 4

/-- A tile of a team's run in an array. -/
def Team.tile? (t : Team) (arr i : Nat) : Option Tile := t.tiles.find? fun x => x.arr == arr && x.idx == i

/-- The tile that `acc`i names for a group (R245). -/
def State.tile? (s : State) (g : Group) (i : Nat) : Option Tile := (s.team? g.team).bind fun t => t.tile? (arrayOf g) i

/-- The state with a tile of a team changed. -/
def State.modTile (s : State) (team arr i : Nat) (f : Tile → Tile) : State :=
  s.modTeam team fun t => { t with tiles := mapIf (fun x => x.arr == arr && x.idx == i) f t.tiles }

/-- The window address of an element of a team's tile (R74, R245). -/
def tileElem (t : Team) (arr i row col : Nat) : Nat :=
  tileAddr t.core arr (((t.arrays.find? fun a => a.1 == arr).map (·.2.1)).getD 0 + i) (row * 0x80 + col * 4)

/-- The window address of a byte of a team's share of a weight buffer. -/
def shareAddr (t : Team) (arr off : Nat) : Nat :=
  wbufAddr t.core arr (((t.arrays.find? fun a => a.1 == arr).map (·.2.2)).getD 0 * 1024 + off)

/-- What a tile's state says of a word that names it (R247): accepted, parked on an `ACACQ`, or a trap code. -/
inductive Turn where
  | ok
  | park (op : Nat)
  | trap (code : Nat)
  deriving DecidableEq, Repr

/-- The turn of an `MMA` or `ACACQ`, accepted on an array-owned tile (R247, R256). -/
def arrayTurn (g : Group) (code : Nat) (t : Tile) : Turn :=
  match t.st with
  | .array => .ok
  | .acquiring h op => if h == g.idx then .park op else .trap code
  | .group _ => .trap code

/-- The turn of `ACREL`, `ACZ`, `ACRD` or `ACWR`, accepted on the group's own tile (R247). -/
def ownTurn (g : Group) (code : Nat) (t : Tile) : Turn :=
  match t.st with
  | .array => .trap code
  | .acquiring h op => if h == g.idx then .park op else .trap code
  | .group h => if h == g.idx then .ok else .trap code

/-- The lowest code that applies to an X word (R249): `acc` beyond ACCT, the tile's state, and the word's own checks. -/
def xCode (turn : Option Turn) (own : Option Nat) : Option Nat :=
  match turn with
  | none => some 1
  | some (.trap c) => some c
  | _ => own

/-- An X word behind its checks: it parks on the group's own `ACACQ`, traps with the lowest code, or goes on. -/
def xWord (s : State) (x : Issue) (turn : Option Turn) (own : Option Nat) (body : State) : State :=
  match turn with
  | some (.park op) => s.commit x (allPark x .tokenTarget (.ops [op]))
  | _ => match xCode turn own with
    | some c => s.commit x (allTrap x (0x40040000#32 + BitVec.ofNat 32 c))
    | none => body

/-! ## MMA (R250 to R252) -/

/-- The fields of an MMA descriptor (R250). -/
structure MmaDesc where
  as   : Bool
  nk   : Nat
  b0   : Nat
  asr  : Nat
  woff : Nat
  deriving DecidableEq, Repr

/-- The descriptor that a word holds. -/
def mmaDesc (d : Nat) : MmaDesc :=
  { as := bitOf d 31, nk := bitsOf d 29 2 + 1, b0 := bitsOf d 27 2, asr := bitsOf d 20 7, woff := bitsOf d 12 8 * 512 }

/-- Is the format 16 bits wide, and so without block scales? -/
def mmaHalf (fmt : Nat) : Bool := fmt == 1 || fmt == 2

/-- The registers of one K-block of A (R251). -/
def mmaRegs (fmt : Nat) : Nat := if mmaHalf fmt then 16 else if fmt == 7 || fmt == 8 then 4 else 8

/-- The bytes of a column of one K-block, in the scratchpad as in the weight buffer (R246, R251). -/
def mmaBytes (fmt : Nat) : Nat :=
  if mmaHalf fmt then 64 else if fmt == 7 || fmt == 8 then 16 else if fmt == 5 || fmt == 6 then 24 else 32

/-- The bytes of a weight operand (R246). -/
def operandSize (fmt nk : Nat) : Nat := (if mmaHalf fmt then 0 else 512) + 32 * mmaBytes fmt * nk

/-- The descriptor's, register and extent checks of an `MMA` (R249): codes 0x10 to 0x12. -/
def mmaCode (x : Issue) (wbk fmt va d : Nat) : Option Nat :=
  let m := mmaDesc d
  let half := mmaHalf fmt
  let top := max (if m.as then 0 else va + m.nk * mmaRegs fmt) (if half then 0 else m.asr + (if fmt == 8 then 2 else 1))
  if bitsOf d 0 12 != 0 || (!half && (decide (3 < m.b0 + m.nk - 1) || (fmt == 8 && m.asr % 2 == 1))) then some 0x10
  else if x.vbud < top then some 0x11
  else if wbk * 1024 < m.woff + operandSize fmt m.nk then some 0x12
  else none

/-- The registers that an `MMA` reads of a lane. -/
def mmaReads (fmt va : Nat) (m : MmaDesc) : List Nat :=
  (if m.as then [va] else regRun va (m.nk * mmaRegs fmt)) ++ (if mmaHalf fmt then [] else if fmt == 8 then [m.asr, m.asr + 1] else [m.asr])

/-- A lane's scale bytes of a register, K-block by K-block. -/
def scaleBytes (t : Thread) (reg b0 nk : Nat) : List Word := (List.range nk).map fun kb => BitVec.ofNat 32 (bitsOf (t.vget reg).toNat (8 * (b0 + kb)) 8)

/-- What an `MMA` captures of a lane at issue (R252): its A row or its scratchpad offset, its scales and its extra bytes. -/
def mmaRow (fmt va : Nat) (m : MmaDesc) (lane : Nat) (t : Thread) : Nat × List Word × List Word × List Word :=
  (lane, if m.as then [t.vget va] else (regRun va (m.nk * mmaRegs fmt)).map t.vget,
    if mmaHalf fmt then [] else scaleBytes t m.asr m.b0 m.nk, if fmt == 8 then scaleBytes t (m.asr + 1) m.b0 m.nk else [])

/-- The outcome of a lane whose scratchpad row is misaligned or out of range, when there is one (R252), reported with size 0 (log entry 42). -/
def mmaLaneBad (lim va nb : Nat) (t : Thread) : Option Out :=
  let o := (t.vget va).toNat
  if o % 8 != 0 then some (.trap trapMisaligned (BitVec.ofNat 64 o) 0)
  else if lim < o + nb then some (.stop 3 (BitVec.ofNat 64 o) 0)
  else none

/-- An `MMA` that is accepted: bound, and in its tile's order (R248, R252). -/
def mmaBind (s : State) (x : Issue) (k fmt c va : Nat) (d : Word) (takers : List Nat) : State :=
  let m := mmaDesc d.toNat
  let (id, s) := s.bind x k (.mma fmt c d (takers.map fun l => mmaRow fmt va m l (x.g.thread l)))
  (s.modTile x.g.team (arrayOf x.g) c fun t => { t with ord := t.ord ++ [id] }).commit x (allGo x)

/-- The checks of an `MMA`'s scratchpad rows and token targets, and its binding (R252). -/
def mmaBody (s : State) (x : Issue) (k fmt c va : Nat) (d : Word) : State :=
  let m := mmaDesc d.toNat
  let takers := x.lanes.filter fun l => takesPart x.hints 0 (x.g.thread l)
  let bad := fun l => if m.as then mmaLaneBad ((spadRun s x.g).2 * 512) va (m.nk * mmaBytes fmt) (x.g.thread l) else none
  if takers.any fun l => (bad l).isSome then
    s.commit x (eachLane x fun l t => if takers.contains l then (bad l).getD (skipLane x t) else skipLane x t)
  else match takers.flatMap fun l => (mmaReads fmt va m).flatMap fun r => trackers s x.g.uid l r with
    | [] => mmaBind s x k fmt c va d takers
    | ids => s.commit x (allPark x .tokenTarget (.ops ids))

/-- `MMA` of a format (R250 to R252). -/
def mmaWord (s : State) (op fmt : Nat) (st : Bool) (k : BitVec 4) (c : BitVec 5) (a b : BitVec 7) : Host.Outcome State Fault Refusal :=
  runWord s op st (fun _ => { vregs := [(a.toNat, 1)] }) fun x s =>
    let d := x.g.sget b.toNat
    xWord s x ((s.tile? x.g c.toNat).map (arrayTurn x.g 2)) (mmaCode x (s.groupCode x.g).wbk fmt a.toNat d.toNat)
      (mmaBody s x k.toNat fmt c.toNat a.toNat d)

/-- `MMA.bf16` (R250). -/
def execMmaBf16 (st : Bool) (k : BitVec 4) (c : BitVec 5) (a b : BitVec 7) (s : State) : Host.Outcome State Fault Refusal := mmaWord s 0xC0 1 st k c a b
/-- `MMA.f16` (R250). -/
def execMmaF16 (st : Bool) (k : BitVec 4) (c : BitVec 5) (a b : BitVec 7) (s : State) : Host.Outcome State Fault Refusal := mmaWord s 0xC1 2 st k c a b
/-- `MMA.e4m3` (R250). -/
def execMmaE4m3 (st : Bool) (k : BitVec 4) (c : BitVec 5) (a b : BitVec 7) (s : State) : Host.Outcome State Fault Refusal := mmaWord s 0xC2 3 st k c a b
/-- `MMA.e5m2` (R250). -/
def execMmaE5m2 (st : Bool) (k : BitVec 4) (c : BitVec 5) (a b : BitVec 7) (s : State) : Host.Outcome State Fault Refusal := mmaWord s 0xC3 4 st k c a b
/-- `MMA.e2m3` (R250). -/
def execMmaE2m3 (st : Bool) (k : BitVec 4) (c : BitVec 5) (a b : BitVec 7) (s : State) : Host.Outcome State Fault Refusal := mmaWord s 0xC4 5 st k c a b
/-- `MMA.e3m2` (R250). -/
def execMmaE3m2 (st : Bool) (k : BitVec 4) (c : BitVec 5) (a b : BitVec 7) (s : State) : Host.Outcome State Fault Refusal := mmaWord s 0xC5 6 st k c a b
/-- `MMA.i8` (R250). -/
def execMmaI8 (st : Bool) (k : BitVec 4) (c : BitVec 5) (a b : BitVec 7) (s : State) : Host.Outcome State Fault Refusal := mmaWord s 0xC6 10 st k c a b
/-- `MMA.e2m1` (R250). -/
def execMmaE2m1 (st : Bool) (k : BitVec 4) (c : BitVec 5) (a b : BitVec 7) (s : State) : Host.Outcome State Fault Refusal := mmaWord s 0xC7 7 st k c a b
/-- `MMA.sx4` (R250). -/
def execMmaSx4 (st : Bool) (k : BitVec 4) (c : BitVec 5) (a b : BitVec 7) (s : State) : Host.Outcome State Fault Refusal := mmaWord s 0xC8 8 st k c a b

/-! ## ACACQ, ACREL, ACZ (R256 to R258) -/

/-- `ACREL` (R257): the tile is the array's from its issue. -/
def execAcrel (st : Bool) (c : BitVec 5) (s : State) : Host.Outcome State Fault Refusal :=
  runWord s 0xCB st (fun _ => {}) fun x s =>
    gated x s fun s =>
      xWord s x ((s.tile? x.g c.toNat).map (ownTurn x.g 4)) none
        ((s.modTile x.g.team (arrayOf x.g) c.toNat fun t => { t with st := .array }).commit x (allGo x))

/-- `ACACQ` that is accepted: bound, acquiring, and in tile order (R256). -/
def acacqBody (s : State) (x : Issue) (k c : Nat) : State :=
  let (id, s) := s.bind x k (.acacq c)
  (s.modTile x.g.team (arrayOf x.g) c fun t => { t with st := .acquiring x.g.idx id, ord := t.ord ++ [id] }).commit x (allGo x)

/-- `ACACQ` (R256). -/
def execAcacq (st : Bool) (k : BitVec 4) (c : BitVec 5) (s : State) : Host.Outcome State Fault Refusal :=
  runWord s 0xCC st (fun _ => {}) fun x s =>
    xWord s x ((s.tile? x.g c.toNat).map (arrayTurn x.g 5)) none (acacqBody s x k.toNat c.toNat)

/-- Zeros written to the rows of lanes of a tile (R258). -/
def zeroRows (t : Team) (arr i : Nat) (m : Memory) : List Nat → Memory
  | [] => m
  | l :: ls => zeroRows t arr i (putBytes m (tileElem t arr i l 0) (List.replicate 128 0#8)) ls

/-- `ACZ` (R258). -/
def execAcz (st : Bool) (c : BitVec 5) (s : State) : Host.Outcome State Fault Refusal :=
  runWord s 0xCD st (fun _ => {}) fun x s =>
    gated x s fun s =>
      xWord s x ((s.tile? x.g c.toNat).map (ownTurn x.g 3)) none
        (match s.team? x.g.team with
          | some t => ({ s with mem := zeroRows t (arrayOf x.g) c.toNat s.mem x.lanes } : State).commit x (allGo x)
          | none => s.commit x (allGo x))

/-! ## ACRD and ACWR (R259) -/

/-- The fields of an access descriptor: CFMT, NC and C0. -/
structure AccDesc where
  cfmt : Nat
  nc   : Nat
  c0   : Nat
  deriving DecidableEq, Repr

/-- The descriptor that a word holds. -/
def accDesc (d : Nat) : AccDesc := { cfmt := bitsOf d 10 2, nc := bitsOf d 5 5 + 1, c0 := bitsOf d 0 5 }

/-- The registers of its run. -/
def AccDesc.regs (m : AccDesc) : Nat := if m.cfmt = 0 then m.nc else (m.nc + 1) / 2

/-- The descriptor and budget checks of `ACRD` and `ACWR` (R249). -/
def accCode (x : Issue) (v d : Nat) : Option Nat :=
  let m := accDesc d
  if d / 2 ^ 12 != 0 || m.cfmt == 3 || decide (31 < m.c0 + m.nc - 1) then some 0x10
  else if x.vbud < v + m.regs then some 0x11
  else none

/-- The half format of a CFMT. -/
def accHalf (cfmt : Nat) : Fmt := if cfmt = 1 then fmtBf16 else fmtF16

/-- An element of a tile. -/
def tileGet (s : State) (t : Team) (arr i row col : Nat) : Nat := getLe s.mem (tileElem t arr i row col) 4

/-- A half of an element as `CVT` under the default mode gives it (R177, R259). -/
def toHalf (f : Fmt) (e : Nat) : Nat := (f.narrow .rne false (fmtF32.decode e)).1

/-- The exact FP32 code of a half; a NaN is canonical (R259). -/
def fromHalf (f : Fmt) (h : Nat) : Nat := (fmtF32.arith .rne (f.decode h)).1

/-- The registers that `ACRD` writes for a lane. -/
def acrdWords (s : State) (t : Team) (arr i lane : Nat) (m : AccDesc) : List Word :=
  let e := fun c => if c < m.nc then tileGet s t arr i lane (m.c0 + c) else 0
  (List.range m.regs).map fun r =>
    if m.cfmt = 0 then BitVec.ofNat 32 (e r)
    else BitVec.ofNat 32 (toHalf (accHalf m.cfmt) (e (2 * r)) + (if 2 * r + 1 < m.nc then toHalf (accHalf m.cfmt) (e (2 * r + 1)) else 0) * 2 ^ 16)

/-- `ACRD` (R259): long-class results. -/
def execAcrd (st : Bool) (c : BitVec 5) (d b : BitVec 7) (s : State) : Host.Outcome State Fault Refusal :=
  runWord s 0xCE st (fun _ => { vregs := [(d.toNat, 1)] }) fun x s =>
    gated x s fun s =>
      let m := accDesc (x.g.sget b.toNat).toNat
      xWord s x ((s.tile? x.g c.toNat).map (ownTurn x.g 3)) (accCode x d.toNat (x.g.sget b.toNat).toNat)
        (match s.team? x.g.team with
          | some t => s.bump.commit x (eachLane x fun l th =>
              whenFree s x l (regRun d.toNat m.regs) (.go (longRun th x s.nextId d.toNat (acrdWords s t (arrayOf x.g) c.toNat l m)) (.fall x.pc)))
          | none => s.commit x (allGo x))

/-- The column that `ACWR` writes from a lane's registers. -/
def acwrElem (th : Thread) (v : Nat) (m : AccDesc) (c : Nat) : Nat :=
  if m.cfmt = 0 then (th.vget (v + c)).toNat
  else fromHalf (accHalf m.cfmt) (bitsOf (th.vget (v + c / 2)).toNat (16 * (c % 2)) 16)

/-- The columns that `ACWR` writes for its lanes. -/
def acwrRows (x : Issue) (t : Team) (arr i v : Nat) (m : AccDesc) (mem : Memory) : List Nat → Memory
  | [] => mem
  | l :: ls =>
    acwrRows x t arr i v m ((List.range m.nc).foldl (fun mem c => putBytes mem (tileElem t arr i l (m.c0 + c)) (natLe 4 (acwrElem (x.g.thread l) v m c))) mem) ls

/-- `ACWR` (R259): every thread parks while a register of any of them is a token target. -/
def execAcwr (st : Bool) (c : BitVec 5) (a b : BitVec 7) (s : State) : Host.Outcome State Fault Refusal :=
  runWord s 0xCF st (fun _ => { vregs := [(a.toNat, 1)] }) fun x s =>
    gated x s fun s =>
      let m := accDesc (x.g.sget b.toNat).toNat
      xWord s x ((s.tile? x.g c.toNat).map (ownTurn x.g 3)) (accCode x a.toNat (x.g.sget b.toNat).toNat)
        (match x.lanes.flatMap fun l => (regRun a.toNat m.regs).flatMap fun r => trackers s x.g.uid l r with
          | [] => match s.team? x.g.team with
            | some t => ({ s with mem := acwrRows x t (arrayOf x.g) c.toNat a.toNat m s.mem x.lanes } : State).commit x (allGo x)
            | none => s.commit x (allGo x)
          | ids => s.commit x (allPark x .tokenTarget (.ops ids)))

end Sys2Proof.Machine
end

