-- ==== Sys2Proof/Machine/Arbiter.lean ====
section
/-!
DEFINITION. How a partition chooses what to issue: the wake conditions of parked threads (R118), the issue set (R114, R115), the fetch of its word (R78),
what must be free for it to issue (R112), and the ranking of candidates (R12, R112, R113, R94, R148). `step` calls these.
-/
namespace Sys2Proof.Machine
open Sys2Proof

/-! ## Waking (R118) -/

/-- The slot of a team's queue that a pointer names, in a state. -/
def slotIs (s : State) (g : Group) (q : Nat) (pop : Bool) (st : SlotState) : Bool := match s.queue? g q with
  | some x => x.stateAt (if pop then x.pptr else x.aptr) == st
  | none => true

/-- Has a remote barrier been reported at or past a phase, or has its read returned (R352)? -/
def watchHolds (s : State) (g : Group) (dev pa : Nat) (phase : Word) : Bool :=
  match s.barRead g.uid (remoteKey dev pa) with
  | some (bs, c) => bs.isSome || c != 0#8
  | none => s.advanced.any fun a => a.1 == dev && a.2.1 == pa && phaseReached a.2.2.toNat phase.toNat

/-- Does the condition that a parked thread waits for hold? A settle park ends by `LONG_RESULT_LAND` alone. -/
def wakeHolds (s : State) (g : Group) : Wake → Bool
  | .none => true
  | .lines core ls => (absentOf s core ls).isEmpty
  | .ops ids => ids.all fun i => (s.op? i).isNone
  | .walk c a v n => !s.walkReqs.contains (c, a, v, n)
  | .light a v => s.lightReqs.all fun r => !(r.1 == a && r.2.1 == v)
  | .mig a v => match s.walk a v with
    | .leaf t _ => !t.mig
    | _ => true
  | .settle => false
  | .settles ls => ls.all fun l => (g.thread l).wake != .settles ls || (g.thread l).pend.isEmpty
  | .tokens m any => waitReady g m any
  | .prog k m => progReady g k m
  | .barrier pa phase => (s.barrierAt pa).reached phase.toNat
  | .watch dev pa phase => watchHolds s g dev pa phase
  | .slotEmpty q => slotIs s g q false .empty
  | .slotFilled q => slotIs s g q true .filled
  | .fence seq ls stores => s.loadsDone g.uid seq ls && (!stores || g.sq.all fun e => e.seq != seq)

/-- A parked thread whose condition holds becomes RUNNABLE (R118); one that waits to enter its handler, or that a
forced save has stopped, does not. -/
def wakeThread (s : State) (g : Group) (t : Thread) : Thread := match t.st with
  | .parked _ => if t.trap.isNone && t.stopped.isNone && wakeHolds s g t.wake then { t with st := .runnable } else t
  | _ => t

/-- A group with its parked threads re-examined. -/
def wakeGroup (s : State) (g : Group) : Group := { g with threads := g.threads.map (wakeThread s g) }

/-! ## The issue set (R114, R115, R148) -/

/-- May a thread issue (R111, R382)? -/
def Thread.issues (t : Thread) : Bool := t.st == .runnable && t.stopped.isNone && t.trap.isNone

/-- The lanes that may issue. -/
def issuable (g : Group) : List Nat := laneList.filter fun l => (g.thread l).issues

/-- The lanes among which R114 chooses: those that `YIELD` left out wait while another thread may issue (R148). -/
def choosable (g : Group) : List Nat :=
  match (issuable g).filter fun l => !g.leftOut.contains l with
  | [] => issuable g
  | ls => ls

/-- The lane with the lowest PC, lowest lane first. -/
def lowestPc (g : Group) (ls : List Nat) : Option Nat :=
  ls.foldl (fun b l => match b with
    | none => some l
    | some x => if (g.thread l).pc.toNat < (g.thread x).pc.toNat then some l else some x) none

/-- Is a thread starved (R115)? -/
def Thread.isStarved (t : Thread) : Bool := t.starved || decide (1024 ≤ t.starve)

/-- The issue set of a group, empty when no thread may issue (R114). -/
def issueSet (g : Group) : List Nat :=
  let ls := choosable g
  match lowestPc g (ls.filter fun l => (g.thread l).isStarved) with
  | some x => ls.filter fun l => (g.thread l).pc == (g.thread x).pc && (g.thread l).hints == (g.thread x).hints
  | none => match lowestPc g ls with
    | none => []
    | some x =>
      let here := ls.filter fun l => (g.thread l).pc == (g.thread x).pc
      let longest := here.foldl (fun m l => max m (g.thread l).hints.count) 0
      here.filter fun l => (g.thread l).hints.count == longest

/-- Starve counts at an issue (R115). -/
def countStarve (set : List Nat) (g : Group) : Group :=
  { g with threads := g.threads.zipIdx.map fun (t, l) =>
      if set.contains l then { t with starve := 0, starved := false }
      else if t.issues then { t with starve := t.starve + 1 } else t }

/-! ## The fetch of the chosen word (R78) -/

/-- What a fetch gives: a word; an outcome of every lane of the set; or nothing yet, when its page is on another device and its read is still to be sent
(`ask`) or under way. -/
inductive Fetch where
  | word (w : Nat)
  | illegal (detail : Nat)
  | out (o : Out)
  | ask (p : Phys)
  | pending
  deriving DecidableEq, Repr

/-- The issue of a set, before its word is known. -/
def State.issueOf (s : State) (g : Group) (lanes : List Nat) : Issue :=
  (State.issue? { s with sel := { grp := g.uid, lanes := lanes } } 0 false).getD { g := g, lanes := lanes, pc := 0#32 }

/-- The virtual address of a word of the code (R78). -/
def codeVa (img : Image) (pc : Word) : Nat := img.va + img.codeOff + pc.toNat

/-- The fetch of a set's word: CODE_LEN, the lease, the translation with EX, and the word at its home (R78, R99). A read of another device that fails with
none of R376's causes is made again (log entry 162). -/
def fetchWord (s : State) (x : Issue) : Fetch :=
  let img := s.groupCode x.g
  if img.codeLen ≤ x.pc.toNat then .illegal 1
  else match accessCheck s x (x.lanes.headD 0) .fetch (codeVa img x.pc) 4 false with
    | .out o => .out o
    | .ok p => match p with
      | .home pa => if s.lostIn pa 4 then .out (.stop 0x31 (BitVec.ofNat 64 (codeVa img x.pc)) 4) else .word (getLe s.mem pa 4)
      | .remote _ _ => match s.recordView x.g p 4 with
        | .bytes bs => .word (leNat bs)
        | .failed c => if c == 0x60#8 then .out (.stop 4 (BitVec.ofNat 64 (codeVa img x.pc)) 4)
          else if c == 0x08#8 then .out (.stop 0x31 (BitVec.ofNat 64 (codeVa img x.pc)) 4) else .ask p
        | .ask => .ask p
        | .pending => .pending
      | _ => .out (.trap trapMemType (BitVec.ofNat 64 (codeVa img x.pc)) 4)

/-! ## What must be free (R112, R195, R216, R218, R252) -/

/-- The taking-part threads of a guard. -/
def takers (x : Issue) (guard : Nat) : Nat := (x.lanes.filter fun l => takesPart x.hints guard (x.g.thread l)).length

/-- The store-queue entries that a word needs (R195, R343, R361). -/
def queueNeed (x : Issue) : Instr → Nat
  | .st _ _ _ _ _ g => takers x g.toNat
  | .atom .. => takers x 0
  | .acas .. => takers x 0
  | .cflush _ _ _ _ _ g => takers x g.toNat
  | .ldt _ _ _ _ g => takers x g.toNat
  | .stt _ _ _ _ g => takers x g.toNat
  | .fence _ _ k _ => if k == 1#2 then 0 else 1
  | .texp .. => 1
  | .binit .. => 1
  | .arv .. => 1
  | _ => 0

/-- The token that a word binds (R216). -/
def boundToken : Instr → Option Nat
  | .drain _ k _ => some k.toNat
  | .ld _ _ _ k _ _ => some k.toNat
  | .st _ _ _ k _ _ => some k.toNat
  | .atom _ _ _ k _ _ _ => some k.toNat
  | .acas _ _ _ k _ _ => some k.toNat
  | .cflush _ _ _ k _ _ => some k.toNat
  | .ldt _ _ _ k _ => some k.toNat
  | .stt _ _ _ k _ => some k.toNat
  | .binit _ k _ _ => some k.toNat
  | .arv _ k _ _ _ _ => some k.toNat
  | .cpy _ k _ _ _ _ => some k.toNat
  | .launch _ k _ => some k.toNat
  | .kvld _ k _ _ _ _ => some k.toNat
  | .kvseal _ k _ _ => some k.toNat
  | .kvhdr _ k _ _ => some k.toNat
  | .coll _ k _ _ => some k.toNat
  | .mcst _ k _ _ => some k.toNat
  | .rte _ k _ _ => some k.toNat
  | .rtc _ k _ _ => some k.toNat
  | .acacq _ k _ => some k.toNat
  | .mmaBf16 _ k _ _ _ => some k.toNat
  | .mmaF16 _ k _ _ _ => some k.toNat
  | .mmaE4m3 _ k _ _ _ => some k.toNat
  | .mmaE5m2 _ k _ _ _ => some k.toNat
  | .mmaE2m3 _ k _ _ _ => some k.toNat
  | .mmaE3m2 _ k _ _ _ => some k.toNat
  | .mmaI8 _ k _ _ _ => some k.toNat
  | .mmaE2m1 _ k _ _ _ => some k.toNat
  | .mmaSx4 _ k _ _ _ => some k.toNat
  | _ => none

/-- Is an opcode an engine command (R218)? -/
def engineOp (op : Nat) : Bool := op == 0xB0 || op == 0xB1 || (0xB8 ≤ op && op ≤ 0xBA) || (0xBC ≤ op && op ≤ 0xBF)

/-- The operations detached from their tokens that a group holds (R216). -/
def detachedCount (s : State) (g : Group) : Nat := (s.ops.filter fun o => o.grp == g.uid && !o.bound).length

/-- The entries held in the queue of an array (R252). The words that a saved team holds are in its save area (R260), and in no queue. -/
def arrayHeld (s : State) (core arr : Nat) : Nat :=
  (s.ops.filter fun o => (match o.kind with
    | .mma _ _ _ _ => true
    | .acacq _ => true
    | _ => false) && (match s.group? o.grp with
      | some g => g.core == core && arrayOf g == arr && !(s.teams.any fun t => t.uid == g.team && t.phase != .resident)
      | none => false)).length

/-- The record of a legal word: where it lies and its size, when it is aligned and the lease and the translation allow its read (R99, R224, R239). -/
def recordAt (s : State) (x : Issue) (op : BitVec 8) (need : Need) (va n : Nat) : Option (Phys × Nat) :=
  if (need.detail { x with op := op }).isSome || va % n != 0 then none
  else match recordCheck s x va n with
    | .ok p => some (p, n)
    | .out _ => none

/-- The record that a word reads at issue (R224, R318, R321, R331). -/
def recordOf (s : State) (x : Issue) : Instr → Option (Phys × Nat)
  | .cpy _ _ a b o d =>
    let w := (x.g.sget b.toNat).toNat
    if w / 32 != 0 || (s.gatherFor x.g.team (x.g.spair a.toNat) w).isSome then none
    else recordAt s x 0xB0#8 (cpyNeed a b o d) (x.g.spair a.toNat) 128
  | .coll _ _ a b => recordAt s x 0xBC#8 (podNeed a b) (x.g.spair a.toNat) 256
  | .mcst _ _ a b => recordAt s x 0xBD#8 (podNeed a b) (x.g.spair a.toNat) 256
  | .rte _ _ a b => recordAt s x 0xBE#8 (podNeed a b) (x.g.spair a.toNat) 256
  | .rtc _ _ a b => recordAt s x 0xBF#8 (podNeed a b) (x.g.spair a.toNat) 256
  | _ => none

/-- Is a word held until its record's read has returned (R112)? -/
def recordHolds (s : State) (x : Issue) (i : Instr) : Bool := match recordOf s x i with
  | none => false
  | some (p, n) => match s.recordView x.g p n with
    | .ask => true
    | .pending => true
    | _ => false

/-- The lanes of an issue that take part in a word that reads or writes memory or the scratchpad as it issues. -/
def readers (x : Issue) : Instr → List Nat
  | .lds _ _ _ _ g => x.lanes.filter fun l => takesPart x.hints g.toNat (x.g.thread l)
  | .sts _ _ _ _ g => x.lanes.filter fun l => takesPart x.hints g.toNat (x.g.thread l)
  | .ptst _ _ _ g => x.lanes.filter fun l => takesPart x.hints g.toNat (x.g.thread l)
  | .bwait .. => x.lanes
  | .bpoll .. => x.lanes
  | _ => []

/-- The barrier that a word reads as it issues. -/
def polled (x : Issue) : Instr → Option Nat
  | .bwait _ _ _ a _ _ _ => some (x.g.spair a.toNat)
  | .bpoll _ _ a _ => some (x.g.spair a.toNat)
  | _ => none

/-- Is a word held that reads or writes as it issues, until the earlier acquires of its threads are performed, and a barrier word until the group's earlier
writes to its barrier are at their home (R357, R359)? -/
def orderHolds (s : State) (x : Issue) (i : Instr) : Bool :=
  ((readers x i).any fun l => s.acquireHolds x.g.uid x.g.seq l) || (match polled x i with
    | some va => (match barrierCheck s x va .barrierRd with
      | .ok p => s.writesUnseen x.g x.g.seq (partSettled 6) p 32
      | .out _ => false)
    | none => false)

/-- The quad under which a core's `PERF` words are noted, beside its quads' issues (R417). -/
def perfQuad : Nat := 16

/-- The issue of a partition noted for a quad of its core, in this cycle. -/
def State.noteQuad (s : State) (core quad part : Nat) : State :=
  { s with issued := (core, quad, (s.die (dieOf core)).cycles, part) :: s.issued.filter fun x => !(x.1 == core && x.2.1 == quad) }

/-- Has a partition, or a higher one, issued for a quad of its core in this cycle? -/
def State.quadGone (s : State) (core quad part : Nat) : Bool :=
  s.issued.any fun x => x.1 == core && x.2.1 == quad && x.2.2.1 == (s.die (dieOf core)).cycles && decide (part ≤ x.2.2.2)

/-- Is a `PERF` held, since a higher partition of its core has issued one in this cycle: the operations of a cycle are applied in ascending partition order
(R417)? -/
def perfHolds (s : State) (x : Issue) (op : Nat) : Bool := op == 0x09 && s.quadGone x.g.core perfQuad (x.g.part + 1)

/-- Is everything free that a word needs to issue, but for its record (R112)? -/
def roomBut (s : State) (x : Issue) (w : Nat) (i : Instr) : Bool :=
  let op := opcodeOf w
  decide (x.g.sq.length + queueNeed x i ≤ 64) &&
  (match boundToken i with
    | some k => (x.g.token k).st != .pend || decide (detachedCount s x.g < 48)
    | none => true) &&
  (!engineOp op || (match s.ctx? x.g.asid with
    | some c => decide (c.engq.length < 4096)
    | none => true)) &&
  (!((0xC0 ≤ op && op ≤ 0xC8) || op == 0xCC) || decide (arrayHeld s x.g.core (arrayOf x.g) < 64)) && !orderHolds s x i && !perfHolds s x op

/-- Is everything free that a word needs to issue (R112)? -/
def roomFor (s : State) (x : Issue) (w : Nat) (i : Instr) : Bool := roomBut s x w i && !recordHolds s x i

/-- May a group issue: is its team resident, and does its launch still run? -/
def inPlay (s : State) (g : Group) : Bool :=
  g.resident && !g.finished && (match s.launch? g.launch with
    | some l => l.ended.isNone
    | none => false)

/-- Is a group a candidate (R112)? A word whose bytes, or whose record, are yet to come from another device or the host cannot issue. -/
def candidate (s : State) (g : Group) : Bool :=
  inPlay s g && (match issueSet g with
    | [] => false
    | ls =>
      let x := s.issueOf g ls
      match fetchWord s x with
      | .word w => match decodeWord w with
        | .ok i => roomFor s x w i
        | .error _ => true
      | .ask _ => false
      | .pending => false
      | _ => true)

/-- What the next issue of a group has still to ask of another device or the host: the word at its PC, or the record of its word (log entries 47, 162). -/
def toAsk (s : State) (g : Group) : Option (Phys × Nat) :=
  if !inPlay s g then none
  else match issueSet g with
    | [] => none
    | ls =>
      let x := s.issueOf g ls
      match fetchWord s x with
      | .ask p => some (p, 4)
      | .word w => match decodeWord w with
        | .ok i => if roomBut s x w i then (recordOf s x i).filter fun y => s.recordView x.g y.1 y.2 == .ask else none
        | .error _ => none
      | _ => none

/-! ## Ranking (R12, R112, R113) -/

/-- The slots of a queue that stood in a state at the start of a cycle (R113). -/
def slotCount (q : StreamQ) (cycle : Nat) (st : SlotState) : Nat := ((q.before cycle).filter fun x => x == st).length

/-- Class (true for NORMAL) and weight of a group, from the queues at the start of the cycle (R113). -/
def classWeight (s : State) (g : Group) : Bool × Nat :=
  let now := (s.die (dieOf g.core)).cycles
  let role := ((s.groupCode g).roles[g.role]?).getD { entry := 0, groups := 1, vbud := 1 }
  let term := fun (q : Option Nat) (st : SlotState) => match q.bind (s.queue? g) with
    | some x => (16 * slotCount x now st / x.slots.length, slotCount x now st == 0)
    | none => (8, false)
  let i := term role.inq .filled
  let o := term role.outq .empty
  (!(i.2 || o.2), i.1 + o.1)

/-- The cycles of the group's die since its last issue; a group that has not issued since it was placed or placed again counts from its placement (log
entry 151). -/
def sinceIssue (s : State) (g : Group) : Nat := (s.die (dieOf g.core)).cycles - g.lastIssue

/-- Is a group owed its partition's next slot (R12)? -/
def groupOwed (s : State) (g : Group) : Bool := g.owed || decide (4096 ≤ sinceIssue s g)

/-- The rank of a candidate: owed, class, boost or yield, weight, age, slot. Higher goes first. -/
def rank (s : State) (g : Group) : List Nat :=
  let (cl, w) := classWeight s g
  [if groupOwed s g then sinceIssue s g + 1 else 0, if cl then 1 else 0, if g.yielded then 0 else if 0 < g.boost then 2 else 1, w, sinceIssue s g, 63 - g.slot]

/-- Lexicographic order of ranks. -/
def ranksAbove : List Nat → List Nat → Bool
  | a :: as, b :: bs => if a = b then ranksAbove as bs else decide (b < a)
  | _, _ => false

/-- The group that a partition's arbiter chooses (R112). -/
def arbitrate (s : State) (core part : Nat) : Option Group :=
  (s.groups.filter fun g => g.core == core && g.part == part && candidate s g).foldl (fun b g => match b with
    | none => some g
    | some x => if ranksAbove (rank s g) (rank s x) then some g else some x) none

/-! ## Before and after the issue -/

/-- A slot of a partition is used: a slot is one in which a group issues, a cycle without a candidate being none (log entry 152). Yields end, boosts run
down, and the group that issues has its counts set (R94, R115, R148). -/
def State.beginIssue (s : State) (g : Group) (set : List Nat) : State :=
  let here := fun (x : Group) => x.core == g.core && x.part == g.part && x.resident
  let used := fun (x : Group) => { x with yielded := false, boost := x.boost - 1 }
  let s := { s with groups := mapIf here used s.groups }
  let s := s.modGroup g.uid fun x => { countStarve set x with lastIssue := (s.die (dieOf g.core)).cycles, owed := false, leftOut := [] }
  { s with sel := { grp := g.uid, lanes := set } }

/-- The opcode that stands for no word: its fetch gave none. -/
def noWord : Nat := 256

/-- The beats of a word: one for each eight threads of its issue set, and one for a word of the scalar or the control pipe (R116; log entry 182). -/
def beatsOfWord (op n : Nat) : Nat :=
  if (0x01 ≤ op ∧ op ≤ 0x0A) ∨ (0x10 ≤ op ∧ op ≤ 0x23) ∨ op = 0x26 ∨ (0x50 ≤ op ∧ op ≤ 0x5F) then 1 else (n + 7) / 8

/-- A word that issued is counted, with its beats (R416). -/
def State.countWord (s : State) (x : Issue) (op : Nat) : State :=
  if op = noWord then s
  else (s.count x.g.core x.g.asid x.g.team 0x002 1).count x.g.core x.g.asid x.g.team 0x003 (beatsOfWord op x.lanes.length)

/-- A park that a thread of a group entered is counted, and with it a light fault or a miss of the cluster's TLB (R416; log entry 182). -/
def State.countPark (s : State) (g : Group) (r : Reason) : State :=
  let s := s.count g.core g.asid g.team (0x010 + r.code) 1
  if r == .lightFault then s.count g.core g.asid g.team 0x026 1
  else if r == .translation then s.count g.core g.asid g.team 0x025 1
  else s

/-- The parks counted that threads of a group entered since it stood as `g`: those of the lanes that issued, which parked anew, and those of other lanes whose
state is another now, such as threads released from `RCV` into a settle park, or one that waits before its handler (R416). -/
def countParks (g : Group) (issued : List Nat) : List Nat → State → State
  | [], s => s
  | l :: ls, s => countParks g issued ls (match ((s.group? g.uid).getD g).thread l |>.st with
    | .parked r => if issued.contains l || (g.thread l).st != .parked r then s.countPark g r else s
    | _ => s)

/-- Did a lane complete the hinted word, so that its pending hints took effect (R88 to R90)? It did not when it parked before the word, which keeps them, or
took a trap at it, whose continuation is the first word of its hint chain. -/
def completedWord (x : Issue) (g : Group) (l : Nat) : Bool :=
  let t0 := x.g.thread l
  let t := g.thread l
  let went := fun (cpc : Nat) => cpc != t0.chainPc.toNat || t.stack != t0.stack
  t.hints.sch.isNone && (match t.trap with
    | some r => went r.cpc.toNat
    | none => !(t.hnd && !t0.hnd) || went (getLe g.frames (64 * l + 16) 4))

/-- The slots that the boost of a hint runs through, its own yield's slot, which comes first, among them (R94). -/
def SchHint.slots (h : SchHint) : Nat := if h.pri = 0#3 then 0 else h.pri.toNat + (if h.yld then 1 else 0)

/-- The scheduling hint of an issued word takes effect (R94): a boost counts from here unless one with more slots left stands. -/
def Group.schedule (g : Group) (h : SchHint) : Group := { g with boost := max g.boost h.slots, yielded := h.yld || g.yielded }

/-- The words fetched ahead that the group goes on towards, once it has issued its word at `pc`; the others are discarded and counted (R100, R416). -/
def State.keepAhead (s : State) (g : Group) (pc : Nat) : State :=
  match issueSet g with
  | [] => s.modGroup g.uid fun g => { g with ahead := g.ahead.filter fun a => a != pc }
  | l :: _ =>
    let next := (g.thread l).pc.toNat
    let on := fun a => decide (next ≤ a ∧ a ≤ next + 64)
    let gone := (g.ahead.filter fun a => a != pc && !on a).length
    (s.modGroup g.uid fun g => { g with ahead := g.ahead.filter on }).count g.core g.asid g.team 0x041 gone

/-- After the issue of a word with an opcode: its `HSCH` takes effect once the word has issued for some thread, which no hint word and no word that only
traps does (R88, R90, R94, R99), and the word, its parks and the words fetched ahead are counted. -/
def State.endIssue (s : State) (x : Issue) (op : Nat) : State :=
  let s := countParks x.g x.lanes laneList (s.countWord x op)
  let s := if op = 0x09 then s.noteQuad x.g.core perfQuad x.g.part else s
  match s.group? x.g.uid with
  | none => s
  | some g =>
    let s := match x.hints.sch with
      | some h => if !hintOp op && x.lanes.any (completedWord x g) then s.modGroup g.uid fun g => g.schedule h else s
      | none => s
    if g.ahead.isEmpty then s else s.keepAhead g x.pc.toNat

end Sys2Proof.Machine
end

