-- ==== Sys2Proof/Machine/Engine.lean ====
section
/-!
DEFINITION. How engines reach memory on behalf of a launch (R53, R59, R62, R187, R219): extents translated page by page, bytes read and written at their
homes, ranges of memory copied, and the requests to other devices that carry an operation's accesses (R298 to R301, R304).
-/
namespace Sys2Proof.Machine
open Sys2Proof

/-! ## Extents -/

/-- What the check and translation of an extent give: its physical pieces in order; the fault that ends the task (1 lease, 2 translation) and its address;
a hold on a page that migrates or needs A or D; or a key-value page that is closed to writes (R268). -/
inductive Ext where
  | ok (segs : List (Phys × Nat))
  | stop (cause : Nat) (va : Nat)
  | hold (page : Nat) (light : Bool)
  | closed
  deriving DecidableEq, Repr

/-- One page's piece under an entry. -/
def pieceOf (s : State) (asid : Nat) (n : Rights) (writes : Bool) (a : Nat) : Except Ext Phys :=
  match s.xlate asid a n with
  | none => .error (.stop 2 a)
  | some t =>
    if t.mig then .error (.hold t.va false)
    else if !t.a || (writes && !t.d) then .error (.hold t.va true)
    else if writes && t.kv && !t.opn then .error .closed
    else .ok (s.target t a)

/-- The pieces of runs, in order; the first page that does not translate decides. -/
def piecesOf (s : State) (asid : Nat) (n : Rights) (writes : Bool) : List (Nat × Nat) → Ext
  | [] => .ok []
  | (a, k) :: rest => match pieceOf s asid n writes a with
    | .error e => e
    | .ok p => match piecesOf s asid n writes rest with
      | .ok ps => .ok ((p, k) :: ps)
      | e => e

/-- An engine's access to an extent on behalf of a launch: the lease check of the whole, then each page (R53, R219). -/
def State.extent (s : State) (launch asid : Nat) (n : Rights) (writes : Bool) (va len : Nat) : Ext :=
  if len = 0 then .ok []
  else match s.launch? launch with
    | none => .stop 1 va
    | some l => if s.leased l n va len then piecesOf s asid n writes (pageRuns va len) else .stop 1 va

/-- A held engine asks Ochre for the A or D bit that it needs (R59). -/
def State.holdFor (s : State) (asid page : Nat) (light writes : Bool) : State :=
  if light && !s.lightReqs.contains (asid, page, writes) then { s with lightReqs := s.lightReqs ++ [(asid, page, writes)] } else s

/-- Are all pieces on this device or the host, so that an engine reaches them at once? -/
def Phys.near : Phys → Bool
  | .remote _ _ => false
  | .host _ => false
  | _ => true

/-- The bytes of near pieces, read at their homes. -/
def State.readNear (s : State) : List (Phys × Nat) → Bytes
  | [] => []
  | (p, n) :: rest => (match p with
    | .home pa => s.localBytes pa n
    | .window pa => s.localBytes pa n
    | _ => List.replicate n 0#8) ++ s.readNear rest

/-- Bytes written to near pieces at their homes (R186), by a context; the writer's cluster keeps no copy. -/
def State.writeNear (s : State) (clu asid : Nat) : List (Phys × Nat) → Bytes → State
  | [], _ => s
  | (p, n) :: rest, bs => ((match p with
    | .home pa => (s.dropExtent clu pa n).homeWrite asid pa (bs.take n)
    | .window pa => s.putLocal pa (bs.take n)
    | _ => s) : State).writeNear clu asid rest (bs.drop n)

/-- Does a list of pieces touch a lost line? -/
def State.lostPieces (s : State) (segs : List (Phys × Nat)) : Bool := segs.any fun x => match x.1 with
  | .home pa => s.lostIn pa x.2
  | _ => false

/-- A range of memory cleared. -/
def clearRange (m : Memory) (a n : Nat) : Memory := m.filter fun c => decide (c.1 < a ∨ a + n ≤ c.1)

/-- The listed cells of a range written at another place. -/
def putCells (m : Memory) (src dst : Nat) : List Host.Cell → Memory
  | [] => m
  | (a, b) :: cs => putCells (memPut m (dst + (a - src)) b) src dst cs

/-- `n` bytes of memory copied from one place to another. -/
def copyRange (m : Memory) (src dst n : Nat) : Memory :=
  putCells (clearRange m dst n) src dst (m.filter fun c => decide (src ≤ c.1 ∧ c.1 < src + n))

/-! ## Requests to other devices -/

/-- Is an access of a power of two of bytes, at most 16, aligned to its size (R192, R303)? -/
def accessAligned (pa n : Nat) : Bool := !([2, 4, 8, 16].contains n) || pa % n == 0

/-- A load of bytes of another device. -/
def State.askRead (s : State) (dev pa n : Nat) (owner : ReqFor) (asid grp : Nat) : State × Bool :=
  s.request { ty := 1#8, src := 0#16, dst := BitVec.ofNat 16 dev, addr := BitVec.ofNat 64 pa, len := BitVec.ofNat 16 n } owner asid grp

/-- A store to another device. -/
def State.askWrite (s : State) (dev pa : Nat) (data : Bytes) (owner : ReqFor) (asid grp : Nat) : State × Bool :=
  s.request { ty := 2#8, src := 0#16, dst := BitVec.ofNat 16 dev, addr := BitVec.ofNat 64 pa, len := BitVec.ofNat 16 data.length, data := data } owner asid grp

/-- An atomic at another device: AUX carries OP, W, CAS, ORD and the order number (R285, R300). -/
def State.askAtomic (s : State) (dev pa aux : Nat) (data : Bytes) (owner : ReqFor) (asid grp : Nat) : State × Bool :=
  s.request { ty := 3#8, src := 0#16, dst := BitVec.ofNat 16 dev, addr := BitVec.ofNat 64 pa, len := BitVec.ofNat 16 data.length,
              aux := BitVec.ofNat 16 aux, data := data } owner asid grp

/-- The next order number of an issuing group's ORD atomics towards a home slice of a device (R300), modulo 1,024. -/
def State.orderNo (s : State) (grp dev pa : Nat) : Nat × State :=
  let key := dev * 256 + homeSlice pa
  let n := match s.atomNext.find? fun a => a.1 == grp && a.2.1 == key with
    | some a => a.2.2
    | none => 0
  (n, { s with atomNext := (grp, key, (n + 1) % 1024) :: s.atomNext.filter fun a => !(a.1 == grp && a.2.1 == key) })

/-- Has each remote piece a path? -/
def State.reaches (s : State) (segs : List (Phys × Nat)) : Bool := segs.all fun x => match x.1 with
  | .remote dev _ => (s.inject dev 0 none).isSome
  | _ => true

/-! ## A task that an engine or a reply ends -/

/-- The opcode of the word that issued an operation. -/
def OpKind.opcode : OpKind → Nat
  | .load _ _ => 0x90
  | .store _ _ => 0x91
  | .atom _ _ _ _ _ => 0x94
  | .cas _ _ _ _ => 0x95
  | .cflush _ => 0x98
  | .ldt _ _ => 0x9A
  | .stt _ _ => 0x9B
  | .binit _ _ => 0xA5
  | .arv _ _ _ => 0xA6
  | .copy _ => 0xB0
  | .launch _ => 0xB1
  | .kvld => 0xB8
  | .kvseal => 0xB9
  | .kvhdr => 0xBA
  | .coll => 0xBC
  | .mcst => 0xBD
  | .rte => 0xBE
  | .rtc => 0xBF
  | .mma fmt _ _ _ => [0, 0xC0, 0xC1, 0xC2, 0xC3, 0xC4, 0xC5, 0xC7, 0xC8, 0, 0xC6].getD fmt 0
  | .acacq _ => 0xCC
  | .drain _ => 0x0A

/-- The lanes whose access it is: of a barrier word every thread of its issue set, else the one lane (R379). -/
def Op.faultLanes (o : Op) (lane : Nat) : List Nat := match o.kind with
  | .arv _ _ _ => o.lanes
  | .binit _ _ => o.lanes
  | _ => [lane]

/-- The task of an operation ends, with a record for each thread whose access it was (R377, R379). `lane` is 0xFF for an access of an engine. -/
def State.opEnds (s : State) (o : Op) (cause lane size va : Nat) : State :=
  s.endTask o.launch ((o.faultLanes lane).map fun l => { cause := cause, lane := l, op := o.kind.opcode, size := size, pc := o.pc.toNat, addr := va }) (some o.grp)

/-- The task of a `TEXP` ends through one of its updates, with a record for each of its threads (R379). -/
def State.exportEnds (s : State) (u : BUpdate) (cause : Nat) : State := match s.group? u.grp with
  | some g => s.endTask g.launch (u.lanes.map fun l => { cause := cause, lane := l, op := 0xA4, size := 32, pc := u.pc.toNat, addr := u.bar }) (some u.grp)
  | none => s

/-- A command ends with a cause: a copy with all its slices (R231). -/
def State.endCommand (s : State) (o : Op) (st : TokState) (cause : BitVec 8) : State := match o.kind with
  | .copy g => s.endCopy g st cause
  | _ => s.finishOp o.id st cause

/-- An engine's access ends the task: its own token is poisoned (R377). -/
def State.engineEnds (s : State) (o : Op) (cause va : Nat) : State := (s.opEnds o cause 0xFF 0 va).endCommand o .poison 0x90#8

end Sys2Proof.Machine
end

