-- ==== Sys2Proof/Machine/MemEvents.lean ====
section
/-!
DEFINITION. What happens to a thread's accesses after their words (R186, R187, R193, R195 to R199, R206 to R213, R301, R304, R343, R361, R362): the store
queue drains, replies come, and versioned tiles are read and written.
-/
namespace Sys2Proof.Machine
open Sys2Proof

/-! ## Cache lines -/

/-- Bytes laid into a cluster's line, dirty and tagged with their writer (R186, R395). -/
def dirtyLine (asid pa : Nat) (bs : Bytes) (l : CCLine) : CCLine :=
  { l with asid := asid, data := overlay l.data (pa % 256) bs
           dirty := l.dirty.take (pa % 256) ++ List.replicate bs.length true ++ l.dirty.drop (pa % 256 + bs.length) }

/-- Present lines of a core's L1 updated by its store (R186). -/
def State.storeL1 (s : State) (core pa : Nat) (bs : Bytes) : State :=
  { s with l1 := mapIf (fun l => l.core == core && l.pa == pa / 128 * 128) (fun l => { l with data := overlay l.data (pa % 128) bs }) s.l1 }

/-- A plain store performed (R186, R195): present lines of the core's L1 are updated, and the bytes are written through to the cluster cache. -/
def State.storeCluster (s : State) (core asid pa : Nat) (bs : Bytes) : State :=
  let clu := clusterOf core
  let s := (s.storeL1 core pa bs).allocCC clu pa asid
  { s with cc := mapIf (fun l => l.clu == clu && l.pa == pa / 256 * 256) (dirtyLine asid pa bs) s.cc }

/-- The CP codes that change where a line is kept (R93). -/
def cpL1na : Nat := 1
def cpNocc : Nat := 4

/-- A plain store performed as its cache policy says (R93, R203): one with `.nocc` bypasses the cluster cache, whose copy goes home before it. -/
def State.storeBy (s : State) (cp core asid pa : Nat) (bs : Bytes) : State :=
  if cp = cpNocc then
    let clu := clusterOf core
    let s := (s.storeL1 core pa bs).writeBack clu pa
    State.homeWrite { s with cc := s.cc.filter fun l => !(l.clu == clu && l.pa == pa / 256 * 256) } asid pa bs
  else s.storeCluster core asid pa bs

/-- The line of a load brought into the cluster's cache and the core's L1 (R186), but where its cache policy keeps it out (R93). -/
def State.fillFor (s : State) (cp core asid va pa : Nat) : State :=
  let s := if cp = cpNocc then s else s.allocCC (clusterOf core) pa asid
  if cp = cpL1na then s else match s.l1? core asid va, s.tlb? (clusterOf core) asid va with
  | none, some t => if s.target t va == .home pa then s.fillL1 core asid va pa t else s
  | _, _ => s

/-- An access of a core that reaches a home slice: a superblock that the slice does not hold is an L2 miss, and one that it holds compressed is read so
(R189, R416; log entry 182). -/
def State.countHome (s : State) (g : Group) (pa : Nat) : State :=
  let sb := superblock pa
  let hit := s.l2.any (fun x => superblock x.pa == sb) || Config.l2Holds sb s.free
  let packed := Config.l2Packed sb s.free
  let s := (s.count g.core g.asid g.team 0x023 (if hit then 0 else 1)).count g.core g.asid g.team 0x024 (if packed then 1 else 0)
  { s with free := s.free + 1 }

/-- An access of a core that reaches its cluster's cache: a line that the cache lacks is a miss, and is read from its home (R416). -/
def State.countCluster (s : State) (g : Group) (pa : Nat) : State :=
  match s.ccLine? (clusterOf g.core) pa with
  | some _ => s
  | none => (s.count g.core g.asid g.team 0x022 1).countHome g pa

/-- A load of a core counted as a hit of its L1, or as a miss that its cluster's cache answers (R416). -/
def State.countLoad (s : State) (g : Group) (va pa : Nat) : State :=
  match s.l1? g.core g.asid va with
  | some l => if l.pa = pa / 128 * 128 then s.count g.core g.asid g.team 0x020 1 else (s.count g.core g.asid g.team 0x021 1).countCluster g pa
  | none => (s.count g.core g.asid g.team 0x021 1).countCluster g pa

/-- The byte that a core's load takes from its L1 or from below (R187, R196). -/
def State.coreByte (s : State) (core asid va pa : Nat) : Byte := match s.l1? core asid va with
  | some l => if l.pa == pa / 128 * 128 then l.data.getD (pa % 128) 0#8 else s.clusterByte (clusterOf core) pa
  | none => s.clusterByte (clusterOf core) pa

/-! ## The order of a thread's accesses (R197, R199) -/

/-- Is an operation one that releases? -/
def Op.releases (o : Op) : Bool := match o.kind with
  | .store r _ => r
  | .atom _ _ _ m _ => m.getLsbD 1
  | .cas _ _ m _ => m.getLsbD 1
  | .ldt m _ => m.getLsbD 1
  | .stt m _ => m.getLsbD 1
  | _ => false

/-- The scope of its SEM (R199). -/
def Op.semScope (o : Op) : Nat := scopeOf (match o.kind with
  | .load _ c => c.toNat
  | .store _ c => c.toNat
  | .atom _ _ _ _ c => c.toNat
  | .cas _ _ _ c => c.toNat
  | .ldt _ c => c.toNat
  | .stt _ c => c.toNat
  | _ => 0)

/-- Does an earlier access of the lane still hold back a later one: an acquire not yet performed? -/
def State.acquireBefore (s : State) (o : Op) (lane : Nat) : Bool := s.acquireHolds o.grp o.seq lane

/-- Does an earlier load of the lane from NORMAL memory of this device still wait (R197)? -/
def State.loadBefore (s : State) (o : Op) (lane : Nat) : Bool :=
  s.ops.any fun q => q.grp == o.grp && decide (q.seq < o.seq) && (match q.kind with
    | .load _ _ => true
    | _ => false) && q.parts.any fun p => p.lane == lane && !p.performed && p.fin.isNone && (match p.phys with
      | .home _ => true
      | _ => false)

/-- An earlier load of the same lane and bytes that is not yet performed: a store of the lane waits for it (R197). -/
def State.loadOverlap (s : State) (clu : Nat) (o : Op) (p : Part) : Bool :=
  s.ops.any fun q => q.grp == o.grp && decide (q.seq < o.seq) &&
    q.parts.any fun r => r.lane == p.lane && loadPending q r && (s.footprint clu q r).any fun x => x.1.meets x.2 p.phys p.size

/-- Does the atomic carry ORD? -/
def Op.ordered (o : Op) : Bool := match o.kind with
  | .atom _ _ r _ _ => r
  | .cas _ r _ _ => r
  | _ => false

/-- Is the operation an `ATOM` or an `ACAS`? -/
def Op.isAtomic (o : Op) : Bool := match o.kind with
  | .atom _ _ _ _ _ => true
  | .cas _ _ _ _ => true
  | _ => false

/-- Must two atomics of one thread at another device come in their issue order: to one address, or both with ORD to one home slice (R208)? -/
def inOrder (o q : Op) (x y : Phys) : Bool := match x, y with
  | .remote d a, .remote e b => d == e && (a == b || (o.ordered && q.ordered && homeSlice a == homeSlice b))
  | _, _ => false

/-- Does an atomic wait for an earlier one of its thread of which one is sent as a FLAG, whose order against the other nothing on the way keeps (R208,
R304)? -/
def State.flagBefore (s : State) (o : Op) (p : Part) : Bool :=
  o.isAtomic && s.ops.any fun q => q.grp == o.grp && decide (q.seq < o.seq) && q.isAtomic && (o.releases || q.releases) &&
    q.parts.any fun r => r.lane == p.lane && r.fin.isNone && inOrder o q p.phys r.phys

/-- May an entry of an operation leave the head: its preconditions are resolved, no earlier acquire or load of its lane holds it back, and what it releases
is performed at its scope (R92, R199, R301, R361)? An earlier load that it does not overlap holds back no plain store (R197; log entry 190). -/
def State.mayLeave (s : State) (clu : Nat) (o : Op) (p : Part) : Bool :=
  !s.acquireBefore o p.lane && !s.loadOverlap clu o p && !s.flagBefore o p &&
  (!o.releases || (s.loadsDone o.grp o.seq [p.lane] && s.storesDone o.grp o.seq o.semScope))

/-! ## Leaving the queue (R195, R198, R304) -/

/-- A part is sent. -/
def State.sentPart (s : State) (o : Op) (lane : Nat) : State := s.modPart o.id lane fun p => { p with sent := true }

/-- A part is sent and performed. -/
def State.performedPart (s : State) (o : Op) (lane : Nat) : State := s.modPart o.id lane fun p => { p with sent := true, performed := true }

/-- A request that may find no path: then the part fails with 0x61 (R302, R303). -/
def State.sentOr (o : Op) (lane : Nat) : State × Bool → State
  | (s, true) => s.sentPart o lane
  | (s, false) => s.finishPart o.id lane 0x61#8

/-- A store leaves the queue for its target (R187, R195). A store to a disabled aperture window is dropped and recorded (R42); one to a lost line ends its
task (R397). A store to the window of a team that has left its core since the store was checked goes to what then stands there (log entry 158). -/
def State.sendStore (s : State) (g : Group) (o : Op) (p : Part) : State :=
  match p.phys with
  | .home pa => if s.lostIn pa p.size then s.opEnds o 0x31 p.lane p.size p.va else ((if o.cp = cpNocc then s else s.countCluster g pa).storeBy o.cp g.core o.asid pa p.data).sentPart o p.lane
  | .window pa => (s.putLocal pa p.data).performedPart o p.lane
  | .host pa => match s.apertureOf pa with
    | some base => State.performedPart { s with hostOut := s.hostOut ++ [.apertureWrite (base + (pa - hostBase) % 2 ^ 32) p.data] } o p.lane
    | none => (s.noteFault o.launch g { cause := Config.apertureCause, lane := p.lane, op := 0x91, size := p.size, pc := o.pc.toNat, addr := p.va }).performedPart
        o p.lane
  | .remote dev pa =>
    if o.releases then State.sentOr o p.lane (s.sendFlag dev pa 1 p.size 0 0 0 0 0 p.data (.part o.id p.lane) o.asid o.grp)
    else State.sentOr o p.lane (s.askWrite dev pa p.data (.part o.id p.lane) o.asid o.grp)
  | .frame off => (s.putFrames g off p.data).performedPart o p.lane
  | .zero => s.performedPart o p.lane

/-- The fields of an atomic that a request carries: OP, W and CAS (R285). -/
def Op.atomicBits (o : Op) : Nat := match o.kind with
  | .atom op w _ _ _ => op.toNat + (if w then 8 else 0)
  | .cas w _ _ _ => (if w then 8 else 0) + 16
  | _ => 0

/-- A home operation leaves the queue towards its home (R198, R300, R304). -/
def State.sendHome (s : State) (o : Op) (p : Part) : State :=
  match o.kind, p.phys with
  | .ldt _ _, _ => s.sentPart o p.lane
  | .stt _ _, _ => s.sentPart o p.lane
  | .cflush _, _ => s.sentPart o p.lane
  | _, .remote dev pa =>
    if o.releases then State.sentOr o p.lane (s.sendFlag dev pa 2 p.size o.atomicBits 0 0 0 0 p.data (.part o.id p.lane) o.asid o.grp)
    else
      let (n, s) := if o.ordered then s.orderNo o.grp dev pa else (0, s)
      State.sentOr o p.lane (s.askAtomic dev pa (o.atomicBits + (if o.ordered then 32 + n * 64 else 0)) p.data (.part o.id p.lane) o.asid o.grp)
  | _, _ => s.sentPart o p.lane

/-- The head of a group's queue removed, and the group finished when it may be (R399). -/
def State.popQueue (s : State) (u : Nat) : State := s.modGroup u fun g => { g with sq := g.sq.drop 1 }

/-- Does a part go to another device? -/
def Part.isRemote (p : Part) : Bool := match p.phys with
  | .remote _ _ => true
  | _ => false

/-- The parts of an issue that leave the queue with one of them: of an atomic those to the same address of another device, so that no other atomic of this
device comes between them (R208); else the one. -/
def withPart (o : Op) (p : Part) : List Part :=
  if o.isAtomic && p.isRemote then o.parts.filter fun q => q.phys == p.phys && !q.sent && q.fin.isNone else [p]

/-- Parts leave the queue, one after another. -/
def sendParts (g : Group) (o : Op) (store : Bool) : List Part → State → State
  | [], s => s
  | p :: ps, s => sendParts g o store ps (if store then s.sendStore g o p else s.sendHome o p)

/-- An access's entry at the head; those that leave with it are no longer entries. -/
def State.drainPart (s : State) (g : Group) (e : QEntry) : State :=
  match s.op? e.op with
  | none => s.popQueue g.uid
  | some o =>
    match o.parts.find? fun p => p.lane == e.lane with
    | none => s.popQueue g.uid
    | some p =>
      if !o.ready then s
      else match o.skipCause with
        | some c => (s.popQueue g.uid).finishPart o.id e.lane c
        | none =>
          let ps := withPart o p
          if ps.any (fun q => !s.mayLeave (clusterOf g.core) o q) || (p.isRemote && !s.rtxRoom ps.length) then s
          else
            let s := if o.releases then s.release (clusterOf g.core) o.semScope else s
            let s := s.modGroup g.uid fun g => { g with sq := g.sq.filter fun x => !(x.op == e.op && ps.any fun q => q.lane == x.lane) }
            sendParts g o (e.kind == .store) ps s

/-- A barrier initialised at its home for a context, by the owner a tag names (R353, R395). -/
def State.initBarrier (s : State) (pa : Nat) (w0 w1 : Word) (asid tag : Nat) : State :=
  let old := s.barrierAt pa
  let d := w0.toNat
  let b : Barrier := { phase := if old.valid then old.phase else 0, flags := 2 ^ 16 + bitsOf d 24 3 * 2 ^ 17 + bitsOf d 27 1 * 2 ^ 20
                       expa := bitsOf d 0 24, pena := bitsOf d 0 24, penb := w1.toNat, brld := w1.toNat, nasid := asid }
  s.homeWrite tag pa b.bytes

/-- The release that an update to a barrier at an address performs first: the barrier's SCOPE here, `pod` for another device (R347, R352, R354); `binit`
releases at `dev` here (R353). -/
def State.barrierScope (s : State) (asid va : Nat) (binit : Bool) : Nat :=
  match s.xlate asid va rightsRdWr with
  | none => 1
  | some t => match s.target t va with
    | .remote _ _ => 6
    | .home pa => if binit then 5 else (s.barrierAt pa).scope
    | _ => 1

/-- A barrier word's operation at the head, what it releases performed (R353, R354). -/
def State.sendBarrier (s : State) (g : Group) (o : Op) : State :=
  let fail := fun (s : State) (c : BitVec 8) => if c == 0#8 then s else s.finishOp o.id .poison c
  match o.kind with
  | .arv a b p =>
    let (s, c) := (s.sentPart o 0).sendUpdate o.va { arr := a, byt := b, cause := p, unit := g.core, op := o.id, asid := o.asid, seq := o.seq, pc := o.pc, lanes := o.lanes } g.uid
    fail s c
  | .binit w0 w1 => match (o.parts.headD { lane := 0, va := 0, phys := .zero, size := 32 }).phys with
    | .remote dev pa => match s.sendFlag dev pa 4 8 0 0 0 0 0 (natLe 4 w0.toNat ++ natLe 4 w1.toNat) (.part o.id 0) o.asid g.uid with
      | (s, true) => s.sentPart o 0
      | (s, false) => s.finishOp o.id .poison 0x61#8
    | .home pa => if s.lostIn pa 32 then s.opEnds o 0x31 0 32 o.va
      else ((s.dropExtent (clusterOf g.core) pa 32).initBarrier pa w0 w1 o.asid o.asid).finishOp o.id .done 0#8
    | _ => s.finishOp o.id .done 0#8
  | _ => s

/-- The updates that a `TEXP` sends as it leaves the queue (R347). -/
def sendUpdates (u : Nat) : List (Nat × BUpdate) → State → State
  | [], s => s
  | (va, x) :: rest, s => sendUpdates u rest (s.sendUpdate va x u).1

/-- The entry of a `TEXP` at the head: it leaves once what precedes it is performed at the barrier's SCOPE (R347). -/
def State.drainTexp (s : State) (g : Group) (e : QEntry) : State :=
  let scope := match e.upds.head? with
    | some (va, u) => s.barrierScope u.asid va false
    | none => 6
  if s.loadsDone g.uid e.seq laneList && s.storesDone g.uid e.seq scope then sendUpdates g.uid e.upds ((s.release (clusterOf g.core) scope).popQueue g.uid) else s

/-- A barrier word's entry at the head. -/
def State.drainBarrier (s : State) (g : Group) (e : QEntry) : State :=
  if e.op = 0 then s.drainTexp g e
  else match s.op? e.op with
    | none => s.popQueue g.uid
    | some o =>
      let binit := match o.kind with
        | .binit _ _ => true
        | _ => false
      if !o.ready then s
      else match o.skipCause with
        | some c => (s.popQueue g.uid).finishOp o.id .poison c
        | none =>
          if o.stage ≠ 0 then (s.popQueue g.uid).finishOp o.id .poison (BitVec.ofNat 8 o.stage)
          else
            let scope := s.barrierScope o.asid o.va binit
            let lanes := if binit then laneList else o.lanes
            if s.loadsDone g.uid o.seq lanes && s.storesDone g.uid o.seq scope && (s.rtxRoom 1 || !o.parts.any Part.isRemote) then
              ((s.release (clusterOf g.core) scope).popQueue g.uid).sendBarrier g o
            else s

/-- The lanes of a mask. -/
def maskLanes (m : Nat) : List Nat := laneList.filter fun l => bitOf m l

/-- A fence's marker at the head (R361). -/
def State.drainFence (s : State) (g : Group) (e : QEntry) (scope : BitVec 3) (upto : Nat) : State :=
  let sc := scopeOf scope.toNat
  if s.loadsDone g.uid upto (maskLanes e.lane) && s.storesDone g.uid upto sc then (s.release (clusterOf g.core) sc).popQueue g.uid else s

/-- Step `STORE_QUEUE_DRAIN` (R195): the entry at the head of a group's queue leaves it when it may; a group with nothing left is finished (R399). -/
def execStoreQueueDrain (u : Nat) (s : State) : Host.Outcome State Fault Refusal :=
  match s.group? u with
  | none => .next s
  | some g => match g.sq with
    | [] => .next s
    | e :: _ =>
      let t := match e.kind with
        | .store => s.drainPart g e
        | .home => s.drainPart g e
        | .barrier => s.drainBarrier g e
        | .fence scope upto => s.drainFence g e scope upto
      .next (t.finishGroup u)

/-! ## Atomics at their home (R206 to R208, R300) -/

/-- An integer atomic's new value, of 32 or 64 bits. -/
def atomicInt (op w old x : Nat) : Nat :=
  match op with
  | 0 => (old + x) % 2 ^ w
  | 1 => if sextNat old w ≤ sextNat x w then old else x
  | 2 => if sextNat old w ≤ sextNat x w then x else old
  | 3 => Nat.land old x
  | 4 => Nat.lor old x
  | 5 => Nat.xor old x
  | _ => x

/-- The new value that an atomic writes (R206, R207), from its bits OP, W and CAS, the old value and the operand bytes; none when a compare-and-swap
fails. -/
def atomicNew (bits : Nat) (old : Nat) (opnd : Bytes) : Option Nat :=
  let n := if bitOf bits 3 then 8 else 4
  let x := fieldLe opnd 0 n
  if bitOf bits 4 then (if old = x then some (fieldLe opnd n n) else none)
  else if bitsOf bits 0 3 = 7 then some (fmtF32.fadd .rne old x).1
  else some (atomicInt (bitsOf bits 0 3) (8 * n) old x)

/-- One atomic performed at its home, by a context: the state after, and the old value's bytes. -/
def State.atomicAt (s : State) (tag bits pa : Nat) (opnd : Bytes) : State × Bytes :=
  let n := if bitOf bits 3 then 8 else 4
  let old := getLe s.mem pa n
  match atomicNew bits old opnd with
  | some x => (s.homeWrite tag pa (natLe n x), natLe n old)
  | none => (s, natLe n old)

/-- The parts of an operation at one address, performed in ascending lane order (R208). -/
def performAtomics (o : Op) (pa : Nat) : List Part → State → State
  | [], s => s
  | p :: rest, s =>
    if p.phys == .home pa then
      let (s, old) := s.atomicAt o.asid o.atomicBits pa p.data
      let s := s.modPart o.id p.lane fun p => { p with data := old }
      performAtomics o pa rest (s.finishPart o.id p.lane 0#8)
    else performAtomics o pa rest s

/-- Does an earlier atomic of the group that must come first still wait: of one of these lanes to the same address, or both with ORD to the same home
slice (R208)? -/
def State.atomBefore (s : State) (o : Op) (pa : Nat) (lanes : List Nat) : Bool :=
  s.ops.any fun q => q.grp == o.grp && decide (q.seq < o.seq) && (match q.kind with
    | .atom _ _ _ _ _ => true
    | .cas _ _ _ _ => true
    | _ => false) && q.parts.any fun p => lanes.contains p.lane && p.fin.isNone && (match p.phys with
      | .home a => a == pa || (o.ordered && q.ordered && homeSlice a == homeSlice pa)
      | _ => false)

/-- The atomics of an issue at one address, when every one of them has left the queue. -/
def State.replyAtomic (s : State) (g : Group) (o : Op) (pa : Nat) : State :=
  let here := o.parts.filter fun p => p.phys == .home pa
  let lanes := here.map (·.lane)
  if here.any (fun p => !p.sent || p.fin.isSome) || s.atomBefore o pa lanes || lanes.any (s.acquireBefore o) then s
  else if s.lostIn pa 8 then s.opEnds o 0x31 (lanes.headD 0) ((here.map (·.size)).headD 4) ((here.map (·.va)).headD 0)
  else
    let s := performAtomics o pa here ((s.countHome g pa).dropExtent (clusterOf g.core) pa 8)
    if o.acquires then s.acquire g.core o.semScope else s

/-! ## Loads and stores that complete (R193, R196, R197, R203) -/

/-- A load from NORMAL memory of this device is performed; one of a lost line ends its task (R397). -/
def State.loadHome (s : State) (g : Group) (o : Op) (p : Part) (pa : Nat) : State :=
  let s1 := if o.acquires then s.acquire g.core o.semScope else s
  let fwd := (List.range p.size).map fun i => s.forwarded g o.seq (pa + i)
  if s.lostIn pa p.size then s.opEnds o 0x31 p.lane p.size p.va
  else
    let bs := fwd.zipIdx.map fun (b, i) => b.getD (s1.coreByte g.core o.asid (p.va + i) (pa + i))
    (((s1.countLoad g p.va pa).fillFor o.cp g.core o.asid p.va pa).modPart o.id p.lane fun q => { q with data := bs }).finishPart o.id p.lane 0#8

/-- A load from elsewhere. -/
def State.loadAway (s : State) (g : Group) (o : Op) (p : Part) : State :=
  let give := fun (s : State) (bs : Bytes) =>
    let s := if o.acquires then s.acquire g.core o.semScope else s
    (s.modPart o.id p.lane fun q => { q with data := bs }).finishPart o.id p.lane 0#8
  match p.phys with
  | .home pa => s.loadHome g o p pa
  | .window pa => give s (s.localBytes pa p.size)
  | .frame off => give s (s.getFrames g off p.size)
  | .zero => give s (List.replicate p.size 0#8)
  | .remote dev pa => if p.sent || !s.rtxRoom 1 then s else State.sentOr o p.lane (s.askRead dev pa p.size (.part o.id p.lane) o.asid o.grp)
  | .host pa =>
    if p.sent || !s.hostRoom then s
    else match s.apertureOf pa with
      | none =>
        give (s.noteFault o.launch g { cause := Config.apertureCause, lane := p.lane, op := 0x90, size := p.size, pc := o.pc.toNat, addr := p.va })
          (List.replicate p.size 0#8)
      | some base =>
        let rid := s.nextId
        let r : HostRead := { rid := rid, op := o.id, lane := p.lane, win := (pa - hostBase) / 2 ^ 32, pa := pa, len := p.size, at0 := s.timeNs }
        State.sentPart { s.bump with hostReads := s.hostReads ++ [r]
                                     hostOut := s.hostOut ++ [.apertureRead rid (base + (pa - hostBase) % 2 ^ 32) p.size] } o p.lane

/-- A load that may be performed: no earlier acquire or load of its lane holds it back, and no write of its group that it must see is out of sight. -/
def State.replyLoad (s : State) (g : Group) (o : Op) (p : Part) : State :=
  if !o.ready then s
  else match o.skipCause with
    | some c => s.finishPart o.id p.lane c
    | none =>
      let local_ := match p.phys with
        | .home _ => true
        | _ => false
      if s.acquireBefore o p.lane || (local_ && s.loadBefore o p.lane) || s.ownBlocked g o.seq p.phys p.size then s
      else s.loadAway g o p

/-- A store completes: a store to HBM is at its home once its cluster's line is written back (R186, R193). -/
def State.replyStore (s : State) (g : Group) (o : Op) (p : Part) : State :=
  if !p.sent then s
  else match p.phys with
    | .home pa => (s.writeBack (clusterOf g.core) pa).finishPart o.id p.lane 0#8
    | .remote _ _ => s
    | _ => s.finishPart o.id p.lane 0#8

/-! ## CFLUSH (R210) -/

/-- One 256-byte line of a span. -/
def flushLine (core : Nat) (opn : BitVec 2) (pa : Nat) (s : State) : State :=
  match opn.toNat with
  | 0 => { s with l1 := s.l1.filter fun l => !(l.core == core && l.pa / 256 == pa / 256) }
  | 1 => s.writeBack (clusterOf core) pa
  | _ => s.dropLine (clusterOf core) pa

/-- The lines of a span in memory of this device; elsewhere it does nothing. -/
def flushSpan (core : Nat) (opn : BitVec 2) (p : Phys) (n : Nat) (s : State) : State :=
  match p with
  | .home pa => (List.range (n / 256)).foldl (fun s i => flushLine core opn (pa + 256 * i) s) s
  | _ => s

/-- A `CFLUSH` completes. -/
def State.replyFlush (s : State) (g : Group) (o : Op) (p : Part) (opn : BitVec 2) : State :=
  if !p.sent then s
  else
    let s := flushSpan g.core opn p.phys p.size s
    let s := match p.tail with
      | some (q, n) => flushSpan g.core opn q n s
      | none => s
    s.finishPart o.id p.lane 0#8

/-! ## Versioned tiles (R211 to R213) -/

/-- Is a tile word valid (R211)? -/
def tileValid (w : Nat) : Bool := decide (1 ≤ tileChunks w ∧ tileChunks w ≤ 64) && bitsOf w 40 24 == 0
/-- Is its version odd? -/
def tileOdd (w : Nat) : Bool := bitOf w 0
/-- The tile word with its version raised. -/
def tileNext (w n : Nat) : Nat := w - bitsOf w 0 32 + (bitsOf w 0 32 + n) % 2 ^ 32

/-- The key under which the lines that a lane's `LDT` clears are absent. -/
def ldtKey (id lane : Nat) : Nat := 2 ^ 50 + id * 32 + lane

/-- The part of a tile operation ends, with cause 0 when its copy is accepted; the lines that it had cleared are present again. -/
def State.endTile (s : State) (o : Op) (p : Part) (c : BitVec 8) : State :=
  let kept := s.absent.filter fun (a : Nat × Nat × Nat) => a.2.2 != ldtKey o.id p.lane
  State.finishPart { s with absent := kept } o.id p.lane c

/-- A tile's data extent once its word is known, with its scratchpad lines (R192, R211): its pieces and the window address of its lines; nothing while a
page is held; or the state after the task has ended or the part has failed. -/
inductive TileExt where
  | ok (segs : List (Phys × Nat)) (spad : Nat)
  | wait (s : State)
  | halted (s : State)
  deriving Repr

/-- The pages of a tile's data extent that no tile may lie on, by their types: HOST, DEVICE and window pages and key-value pages (R211). -/
def State.tileMistyped (s : State) (asid va n : Nat) : Option Nat :=
  ((pageRuns va n).find? fun x => (s.xlate asid x.1 rightsRd).any fun t => t.kv || t.mt != 0 || (match s.target t x.1 with
    | .home _ => false
    | .remote _ _ => false
    | _ => true)).map (·.1)

/-- The checks of a tile's data extent (R192, R211): a failed memory type ends the task as a failed lease check does. -/
def State.tileExtent (s : State) (g : Group) (o : Op) (p : Part) (w : Nat) (write : Bool) : TileExt :=
  let off := fieldLe p.data 0 4
  let n := 512 * tileChunks w
  let (base, lines) := spadRun s g
  if !tileValid w then .halted (s.endTile o p 0x38#8)
  else if lines * 512 < off + n then .halted (s.opEnds o 3 p.lane 0 off)
  else match s.extent o.launch o.asid (if write then rightsRdWr else rightsRd) write (p.va + 64) n with
    | .stop c va => .halted (s.opEnds o c p.lane 0 va)
    | .hold page light => match s.tileMistyped o.asid (p.va + 64) n with
      | some va => .halted (s.opEnds o 1 p.lane 0 va)
      | none => .wait (s.holdFor o.asid page light write)
    | .closed => .halted (s.opEnds o 1 p.lane 0 (p.va + 64))
    | .ok segs => if let some va := s.tileMistyped o.asid (p.va + 64) n then .halted (s.opEnds o 1 p.lane 0 va)
      else if s.lostPieces segs then .halted (s.opEnds o 0x31 p.lane 0 p.va)
      else if !s.reaches ((p.phys, 64) :: segs) then .halted (s.endTile o p 0x61#8)
      else if !s.rtxRoom (n / 16 + 2) then .wait s
      else .ok segs (spadAddr g.core (base * 512 + off))

/-- Requests for remote pieces of a tile's data, 512 bytes a read. -/
def askPieces (o : Op) (lane : Nat) : Nat → List (Phys × Nat) → State → State
  | _, [], s => s
  | off, (.remote dev pa, n) :: rest, s =>
    let s := (List.range ((n + 511) / 512)).foldl (fun s i => (s.askRead dev (pa + 512 * i) (min 512 (n - 512 * i)) (.tile o.id lane (off + 512 * i)) o.asid o.grp).1) s
    askPieces o lane (off + n) rest s
  | off, (_, n) :: rest, s => askPieces o lane (off + n) rest s

/-- Stores for remote pieces of a tile's data, 16 bytes a store. -/
def pushPieces (o : Op) (lane : Nat) : Nat → List (Phys × Nat) → Bytes → State → State
  | _, [], _, s => s
  | off, (.remote dev pa, n) :: rest, bs, s =>
    let s := (List.range ((n + 15) / 16)).foldl (fun s i =>
      (s.askWrite dev (pa + 16 * i) (sliceBytes bs (16 * i) (min 16 (n - 16 * i))) (.tile o.id lane (off + 16 * i)) o.asid o.grp).1) s
    pushPieces o lane (off + n) rest (bs.drop n) s
  | off, (_, n) :: rest, bs, s => pushPieces o lane (off + n) rest (bs.drop n) s

/-- The tile word asked for at another device; without a path the part fails (R303). -/
def State.askWord (s : State) (o : Op) (p : Part) (dev pa : Nat) : State :=
  if !s.rtxRoom 1 then s
  else match s.askRead dev pa 8 (.tile o.id p.lane 0) o.asid o.grp with
    | (s, true) => s
    | (s, false) => s.endTile o p 0x61#8

/-- The near pieces of a tile copied into its scratchpad lines. -/
def tileIn (spad : Nat) : Nat → List (Phys × Nat) → State → State
  | _, [], s => s
  | off, (p, n) :: rest, s =>
    let s := if p.near then { s with mem := putBytes s.mem (spad + off) (s.readNear [(p, n)]) } else s
    tileIn spad (off + n) rest s

/-- Has a tile's part a request under way? -/
def State.tileBusy (s : State) (id lane : Nat) : Bool := s.rtx.any fun r => match r.owner with
  | .tile o l _ => o == id && l == lane
  | _ => false

/-- An `LDT` has its first word, valid and even: its lines are cleared and its data asked for (R213). -/
def State.ldtBegin (s : State) (g : Group) (o : Op) (p : Part) (w : Nat) : State :=
  match s.tileExtent g o p w false with
  | .halted s => s
  | .wait s => s
  | .ok segs _ =>
    let key := ldtKey o.id p.lane
    let (base, _) := spadRun s g
    let kept := s.absent.filter fun (a : Nat × Nat × Nat) => a.2.2 != key
    let s := { s with absent := kept ++ (linesOf base (fieldLe p.data 0 4) (512 * tileChunks w)).map fun l => (g.core, l, key) }
    askPieces o p.lane 64 segs (s.modPart o.id p.lane fun p => { p with tile := w, stage := 2 })

/-- An `LDT` sees its second word (R213): the copy is accepted, and its lines are present, when the word has not changed. -/
def State.ldtEnd (s : State) (g : Group) (o : Op) (p : Part) (w : Nat) : State :=
  if w = p.tile then
    (s.acquire g.core (max 5 (if o.acquires then o.semScope else 0))).endTile o p 0#8
  else s.modPart o.id p.lane fun p => { p with tile := w, stage := 3 }

/-- What an `LDT` does with its first word, by its version. -/
def State.ldtFirst (s : State) (g : Group) (o : Op) (p : Part) (w : Nat) : State :=
  if !tileValid w then s.endTile o p 0x38#8
  else if tileOdd w then s.modPart o.id p.lane fun p => { p with tile := w, stage := 1 }
  else s.ldtBegin g o p w

/-- A reply for an `LDT`: stage 0 reads the tile word; stage 2 moves the data and reads the word again. -/
def State.replyLdt (s : State) (g : Group) (o : Op) (p : Part) : State :=
  if !p.sent || s.acquireBefore o p.lane || s.tileBusy o.id p.lane then s
  else match p.phys, p.stage with
    | .home pa, 0 =>
      if s.lostIn pa 8 then s.opEnds o 0x31 p.lane 64 p.va
      else
        let s := s.dropExtent (clusterOf g.core) pa 64
        s.ldtFirst g o p (getLe s.mem pa 8)
    | .remote dev pa, 0 => s.askWord o p dev pa
    | _, 2 => match s.tileExtent g o p p.tile false with
      | .halted s => s
      | .wait s => s
      | .ok segs spad =>
        let s := segs.foldl (fun s x => match x.1 with
          | .home pa => s.dropExtent (clusterOf g.core) pa x.2
          | _ => s) s
        let s := tileIn spad 0 segs s
        match p.phys with
        | .remote dev pa => (s.askRead dev pa 8 (.tile o.id p.lane 0) o.asid o.grp).1
        | .home pa =>
          let s := s.dropExtent (clusterOf g.core) pa 64
          s.ldtEnd g o p (getLe s.mem pa 8)
        | _ => s
    | _, _ => s

/-- The tile word at its home, when that is here. -/
def Part.wordAt (p : Part) (s : State) : Option Nat := match p.phys with
  | .home pa => some (getLe s.mem pa 8)
  | _ => none

/-- Step `LDT_RETRY` (R213): an `LDT` that found the version odd goes on once the tile word has changed; one whose word changed under it reads again. -/
def execLdtRetry (id lane : Nat) (s : State) : Host.Outcome State Fault Refusal :=
  match s.op? id with
  | none => .next s
  | some o => match o.parts.find? fun p => p.lane == lane with
    | none => .next s
    | some p =>
      let again := s.modPart id lane fun p => { p with stage := 0 }
      match o.kind, p.stage with
      | .ldt _ _, 1 => .next (if p.wordAt s = some p.tile then s else again)
      | .ldt _ _, 3 => .next again
      | _, _ => .next s

/-- An `STT` finds an even tile word at the home, to which its cluster has written its copy back (R198), and makes it odd (R212): here its read and its
compare-and-swap are one step. -/
def State.sttTake (s : State) (g : Group) (o : Op) (p : Part) (w : Nat) : State :=
  if !tileValid w then s.endTile o p 0x38#8
  else if tileOdd w then s
  else match s.tileExtent g o p w true with
    | .halted s => s
    | .wait s => s
    | .ok _ _ =>
      let t := s.modPart o.id p.lane fun p => { p with tile := w, stage := 1 }
      match p.phys with
      | .home pa => t.homeWrite o.asid pa (natLe 8 (tileNext w 1))
      | .remote dev pa =>
        ((s.modPart o.id p.lane fun p => { p with tile := w, stage := 4 }).askAtomic dev pa 0x18 (natLe 8 w ++ natLe 8 (tileNext w 1)) (.tile o.id p.lane 0) o.asid
          o.grp).1
      | _ => s

/-- An `STT` that holds its tile odd writes its lines, once they are present (R212). -/
def State.sttWrite (s : State) (g : Group) (o : Op) (p : Part) : State :=
  let (base, _) := spadRun s g
  let n := 512 * tileChunks p.tile
  if !(absentOf s g.core (linesOf base (fieldLe p.data 0 4) n)).isEmpty then s
  else match s.tileExtent g o p p.tile true with
    | .halted s => s
    | .wait s => s
    | .ok segs spad =>
      let bs := getBytes s.mem spad n
      let near := segs.map fun x => if x.1.near then x else (Phys.zero, x.2)
      let s := s.writeNear (clusterOf g.core) o.asid near bs
      pushPieces o p.lane 64 segs bs (s.modPart o.id p.lane fun p => { p with stage := 2 })

/-- An `STT` whose data are at their homes makes the version even (R212). -/
def State.sttClose (s : State) (g : Group) (o : Op) (p : Part) : State :=
  match p.phys with
  | .home pa =>
    let s := ((s.dropExtent (clusterOf g.core) pa 64).homeWrite o.asid pa (natLe 8 (tileNext p.tile 2))).finishPart o.id p.lane 0#8
    if o.acquires then s.acquire g.core o.semScope else s
  | .remote dev pa => if !s.rtxRoom 1 then s else ((s.modPart o.id p.lane fun p => { p with stage := 3 }).askWrite dev pa (natLe 8 (tileNext p.tile 2)) (.tile o.id p.lane 0) o.asid o.grp).1
  | _ => s

/-- Step `STT_PROGRESS` (R212): a lane's `STT` goes on by one stage. -/
def execSttProgress (id lane : Nat) (s : State) : Host.Outcome State Fault Refusal :=
  match s.op? id with
  | none => .next s
  | some o => match o.kind, o.parts.find? (fun p => p.lane == lane), s.group? o.grp with
    | .stt _ _, some p, some g =>
      if !p.sent || p.fin.isSome || s.acquireBefore o lane || s.tileBusy id lane then .next s
      else match p.stage with
        | 0 => match p.phys with
          | .home pa => .next (if s.lostIn pa 8 then s.opEnds o 0x31 lane 64 p.va else
              let s := s.dropExtent (clusterOf g.core) pa 64
              s.sttTake g o p (getLe s.mem pa 8))
          | .remote dev pa => .next (s.askWord o p dev pa)
          | _ => .next s
        | 1 => .next (s.sttWrite g o p)
        | 2 => .next (s.sttClose g o p)
        | _ => .next s
    | _, _, _ => .next s

/-- One lane's access completes, or is performed at its home, when nothing that precedes it holds it back (R193). -/
def State.replyPart (s : State) (id lane : Nat) : State :=
  match s.op? id with
  | none => s
  | some o => match o.parts.find? (fun p => p.lane == lane && p.fin.isNone), s.group? o.grp with
    | some p, some g => match o.kind, p.phys with
      | .load _ _, _ => s.replyLoad g o p
      | .store _ _, _ => s.replyStore g o p
      | .atom _ _ _ _ _, .home pa => s.replyAtomic g o pa
      | .cas _ _ _ _, .home pa => s.replyAtomic g o pa
      | .cflush opn, _ => s.replyFlush g o p opn
      | .ldt _ _, _ => s.replyLdt g o p
      | _, _ => s
    | _, _ => s

/-- Step `MEMORY_REPLY` (R193): a reply finishes one lane's part of an operation and, with the last part, its token. -/
def execMemoryReply (id lane : Nat) (s : State) : Host.Outcome State Fault Refusal := .next (s.replyPart id lane)

end Sys2Proof.Machine
end

