-- ==== Sys2Proof/Machine/Chunk.lean ====
section
/-!
DEFINITION. Chunks: the copy engine's transforms (R165, R228), chunk-record streams (R233 to R235), and the runs of a
source sequence (R223).
-/
namespace Sys2Proof.Machine
open Sys2Proof

/-! ## The source sequence (R223, R228) -/

/-- Where the `r`-th run of a record starts, from its first byte's place. -/
def Shape.runAt (h : Shape) (src : Int) (r : Nat) : Int :=
  src + ((r % h.e1 : Nat) : Int) * h.ss1 + ((r / h.e1 % h.e2 : Nat) : Int) * h.ss2 + ((r / h.e1 / h.e2 : Nat) : Int) * h.ss3

/-- The pieces of a source sequence from an offset: place and length, in order; `fuel` bounds their number. -/
def Shape.pieces (h : Shape) (src : Int) : Nat → Nat → Nat → List (Int × Nat)
  | 0, _, _ => []
  | fuel + 1, lo, n =>
    if n = 0 then []
    else
      let k := min n (h.e0 - lo % h.e0)
      (h.runAt src (lo / h.e0) + (lo % h.e0 : Nat), k) :: h.pieces src fuel (lo + k) (n - k)

/-- Under TRANS, the place of each element of destination bytes from `lo` (R228). -/
def Shape.transPieces (h : Shape) (src : Int) (lo n : Nat) : List (Int × Nat) :=
  let w := fmtWidth h.fmt / 8
  let c := h.e0 / w
  (List.range (n / w)).map fun j =>
    let e := lo / w + j
    let q := e % (h.e1 * c)
    (h.runAt src (e / (h.e1 * c) * h.e1 + q % h.e1) + (q / h.e1 * w : Nat), w)

/-- The pieces of source that a chunk's destination bytes come from. -/
def Shape.chunkPieces (h : Shape) (src : Int) (lo n : Nat) : List (Int × Nat) :=
  if h.xf = 1 then h.transPieces src lo n
  else if h.xf = 2 then h.pieces src 128 (lo * 3 / 4) (n * 3 / 4)
  else h.pieces src 128 lo n

/-- The transform of a chunk's source bytes (R165, R228): EXP6 widens each element. -/
def Shape.transform (h : Shape) (bs : Bytes) : Bytes :=
  if h.xf = 2 then (elements bs 6 (bs.length * 8 / 6)).map fun x => BitVec.ofNat 8 (widenFp6 h.fmt x) else bs

/-! ## Chunk-record streams (R233 to R235) -/

/-- A ZRUN payload decoded (R234); none when it does not end at a control boundary. -/
def zrun : Nat → Bytes → Option Bytes
  | 0, _ => none
  | _ + 1, [] => some []
  | fuel + 1, c :: rest =>
    if c.toNat < 0x80 then
      if rest.length < c.toNat + 1 then none
      else (zrun fuel (rest.drop (c.toNat + 1))).map fun r => rest.take (c.toNat + 1) ++ r
    else (zrun fuel rest).map fun r => List.replicate (c.toNat - 0x7F) 0#8 ++ r

/-- A payload decoded to a 512-byte chunk (R234). -/
def decodePayload (codec : Nat) (p : Bytes) : Option Bytes :=
  let d := if codec = 0 then some p else zrun (p.length + 1) p
  d.bind fun x => if x.length = 512 then some x else none

/-- The chunks that a stream gives: index, reason (0 when written) and bytes; and the records skipped (R235). -/
def parseStream (n fmt : Nat) (ckv : Bool) : Nat → Bytes → List (Nat × Nat × Bytes) → Nat → List (Nat × Nat × Bytes) × Nat
  | 0, _, got, skip => (got, skip)
  | fuel + 1, bs, got, skip =>
    let plen := fieldLe bs 8 2
    let codec := fieldLe bs 2 1
    let idx := fieldLe bs 4 4
    if bs.length < 32 || fieldLe bs 0 2 != 0xC4A7 || decide (1 < codec) || fieldLe bs 3 1 != 0 || !zeroed bs 10 6 || plen == 0 || decide (1024 < plen) ||
        decide (bs.length < 32 + plen) then (got, skip)
    else
      let next := bs.drop ((32 + plen + 7) / 8 * 8)
      if n ≤ idx || got.any fun g => g.1 == idx then parseStream n fmt ckv fuel next got (skip + 1)
      else
        let g := match decodePayload codec (sliceBytes bs 32 plen) with
          | none => (idx, 1, [])
          | some d => if ckv && chunkCheck fmt d != (fieldLe bs 0x10 8, fieldLe bs 0x18 8) then (idx, 2, []) else (idx, 0, d)
        parseStream n fmt ckv fuel next (got ++ [g]) skip

end Sys2Proof.Machine
end

