-- ==== Sys2Proof/Machine/Transfer.lean ====
section
/-!
DEFINITION. The accesses of an engine command (R43, R53, R59, R62, R75, R77, R227): bytes fetched from memory here, from other devices and from the host;
bytes put there; chunks sent over the fabric with their checks (R307, R309); and the lists of bad chunks and errors (R236, R312, R313).
-/
namespace Sys2Proof.Machine
open Sys2Proof

/-- What an engine's access gives: its bytes; a wait, in a state that may have sent requests; the state after the task has ended; or a cause with which the
command will fail. -/
inductive Got where
  | ok (b : Bytes)
  | wait (s : State)
  | halted (s : State)
  | fail (c : BitVec 8)
  deriving Repr

/-- The command will end with a cause; the first one stands. -/
def State.failOp (s : State) (id : Nat) (c : BitVec 8) : State := s.modOp id fun o => if o.fail == 0#8 then { o with fail := c } else o

/-- Is an access outside the check of R53 because its window target is gone (R77)? -/
def State.windowGone (s : State) (asid va len : Nat) : Bool :=
  decide (windowVa ≤ va ∧ va < windowVa + 192 * 0x400000) && !s.windowLease asid va len

/-! ## Fetching -/

/-- The bytes of one store of an engine to another device: the most, up to 16, to which its extent is aligned (R192, R286). -/
def storeUnit (pa n : Nat) : Nat := ([16, 8, 4, 2].find? fun k => pa % k == 0 && n % k == 0).getD 1

/-- The bytes of one request for a piece of another device or the host: 512, or those of an aligned access where the whole would be misaligned (R192). -/
def readUnit (p : Phys) (n : Nat) : Nat := match p with
  | .remote _ pa => if accessAligned pa n then 512 else storeUnit pa n
  | _ => 512

/-- Pieces cut into requests where they lie away. -/
def cutPieces : List (Phys × Nat) → List (Phys × Nat)
  | [] => []
  | (p, n) :: rest =>
    let u := readUnit p n
    let at_ := fun (i : Nat) => match p with
      | .remote d pa => Phys.remote d (pa + u * i)
      | .host pa => .host (pa + u * i)
      | q => q
    (if p.near then [(p, n)] else (List.range ((n + u - 1) / u)).map fun i => (at_ i, min u (n - u * i))) ++ cutPieces rest

/-- A fetched piece that a command holds. -/
def Op.buf (o : Op) (key : Nat) : Option (Nat × Bytes) := (o.bufs.find? fun b => b.1 == key).map (·.2)

/-- A piece kept by a command under a key. -/
def State.putBuf (s : State) (id key tag : Nat) (bs : Bytes) : State :=
  s.modOp id fun o => { o with bufs := (key, tag, bs) :: o.bufs.filter fun b => b.1 != key }

/-- Pieces that a command no longer needs. -/
def State.dropBufs (s : State) (id lo n : Nat) : State := s.modOp id fun o => { o with bufs := o.bufs.filter fun b => decide (b.1 < lo ∨ lo + n ≤ b.1) }

/-- Is a piece's request under way? -/
def State.asked (s : State) (id key : Nat) : Bool :=
  (s.rtx.any fun r => r.owner == .chunk id key) || s.hostReads.any fun h => h.op == id && h.lane == key

/-- Has a command any request under way? -/
def State.opWaits (s : State) (id : Nat) : Bool :=
  (s.rtx.any fun r => match r.owner with
    | .chunk o _ => o == id
    | _ => false) || s.hostReads.any fun h => h.op == id

/-- The record of an engine command: a copy's stands in its gather. -/
def State.opRecord (s : State) (o : Op) : Bytes := match o.kind with
  | .copy g => ((s.gather? g).map (·.recd)).getD []
  | _ => o.recd

/-- Is a key one of a command's source sequence, whose pieces travel as checked chunks (R223, R307; log entry 63)? -/
def sourceKey (o : Op) (key : Nat) : Bool := match o.kind with
  | .copy _ => decide (key < 2 ^ 52) || key / 2 ^ 20 == 2 ^ 33
  | _ => key / 2 ^ 100 == 5

/-- The check format of a command's source: its format, or bytes for a stream of records (R307). -/
def sourceFmt (h : Shape) : Nat := if h.xf = 3 then 15 else h.fmt

/-- A source piece of another device asked for as a CHUNK with its check: by an RDREQ that has CHK set (R307; log entry 63). -/
def State.askSource (s : State) (o : Op) (dev pa n key : Nat) : State × Bool :=
  s.request { ty := 1#8, cf := 1#8, src := 0#16, dst := BitVec.ofNat 16 dev, addr := BitVec.ofNat 64 pa, len := BitVec.ofNat 16 n
              fmt := BitVec.ofNat 4 (sourceFmt (shapeOf (s.opRecord o))) } (.chunk o.id key) o.asid o.grp

/-- The tag of a source piece that came bad: its finder word, and above it the device that sent it; 0 for a good one. -/
def badTag (finder dev : Nat) : Nat := finder + dev * 2 ^ 32

/-- The tag of the first bad piece among the keys of a range. -/
def Op.tagIn (o : Op) (lo n : Nat) : Nat := ((o.bufs.filter fun b => decide (lo ≤ b.1 ∧ b.1 < lo + n) && b.2.1 != 0).map (·.2.1)).headD 0

/-- A piece asked for. A disabled window of the aperture reads zero and is recorded (R42). -/
def State.askPiece (s : State) (o : Op) (key : Nat) (p : Phys) (n : Nat) : State :=
  if s.asked o.id key then s
  else match p with
    | .remote dev pa =>
      if !s.rtxRoom 1 then s
      else match (if sourceKey o key then s.askSource o dev pa n key else s.askRead dev pa n (.chunk o.id key) o.asid o.grp) with
        | (s, true) => s
        | (s, false) => s.failOp o.id 0x61#8
    | .host pa => match s.apertureOf pa with
      | some base =>
        if !s.hostRoom then s else
        let rid := s.nextId
        let r : HostRead := { rid := rid, op := o.id, lane := key, win := (pa - hostBase) / 2 ^ 32, pa := pa, len := n, at0 := s.timeNs }
        { s.bump with hostReads := s.hostReads ++ [r], hostOut := s.hostOut ++ [.apertureRead rid (base + (pa - hostBase) % 2 ^ 32) n] }
      | none =>
        let s := match s.group? o.grp with
          | some g => s.noteFault o.launch g { cause := Config.apertureCause, op := o.kind.opcode, pc := o.pc.toNat, addr := pa }
          | none => s
        s.putBuf o.id key 0 (List.replicate n 0#8)
    | _ => s

/-- Pieces collected, near ones from their homes and the others from the command's buffers, or asked for. -/
def collect (s : State) (o : Op) : Nat → List (Phys × Nat) → Bytes → Option Bytes
  | _, [], acc => some acc
  | key, (p, n) :: rest, acc =>
    if p.near then collect s o (key + 1) rest (acc ++ s.readNear [(p, n)])
    else match o.buf key with
      | some (_, bs) => collect s o (key + 1) rest (acc ++ sliceBytes bs 0 n)
      | none => none

/-- Every missing piece asked for. -/
def askAll (o : Op) : Nat → List (Phys × Nat) → State → State
  | _, [], s => s
  | key, (p, n) :: rest, s => askAll o (key + 1) rest (if p.near || (o.buf key).isSome then s else s.askPiece o key p n)

/-- Has a command failed so that it goes no further? One whose window target is gone goes on to its end (R75, R77). -/
def Op.halted (o : Op) : Bool := o.fail != 0#8 && o.fail != 0x30#8

/-- Bytes fetched by a command from a virtual extent; pieces away are kept under keys from `key·2^20` on. A window target that is gone reads as zeros, and
the command will end with cause 0x30 (R75, R77). -/
def State.engineGet (s : State) (o : Op) (key va n : Nat) : Got :=
  if o.halted then .fail o.fail
  else if s.windowGone o.asid va n then match o.buf (key * 2 ^ 20) with
    | some (_, bs) => .ok (sliceBytes bs 0 n)
    | none => .wait ((s.failOp o.id 0x30#8).putBuf o.id (key * 2 ^ 20) 0 (List.replicate n 0#8))
  else match s.extent o.launch o.asid rightsRd false va n with
    | .stop c a => .halted (s.engineEnds o c a)
    | .hold page light => .wait (s.holdFor o.asid page light false)
    | .closed => .fail 0x50#8
    | .ok segs =>
      if s.lostPieces segs then .halted (s.engineEnds o 0x31 va)
      else
        let ps := cutPieces segs
        match collect s o (key * 2 ^ 20) ps [] with
        | some bs => .ok bs
        | none => .wait (askAll o (key * 2 ^ 20) ps s)

/-- Bytes fetched from several extents, one after another. -/
def State.engineGetAll (s : State) (o : Op) : Nat → List (Nat × Nat) → Got
  | _, [] => .ok []
  | key, (va, n) :: rest => match s.engineGet o key va n with
    | .ok bs => match s.engineGetAll o (key + 1) rest with
      | .ok more => .ok (bs ++ more)
      | r => r
    | r => r

/-! ## Putting -/

/-- A chunk sent to another device, with its check (R307, R309); a bad one carries the finder word (R311). -/
def State.sendChunk (s : State) (dev : Nat) (addr : Nat) (fmt : Nat) (bad : Option Nat) (red : Bool) (aux : Nat) (data : Bytes) (owner : ReqFor) (asid grp : Nat) :
    State × Bool :=
  let c := chunkCheck fmt data
  s.request { ty := 9#8, cf := BitVec.ofNat 8 (1 + (if bad.isSome then 2 else 0) + (if red then 4 else 0)), src := 0#16, dst := BitVec.ofNat 16 dev
              addr := BitVec.ofNat 64 addr, len := BitVec.ofNat 16 data.length, aux := BitVec.ofNat 16 aux, sqf := BitVec.ofNat 32 (bad.getD 0), data := data
              chkS := BitVec.ofNat 64 c.1, chkA := BitVec.ofNat 64 c.2, fmt := BitVec.ofNat 4 fmt } owner asid grp

/-- Pieces away written by a command, by aligned stores of at most 16 bytes, or as chunks. -/
def State.putAway (s : State) (o : Op) (key fmt : Nat) (chunk : Bool) : List (Phys × Nat) → Bytes → State
  | [], _ => s
  | (p, n) :: rest, bs =>
    let d := bs.take n
    let s := match p with
      | .remote dev pa =>
        if chunk then
          match s.sendChunk dev pa fmt none false 0 d (.chunk o.id key) o.asid o.grp with
          | (s, true) => s
          | (s, false) => s.failOp o.id 0x61#8
        else (List.range (n / storeUnit pa n)).foldl (fun s i =>
          match s.askWrite dev (pa + storeUnit pa n * i) (sliceBytes d (storeUnit pa n * i) (storeUnit pa n)) (.chunk o.id key) o.asid o.grp with
          | (s, true) => s
          | (s, false) => s.failOp o.id 0x61#8) s
      | .host pa => match s.apertureOf pa with
        | some base => { s with hostOut := s.hostOut ++ [HostOut.apertureWrite (base + (pa - hostBase) % 2 ^ 32) d] }
        | none => match s.group? o.grp with
          | some g => s.noteFault o.launch g { cause := Config.apertureCause, op := o.kind.opcode, pc := o.pc.toNat, addr := pa }
          | none => s
      | _ => s
    s.putAway o key fmt chunk rest (bs.drop n)

/-- The cluster of an operation's group. -/
def State.opCluster (s : State) (o : Op) : Nat := match s.group? o.grp with
  | some g => clusterOf g.core
  | none => 0

/-- What a put gives: the state after it; a wait; the state after the task has ended; or a cause of failure. -/
inductive Put where
  | ok (s : State)
  | wait (s : State)
  | halted (s : State)
  | fail (c : BitVec 8)
  deriving Repr

/-- The requests that a piece written away takes. -/
def putRequests (chunk : Bool) (p : Phys) (n : Nat) : Nat := match p with
  | .remote _ pa => if chunk then 1 else n / storeUnit pa n
  | _ => 0

/-- Bytes written by a command to a virtual extent. -/
def State.enginePut (s : State) (o : Op) (key va fmt : Nat) (chunk : Bool) (bs : Bytes) : Put :=
  if s.windowGone o.asid va bs.length then .fail 0x30#8
  else match s.extent o.launch o.asid rightsWr true va bs.length with
    | .stop c a => .halted (s.engineEnds o c a)
    | .hold page light => .wait (s.holdFor o.asid page light true)
    | .closed => .fail 0x50#8
    | .ok segs =>
      if s.lostPieces segs then .halted (s.engineEnds o 0x31 va)
      else if !s.reaches segs then .fail 0x61#8
      else if !s.rtxRoom ((segs.map fun x => putRequests chunk x.1 x.2).foldl (· + ·) 0) then .wait s
      else
        let near := segs.map fun x => if x.1.near then x else (Phys.zero, x.2)
        .ok ((s.writeNear (s.opCluster o) o.asid near bs).putAway o (key * 2 ^ 20) fmt chunk segs bs)

/-! ## Lists (R236, R313) -/

/-- A bad-chunk entry (R236). -/
def badEntry (xtag reason idx : Nat) : Bytes := natLe 4 idx ++ natLe 1 reason ++ natLe 1 0 ++ natLe 2 xtag

/-- Keys of a list's own accesses. -/
def listKey : Nat := 2 ^ 40

/-- Entries written at the positions after `c`, from the `i`-th on, those below CAP. An entry whose page is held waits, and is kept as the next to write under
a key (R59, R236). -/
def putEntries (o : Op) (list size cap c key : Nat) : Nat → List Bytes → State → Put
  | _, [], s => .ok s
  | i, e :: rest, s =>
    if c + i < cap then match s.enginePut o (listKey + 4) (list + 16 + size * (c + i)) 10 false e with
      | .ok s => putEntries o list size cap c key (i + 1) rest s
      | .wait s => .wait (s.putBuf o.id key i [])
      | r => r
    else putEntries o list size cap c key (i + 1) rest s

/-- A number added to a 32-bit field of a list at its home, as one atomic (R236). -/
def State.listAdd (s : State) (o : Op) (va k key : Nat) : Got :=
  match s.extent o.launch o.asid rightsRdWr true va 4 with
  | .stop c a => .halted (s.engineEnds o c a)
  | .hold page light => .wait (s.holdFor o.asid page light true)
  | .closed => .fail 0x50#8
  | .ok [(.home pa, _)] =>
    let old := getLe s.mem pa 4
    .wait (((s.dropExtent (s.opCluster o) pa 4).homeWrite o.asid pa (natLe 4 ((old + k) % 2 ^ 32))).putBuf o.id key 1 (natLe 4 old))
  | .ok [(.remote dev pa, _)] =>
    if s.asked o.id key || !s.rtxRoom 1 then .wait s
    else match s.askAtomic dev pa 0 (natLe 4 k) (.chunk o.id key) o.asid o.grp with
      | (s, true) => .wait s
      | (_, false) => .fail 0x61#8
  | _ => .fail 0x45#8

/-- A list updated for a command (R236): COUNT first, then the entries, then SKIP. Each call goes on from what has been done; `ok` when all is. -/
def State.listUpdate (s : State) (o : Op) (list size skip key : Nat) (es : List Bytes) : Got :=
  if list = 0 ∨ (es.isEmpty ∧ skip = 0) then .ok []
  else match (if es.isEmpty then some (0, natLe 4 0) else o.buf key) with
    | none => s.listAdd o list es.length key
    | some (_, c) =>
      if (o.buf (key + 1)).isNone then
        match s.engineGet o (key + 5) (list + 4) 4 with
        | .ok cap =>
          let done := ((o.buf (key + 3)).map (·.1)).getD 0
          match putEntries o list size (leNat cap) (leNat c) (key + 3) done (es.drop done) s with
          | .ok s => .wait (s.putBuf o.id (key + 1) 1 [])
          | .wait s => .wait s
          | .halted s => .halted s
          | .fail c => .fail c
        | r => r
      else if skip = 0 ∨ (o.buf (key + 2)).isSome then .ok []
      else s.listAdd o (list + 8) skip (key + 2)

/-- The header of a list, read under a key and checked as its command starts (R236): cause 0x45 when it is invalid. -/
def State.listHeader (s : State) (o : Op) (list size key : Nat) : Got :=
  if list = 0 then .ok []
  else match s.engineGet o key list 16 with
    | .ok h => match s.launch? o.launch with
      | some l => if fieldLe h 12 4 ≠ 0 then .fail 0x45#8
        else if s.leased l rightsRdWr list (16 + size * fieldLe h 4 4) then .ok h else .halted (s.engineEnds o 1 list)
      | none => .ok h
    | r => r

end Sys2Proof.Machine
end

