-- ==== Sys2Proof/Machine/CopyEvents.lean ====
section
/-!
DEFINITION. What a copy does once its command starts (R219, R220, R225 to R232, R235, R236): the checks at its start, the landing of each chunk, and its
finish. A copy's progress stands on the operation of its lowest-indexed slice.
-/
namespace Sys2Proof.Machine
open Sys2Proof

/-- The slice of a gather with the lowest index. -/
def Gather.lead (g : Gather) : Option Slice := g.slices.foldl (fun b x => match b with
  | none => some x
  | some y => if x.idx < y.idx then some x else some y) none

/-- Is a gather complete (R224)? -/
def Gather.complete (g : Gather) : Bool := g.slices.length == (shapeOf g.recd).slm1 + 1

/-- The operations of a gather's slices, lowest index first. -/
def State.sliceOps (s : State) (g : Gather) : List Op :=
  (List.range 32).filterMap fun i => (g.slices.find? fun x => x.idx == i).bind fun x => s.op? x.op

/-- The offsets of slice 0 (R225). -/
def Gather.doff (g : Gather) : Nat := (g.lead.map (·.doff)).getD 0
/-- SOFF of slice 0, two's complement. -/
def Gather.soff (g : Gather) : Int := sextNat ((g.lead.map (·.soff)).getD 0) 64

/-- Do the slices agree in their offsets and flags (R225)? -/
def Gather.agree (g : Gather) : Bool := match g.lead with
  | none => true
  | some a => g.slices.all fun x => x.dov == a.dov && x.sov == a.sov && x.doff == a.doff && x.soff == a.soff

/-- Operations leave the engine queue as their command starts (R218). -/
def State.leaveQueue (s : State) (asid : Nat) (ids : List Nat) : State :=
  s.modCtx asid fun c => { c with engq := c.engq.filter fun x => !ids.contains x }

/-- Operations marked as started. -/
def State.markStarted (s : State) (ids : List Nat) : State :=
  { s with ops := mapIf (fun o => ids.contains o.id) (fun o => { o with started := true }) s.ops }

/-- Are the stores that an acquire flag covers performed (R220)? -/
def State.acqReady (s : State) (o : Op) : Bool := !o.acq || s.storesDone o.grp o.seq (scopeOf o.scope.toNat)

/-- A command's acquire at its scope (R220): the stores that it covers go to their homes, where the engine reads, whatever the scope. -/
def State.acqFor (s : State) (o : Op) : State := if o.acq then s.writeBackAll (s.opCluster o) else s

/-- A command's release at its scope, once its last write has been performed (R220, R362). -/
def State.relFor (s : State) (o : Op) : State := if o.rel then s.release (s.opCluster o) (scopeOf o.scope.toNat) else s

/-- Acquires for several operations, one after another. -/
def acqAll : List Op → State → State
  | [], s => s
  | o :: os, s => acqAll os (s.acqFor o)

/-- Releases for several operations, one after another. -/
def relAll : List Op → State → State
  | [], s => s
  | o :: os, s => relAll os (s.relFor o)

/-- A complete gather starts, is skipped, or fails (R219, R225, R226). -/
def State.startCopy (s : State) (g : Gather) : State :=
  let os := s.sliceOps g
  let t := (s.team? g.team).getD { uid := 0, launch := 0, asid := 0, index := 0, core := 0 }
  if g.started || !g.complete || !(os.all fun o => o.ready) then s
  else match os.findSome? fun o => o.skipCause with
    | some c => s.endCopy g.id .poison c
    | none =>
      let bad := if !g.agree then 0x42 else match g.fail with
        | some c => c.toNat
        | none => copyCheck g.recd t g.doff g.soff
      if bad ≠ 0 then s.endCopy g.id .poison (BitVec.ofNat 8 bad)
      else if !(os.all fun o => s.acqReady o) then s
      else
        let ids := os.map (·.id)
        ((acqAll os s).leaveQueue t.asid ids |>.markStarted ids).modGather g.id fun g => { g with started := true }

/-! ## Before the first chunk (R229, R235, R236) -/

/-- The key of a copy's first source piece of a chunk; the expected check of a chunk; a decoded chunk; the stream. -/
def chunkKey (i : Nat) : Nat := i * 1024
/-- The key of a chunk's expected check. -/
def checkKey (i : Nat) : Nat := 2 ^ 32 + i
/-- The buffer of a decoded chunk of a stream. -/
def streamKey (i : Nat) : Nat := 2 ^ 64 + i

/-- Chunks of a parsed stream kept in the command's buffers, and its skipped records. -/
def keepStream (id : Nat) (r : List (Nat × Nat × Bytes) × Nat) (s : State) : State :=
  s.modOp id fun o => { o with bufs := r.1.map fun x => (streamKey x.1, x.2.1, x.2.2), skip := r.2 }

/-- What a copy reads before any chunk: its list's header, and under UNPACK its stream; its check extents are leased (R229, R235, R236). -/
def State.prepareCopy (s : State) (o : Op) (h : Shape) (g : Gather) : State :=
  let n := chunksOf h.dl
  match s.listHeader o h.badl 8 (listKey + 6) with
  | .wait s => s
  | .halted s => s
  | .fail c => s.failOp o.id c
  | .ok _ => match s.launch? o.launch with
    | none => s.failOp o.id 0x90#8
    | some l =>
      if h.ckv && h.xf != 3 && !s.leased l rightsRd h.ckin (16 * n) then s.engineEnds o 1 h.ckin
      else if h.ckg && !s.leased l rightsRdWr h.ckout (16 * n) then s.engineEnds o 1 h.ckout
      else if h.xf = 3 then
        match s.engineGet o (2 ^ 33) (h.srcAt g.soff).toNat h.e0 with
        | .wait s => s
        | .halted s => s
        | .fail c => s.failOp o.id c
        | .ok bs => (keepStream o.id (parseStream n h.fmt h.ckv (h.e0 / 32 + 1) bs [] 0) s).modOp o.id fun o => { o with stage := 1 }
      else s.modOp o.id fun o => { o with stage := 1 }

/-! ## A chunk (R227 to R230) -/

/-- A chunk's destination bytes before its check: from its stream, or from its source through the transform. The number is the reason it is bad, 0 for
none: a source chunk that came bad over the fabric makes it so (R313). -/
def State.chunkData (s : State) (o : Op) (h : Shape) (g : Gather) (core base i n : Nat) : Nat × Got :=
  if h.xf = 3 then match o.buf (streamKey i) with
    | some (r, bs) => (r, .ok bs)
    | none => (3, .ok [])
  else
    let ps := h.chunkPieces (h.srcAt g.soff) (512 * i) n
    if h.skind = 1 then (0, .ok (h.transform (ps.flatMap fun (a, k) => getBytes s.mem (spadAddr core (base * 512 + a.toNat)) k)))
    else match s.engineGetAll o (chunkKey i) (ps.map fun (a, k) => ((a % (2 ^ 64 : Nat)).toNat, k)) with
      | .ok bs => if o.tagIn (chunkKey i * 2 ^ 20) (2 ^ 30) = 0 then (0, .ok (h.transform bs)) else (0x10, .ok [])
      | r => (0, r)

/-- The chunk's check verified (R229): its expected check as read, or the reason that it is bad. -/
def State.verifyChunk (s : State) (o : Op) (h : Shape) (i : Nat) (bs : Bytes) : Except Got Nat :=
  if h.ckv && h.xf != 3 then match s.engineGet o (checkKey i) (h.ckin + 16 * i) 16 with
    | .ok want => .ok (if checkBytes (chunkCheck h.dfmt bs) == want then 0 else 2)
    | r => .error r
  else .ok 0

/-- Does a window destination translate to an on-chip window of this device (R227)? -/
def State.winTarget (s : State) (asid va n : Nat) : Bool :=
  !s.windowGone asid va n && (match s.xlate asid va rightsWr with
    | some t => (match s.target t va with
      | .window pa => decide (winBase ≤ pa ∧ pa < winEnd) && t.mt == 1
      | _ => false)
    | none => false)

/-- A chunk of a window destination put (R75, R227): one whose target is gone or is no window is dropped with cause 0x30, once its lease and translation
hold. -/
def State.putWindow (s : State) (o : Op) (key fmt va : Nat) (bs : Bytes) : Put :=
  if s.windowGone o.asid va bs.length then .fail 0x30#8
  else match s.extent o.launch o.asid rightsWr true va bs.length with
    | .stop c a => .halted (s.engineEnds o c a)
    | .hold page light => .wait (s.holdFor o.asid page light true)
    | _ => if s.winTarget o.asid va bs.length then s.enginePut o key va fmt true bs else .fail 0x30#8

/-- The chunk's bytes put at its destination. -/
def State.putChunk (s : State) (o : Op) (h : Shape) (t : Team) (dst i : Nat) (bs : Bytes) : Put :=
  match h.dkind with
  | 1 => .ok { s with mem := putBytes s.mem (spadAddr t.core (t.spBase * 512 + dst + 512 * i)) bs }
  | 2 => .ok { s with mem := putBytes s.mem (shareAddr t h.warr (dst + 512 * i)) bs }
  | 3 => s.putWindow o (chunkKey i) h.dfmt (dst + 512 * i) bs
  | _ => s.enginePut o (chunkKey i) (dst + 512 * i) h.dfmt true bs

/-- PROG of a slice's token after a landing: the bit of every chunk group that has landed whole (R230). -/
def progOf (n : Nat) (landed : List Nat) (old : DWord) : DWord :=
  let per := (n + 63) / 64
  (List.range 64).foldl (fun m g =>
    if (List.range (min per (n - g * per))).all fun j => landed.contains (g * per + j) then m ||| (1#64 <<< g) else m) old

/-- The tokens of a command's operations show its progress, where they are still bound to them; a command with no chunks shows none. -/
def putProg (n : Nat) (landed : List Nat) : List Op → State → State
  | [], s => s
  | o :: os, s =>
    let s := match s.group? o.grp with
      | some g => if o.bound && n != 0 then s.putToken o.grp o.kd { g.token o.kd with prog := progOf n landed (g.token o.kd).prog } else s
      | none => s
    putProg n landed os s

/-- The byte exports of operations count a landing (R347). -/
def countAll (n : Nat) (unit : Nat) : List Op → State → State
  | [], s => s
  | o :: os, s => countAll n unit os (countBytes n o.asid unit o.exprts s)

/-- A chunk has landed for operations that share one command: the leading one records it, presence returns, progress shows, bytes are counted (R201, R226,
R227, R230, R347, R416). -/
def State.chunkLanded (s : State) (o : Op) (os : List Op) (core : Nat) (line : Option Nat) (i n len reason : Nat) : State :=
  let ids := os.map (·.id)
  let landed := o.landed ++ [i]
  let s := s.modOp o.id fun o => { o with landed := landed, bad := if reason = 0 then o.bad else o.bad ++ [(i, reason)] }
  let s := match line with
    | some l => { s with absent := s.absent.filter fun (a : Nat × Nat × Nat) => !(a.1 == core && a.2.1 == l && ids.contains a.2.2) }
    | none => s
  let s := s.count core o.asid o.team 0x031 1
  let s := if reason = 0 then s else s.count core o.asid o.team 0x032 1
  countAll len (s.opUnit o) os (putProg n landed os s)

/-- A chunk that has been written lands with its generated check (R229); the check of a chunk replaced by zeros is that of zeros. -/
def State.landChecked (s : State) (o : Op) (os : List Op) (h : Shape) (t : Team) (dst i n reason : Nat) (check : Nat × Nat) : State :=
  let done := fun (s : State) => s.chunkLanded o os t.core (if h.dkind = 1 then some (t.spBase + (dst + 512 * i) / 512) else none) i o.nchunk n reason
  if h.ckg then match s.enginePut o (checkKey i) (h.ckout + 16 * i) 10 false (checkBytes (if reason = 0 then check else (0, 0))) with
    | .ok s => done s
    | .wait s => s
    | .halted s => s
    | .fail c => done (s.failOp o.id c)
  else done s

/-- Chunk `i` written to its destination, and landed when its bytes are there: at once here, on the answer of another device there. A chunk that is bad
is written as zeros; one that is dropped never lands (R230). -/
def State.landBytes (s : State) (o : Op) (os : List Op) (h : Shape) (t : Team) (dst i n reason : Nat) (bs : Bytes) : State :=
  let bs := if reason = 0 then bs else List.replicate n 0#8
  match s.putChunk o h t dst i bs with
  | .wait s => s
  | .halted s => s
  | .fail c => (s.failOp o.id c).modOp o.id fun o => if c == 0x30#8 then { o with dropped := o.dropped ++ [i] } else o
  | .ok s =>
    let c := chunkCheck h.dfmt bs
    let s := s.modOp o.id fun o => { o with got := o.got ++ [(i, reason, [n, c.1, c.2])] }
    if s.asked o.id (chunkKey i * 2 ^ 20) then s else s.landChecked o os h t dst i n reason c

/-- A chunk that was sent away and has been answered lands. -/
def State.landAway (s : State) (o : Op) (os : List Op) (h : Shape) (t : Team) (dst i reason : Nat) (xs : List Nat) : State :=
  if s.asked o.id (chunkKey i * 2 ^ 20) then s else s.landChecked o os h t dst i (xs.getD 0 512) reason (xs.getD 1 0, xs.getD 2 0)

/-- A chunk of a started copy (R227 to R229). -/
def State.landCopy (s : State) (g : Gather) (o : Op) (i : Nat) : State :=
  let h := shapeOf g.recd
  let t := (s.team? g.team).getD { uid := 0, launch := 0, asid := 0, index := 0, core := 0 }
  let n := min 512 (h.dl - 512 * i)
  if !g.started || o.halted || o.landed.contains i || o.dropped.contains i || decide (chunksOf h.dl ≤ i) then s
  else if o.stage = 0 then s.prepareCopy o h g
  else match o.got.find? fun x => x.1 == i with
  | some (_, reason, xs) => s.landAway o (s.sliceOps g) h t (h.dstAt g.doff) i reason xs
  | none => match s.chunkData o h g t.core t.spBase i n with
    | (_, .wait s) => s
    | (_, .halted s) => s
    | (_, .fail c) => s.failOp o.id c
    | (reason, .ok bs) =>
      if reason ≠ 0 then s.landBytes o (s.sliceOps g) h t (h.dstAt g.doff) i n reason []
      else match s.verifyChunk o h i bs with
        | .error (.wait s) => s
        | .error (.halted s) => s
        | .error (.fail c) => s.failOp o.id c
        | .error (.ok _) => s
        | .ok r => s.landBytes o (s.sliceOps g) h t (h.dstAt g.doff) i n r bs

/-! ## The finish (R220, R230, R236) -/

/-- Entries of a command's list, in ascending index. -/
def badEntries (xtag : Nat) (bad : List (Nat × Nat)) (n : Nat) : List Bytes :=
  if bad.isEmpty then [] else (List.range n).filterMap fun i => (bad.find? fun b => b.1 == i).map fun b => badEntry xtag b.2 i

/-- A copy finishes, or fails once its accesses have ended (R230, R231); one of whose chunks a window target was gone does so when it has come to its end
(R77). -/
def State.finishCopy (s : State) (g : Gather) (o : Op) : State :=
  let h := shapeOf g.recd
  if !g.started || s.opWaits o.id then s
  else if o.halted then s.endCopy g.id .poison o.fail
  else if o.landed.length + o.dropped.length < chunksOf h.dl then s
  else if o.fail != 0#8 then s.endCopy g.id .poison o.fail
  else match s.listUpdate o h.badl 8 o.skip (2 ^ 70) (badEntries h.xtag o.bad (chunksOf h.dl)) with
    | .wait s => s
    | .halted s => s
    | .fail c => s.endCopy g.id .poison c
    | .ok _ => (relAll (s.sliceOps g) s).endCopy g.id (if o.bad.isEmpty then .done else .doneBad) 0#8

/-- The gather and the leading operation of a copy. -/
def State.leadOf (s : State) (gid : Nat) : Option (Gather × Op) :=
  (s.gather? gid).bind fun g => g.lead.bind fun l => (s.op? l.op).map fun o => (g, o)

end Sys2Proof.Machine
end

