-- ==== Sys2Proof/Machine/SyncEvents.lean ====
section
/-!
DEFINITION. The steps of synchronisation: updates applied to a barrier at its home (R349 to R351), the report of an advance to the devices that watch it
(R352), the quiescence that a `DRAIN` waits for (R364, R365), and a waiter's further read of a remote barrier (R352).
-/
namespace Sys2Proof.Machine
open Sys2Proof

/-! ## One update (R350, R351) -/

/-- A flag bit of a barrier. -/
def Barrier.flag (b : Barrier) (i : Nat) : Bool := bitOf b.flags i

/-- A flag bit of a barrier written. -/
def Barrier.putFlag (b : Barrier) (i : Nat) (v : Bool) : Barrier :=
  { b with flags := b.flags - bitsOf b.flags i 1 * 2 ^ i + (if v then 2 ^ i else 0) }

/-- A barrier poisoned: the first cause stands (R340). -/
def Barrier.poisonWith (b : Barrier) (c : BitVec 8) : Barrier :=
  if b.pois then b else { b.putFlag 23 true with flags := (b.putFlag 23 true).flags % 2 ^ 24 + c.toNat * 2 ^ 24 }

/-- The barrier advances (R351). -/
def Barrier.advance (b : Barrier) : Barrier :=
  { (b.putFlag 22 (b.flag 21)).putFlag 21 false with phase := (b.phase + 1) % 2 ^ 32, pena := b.expa, penb := b.brld }

/-- One arrival update (R350): the barrier after, whether the arrivals exceeded PENA, and whether it advanced. -/
def Barrier.update (b : Barrier) (u : BUpdate) : Barrier × Bool × Bool :=
  let b := { b with penb := (((b.penb : Int) + u.byt) % (2 ^ 64 : Nat)).toNat }
  let b := match u.cause with
    | some c => b.poisonWith c
    | none => b
  let b := if u.bad then b.putFlag 21 true else b
  let excess := decide (b.pena < u.arr)
  let b := if excess then b.poisonWith 0x80#8 else b
  let b := { b with pena := b.pena - min u.arr b.pena }
  if b.pena = 0 ∧ b.penb = 0 then (b.advance, excess, true) else (b, excess, false)

/-- The other devices that watch a barrier learn of the phases they wait for, and their watches end (R352). -/
def tellWatchers (phase : Nat) : List (Nat × Nat × Word × Nat) → State → State
  | [], s => s
  | (dev, _, _, pa) :: rest, s => tellWatchers phase rest (s.sendMgmt dev 0x0A 0 (natLe 8 pa ++ natLe 4 phase ++ natLe 4 0))

/-- What an advance does beside the object (R39, R351, R352): the reports to watchers, and the host's message. -/
def State.advanced_ (s : State) (pa : Nat) (b : Barrier) : State :=
  let due := fun (w : Nat × Nat × Word × Nat) => w.2.1 == pa && phaseReached b.phase w.2.2.1.toNat
  let s := tellWatchers b.phase (s.watches.filter due) { s with watches := s.watches.filter fun w => !due w }
  if b.flag 20 then match s.ctx? b.nasid with
    | some c => s.msix c.vec
    | none => s
  else s

/-- The task of an update ends, for its barrier's line is lost (R397). -/
def State.updateEnds (s : State) (u : BUpdate) : State := match s.op? u.op with
  | some o => s.opEnds o 0x31 0 32 o.va
  | none => s.exportEnds u 0x31

/-- One update applied at the home of a barrier (R349, R350), to which the sending core's cluster first writes its copy back (R198). The result is the cause
with which an `ARV` finishes: 0, 0x80 or 0x81; 0x90 when a lost line ends its task. -/
def State.applyUpdate (s : State) (pa : Nat) (u : BUpdate) : State × BitVec 8 :=
  let s := if u.dev == s.devid && decide (u.unit < 192) then s.dropExtent (clusterOf u.unit) pa 32 else s
  let b := s.barrierAt pa
  if s.lostIn pa 32 then (s.updateEnds u, 0x90#8) else
  if !b.valid then (s.logEvent 0x0009 (if u.asid < 512 then u.asid else 0xFFFF) (natLe 8 (s.physOf pa) ++ natLe 8 0), 0x81#8)
  else
    let (b', excess, adv) := b.update u
    let s := s.homeWrite (if u.asid < 512 then u.asid else 0x200) pa b'.bytes
    (if adv then s.advanced_ pa b' else s, if excess then 0x80#8 else 0#8)

/-- An update applied, and the `ARV` that sent it finished. -/
def State.landUpdate (s : State) (pa : Nat) (u : BUpdate) : State :=
  let (s, c) := s.applyUpdate pa u
  if u.op = 0 then s else s.finishOp u.op (if c == 0#8 then .done else .poison) c

/-! ## Updates that land together (R350) -/

/-- Does an update come before another in a combined step: byte-only updates first, then by device and unit? -/
def BUpdate.before (a b : BUpdate) : Bool :=
  let only := fun (u : BUpdate) => u.arr == 0 && u.cause.isNone && !u.bad
  if only a != only b then only a
  else if a.dev != b.dev then decide (a.dev < b.dev)
  else decide (a.unit < b.unit)

/-- An update put in its place among others, after its equals. -/
def insertUpdate (u : BUpdate) : List BUpdate → List BUpdate
  | [] => [u]
  | x :: xs => if u.before x then u :: x :: xs else x :: insertUpdate u xs

/-- Updates in the order of the combined step; updates of one unit stay in the order in which it sent them. -/
def sortUpdates (us : List BUpdate) : List BUpdate := us.foldl (fun l u => insertUpdate u l) []

/-- Updates applied one after another. -/
def landUpdates (pa : Nat) : List BUpdate → State → State
  | [], s => s
  | u :: us, s => landUpdates pa us (s.landUpdate pa u)

/-- The updates to one barrier among the first of a queue, at most `n`, and the queue without them. -/
def takeUpdates (pa : Nat) : Nat → List BUpdate → List BUpdate × List BUpdate
  | _, [] => ([], [])
  | n, u :: us =>
    if n ≠ 0 ∧ u.va = 0 ∧ u.pa = pa then
      let (a, b) := takeUpdates pa (n - 1) us
      (u :: a, b)
    else
      let (a, b) := takeUpdates pa n us
      (a, u :: b)

/-- An update whose page migrated as it was sent, translated again (R349). -/
def State.resendUpdate (s : State) (u : BUpdate) : State :=
  let (s, c) := s.sendUpdate u.va { u with va := 0 } u.grp
  if c == 0#8 ∨ u.op = 0 then s else s.finishOp u.op .poison c

/-- Step `BARRIER_UPDATE` (R349 to R351): the first update of the queue and those to the same barrier that land with it, at most `n`, are applied at the
barrier's home as one combined step. -/
def execBarrierUpdate (n : Nat) (s : State) : Host.Outcome State Fault Refusal :=
  match s.updates with
  | [] => .next s
  | u :: us =>
    if u.va ≠ 0 then .next (State.resendUpdate { s with updates := us } u)
    else
      let (now, rest) := takeUpdates u.pa (max n 1) s.updates
      .next (landUpdates u.pa (sortUpdates now) { s with updates := rest })

/-! ## DRAIN (R364, R365) -/

/-- Has an answer of another device yet to come for a context? -/
def State.unanswered (s : State) (asid : Nat) : Bool := s.rtx.any fun r => r.asid == asid

/-- Step `QUIESCENCE_TIMER` (R364, R365): a `DRAIN` finishes when its context has been quiescent at its scope over an interval that begins after its issue.
TPOD is in microseconds (R291). -/
def execQuiescenceTimer (id : Nat) (s : State) : Host.Outcome State Fault Refusal :=
  match s.op? id with
  | none => .next s
  | some o => match o.kind with
    | .drain pod =>
      if !o.ready then .next s
      else match o.skipCause with
        | some c => .next (s.finishOp id .poison c)
        | none =>
          let ns := if pod then max 2000 (1000 * s.tpod) else 2000
          if s.quietFor o.asid ns && decide (o.issuedAt + ns ≤ s.timeNs) && !(pod && s.unanswered o.asid) then .next (s.finishOp id .done 0#8) else .next s
    | _ => .next s

/-! ## A remote barrier read again (R352) -/

/-- The remote barriers that a group's threads wait for without a read under way. -/
def State.watched (s : State) (g : Group) : List (Nat × Nat) :=
  g.threads.filterMap fun t => match t.st, t.wake with
    | .parked _, .watch dev pa _ => if (s.barRead g.uid (remoteKey dev pa)).isNone then some (dev, pa) else none
    | _, _ => none

/-- Step `WATCH_REREAD` (R352): a group that waits for a remote barrier reads it again, in case a report was lost. -/
def execWatchReread (u : Nat) (s : State) : Host.Outcome State Fault Refusal :=
  match s.group? u with
  | none => .next s
  | some g => match s.watched g with
    | (dev, pa) :: _ => if s.rtxRoom 1 then .next (s.askBarrier u g.asid dev pa) else .next s
    | [] => .next s

end Sys2Proof.Machine
end

