-- ==== Sys2Proof/Machine/Karic.lean ====
section
/-!
DEFINITION. What this device does with a Karic packet that arrives (R284 to R287, R292, R297, R302, R307 to R311): its format, its path, its check, the
grants that let it in, and the answer to it.
-/
namespace Sys2Proof.Machine
open Sys2Proof

/-! ## Format (R285, R286, R288, R306) -/

/-- Are the bytes of a management packet that R288 does not list zero, and is its subtype in the table? -/
def mgmtOk (p : Packet) : Bool :=
  let z := zeroed p.data
  p.data.length == [0, 40, 24, 8, 8, 64, 64, 16, 24, 16, 16].getD p.aux.toNat 0 && (match p.aux.toNat with
    | 1 => z 3 1 && z 6 2 && z 0x0E 2
    | 2 => z 7 1 && bitsOf (fieldLe p.data 6 1) 3 5 == 0
    | 3 => z 5 3
    | 4 => z 4 4
    | 5 => z 0x11 7
    | 6 => z 0x0F 1 && z 0x14 12
    | 7 => z 0x0A 6
    | 8 => z 0x0A 2 && z 0x14 4
    | 9 => z 0x0C 4
    | 10 => z 0x0C 4
    | _ => false)

/-- Does a FLAG keep R306? -/
def flagOk (p : Packet) : Bool :=
  let size := fieldLe p.data 9 1
  let aop := fieldLe p.data 10 2
  let n := p.data.length
  decide (32 ≤ n) && zeroed p.data 12 4 && zeroed p.data 0x16 2 && decide (fieldLe p.data 0x15 1 < 2) && (match fieldLe p.data 8 1 with
    | 1 => decide (1 ≤ size ∧ size ≤ 16) && aop == 0 && n == 32 + size
    | 2 => decide (aop < 32) && size == (if bitOf aop 3 then 8 else 4) && n == 32 + (if bitOf aop 4 then 2 * size else size)
    | 3 => size == 0 && aop == 0 && n == 32
    | 4 => size == 8 && aop == 0 && n == 40
    | _ => false)

/-- Are AUX and SQF of a packet's type free of reserved bits (R285)? -/
def tailOk (p : Packet) : Bool :=
  match p.ty.toNat with
  | 1 => p.aux == 0#16 && p.sqf == 0#32
  | 2 => p.aux == 0#16 && p.sqf == 0#32
  | 3 => p.sqf == 0#32
  | 9 => p.aux == 0#16
  | 10 => p.aux == 0#16
  | 11 => p.aux == 0#16 && flagOk p
  | 12 => p.sqf == 0#32 && mgmtOk p
  | _ => true

/-- A packet with an assigned type on its channel and no reserved bit set (R286). -/
def packetOk (p : Packet) : Bool :=
  decide (1 ≤ p.ty.toNat ∧ p.ty.toNat ≤ 12) && p.vc.toNat == vcOf p.ty.toNat && bitsOf p.rf.toNat 4 4 == 0 && bitsOf p.cf.toNat 3 5 == 0 &&
  bitsOf p.src.toNat 10 6 == 0 && (bitOf p.rf.toNat 3 || bitsOf p.dst.toNat 10 6 == 0) && bitsOf p.sasid.toNat 9 7 == 0 && tailOk p

/-! ## Its target (R292, R296) -/

/-- A packet for a multicast group. -/
def toGroup (p : Packet) : Bool := bitOf p.rf.toNat 3

/-- Does this device take a packet for itself: one whose target it is, or one for a group whose valid entry has LOCAL set (R292, R296)? -/
def State.takes (s : State) (p : Packet) : Bool :=
  if toGroup p then bitOf (s.mcastEntry p.dst.toNat) 63 && bitOf (s.mcastEntry p.dst.toNat) 32 else targetOf s p == s.devid

/-- A packet of a type for this device. -/
def forMe (s : State) (ty : Nat) (p : Packet) : Bool := p.ty.toNat == ty && s.takes p

/-- A management packet of a subtype for this device. -/
def mgmtFor (s : State) (sub : Nat) (p : Packet) : Bool := forMe s 12 p && p.aux.toNat == sub

/-- A packet one link further: HOPS counts the links after the first. -/
def hopped (p : Packet) : Packet := { p with rf := p.rf + 1#8 }

/-- A packet forwarded, or dropped when there is no path or it has taken four links (R292). -/
def State.forward (s : State) (p : Packet) : State :=
  let q := pastVia s p
  match minPort (s.routeEntry (targetOf s p)) with
  | some port => if bitsOf q.rf.toNat 0 2 = 3 then s.dropPacket p else s.emitOn port (hopped q)
  | none => s.dropPacket p

/-- A multicast packet copied to the ports of its group's entry (R296). -/
def State.forwardCopies (s : State) (p : Packet) : State :=
  let e := s.mcastEntry p.dst.toNat
  if !bitOf e 63 ∨ (bitsOf p.rf.toNat 0 2 = 3 ∧ bitsOf e 0 32 ≠ 0) then s.dropPacket p
  else ((List.range 32).filter fun i => bitOf e i).foldl (fun s i => s.emitOn i (hopped p)) s

/-- A multicast packet as its source injects it, on every port of its group's entry (R296). -/
def State.injectCopies (s : State) (p : Packet) : State :=
  let e := s.mcastEntry p.dst.toNat
  if !bitOf e 63 then s.dropPacket p
  else ((List.range 32).filter fun i => bitOf e i).foldl (fun s i => s.emitOn i p) s

/-! ## Its check at ingress (R307 to R311) -/

/-- The port of a number. -/
def State.port? (s : State) (i : Nat) : Port := (s.ports.find? fun p => p.idx == i).getD { idx := i }

/-- A port's record replaced. -/
def State.setPort (s : State) (p : Port) : State := { s with ports := p :: s.ports.filter fun x => x.idx != p.idx }

/-- A chunk as it has passed the ingress of a port: bad when its check does not hold (R309, R311). -/
def State.ingress (s : State) (port : Nat) (p : Packet) : State × Packet :=
  if port < 32 ∧ checkFails p then (s.countPacket p 0x105 1, markBad p (finder (s.port? port).nbr port (if bitOf p.cf.toNat 2 then 1 else 0) 1)) else (s, p)

/-- A step of one type of packet: the packet that has arrived is taken and its beats are counted (R416); one that is malformed is dropped (R286). A chunk is
verified at its ingress (R309), and a packet for a group goes on to the ports of its entry (R296). -/
def onPacket (s : State) (ok : Packet → Bool) (f : Packet → State → State) : Host.Outcome State Fault Refusal :=
  match s.arrived with
  | none => .next s
  | some (port, p) =>
    if ok p then
      let s := State.countPacket { s with arrived := none } p 0x101 (if port < 32 then beatsOf p else 0)
      if packetOk p then
        let (s, p) := s.ingress port p
        .next (f p (if toGroup p && decide (port < 32) then s.forwardCopies p else s))
      else .next (s.dropPacket p)
    else .next s

/-- The reason of a bad chunk's entry (R313): the reduction's own test; a bad input of the reduction; or its way over the fabric. -/
def badReason (red : Bool) (finder : Nat) : Nat := if bitsOf finder 24 8 = 3 then 0x11 else if red && bitsOf finder 16 8 = 0 then 0x12 else 0x10

/-- An error record (R312). -/
def errRecord (cid xtag orig chunk finder : Nat) : Bytes :=
  natLe 4 cid ++ natLe 2 xtag ++ natLe 2 orig ++ natLe 4 chunk ++ natLe 1 (bitsOf finder 16 8) ++ natLe 1 (bitsOf finder 24 8) ++ natLe 2 (bitsOf finder 0 16)

/-- An error record written into the event log (R313, R413). -/
def State.logError (s : State) (asid : Nat) (r : Bytes) : State := s.logEvent 0x0007 asid r

/-! ## Answers and the completion cache (R287, R302) -/

/-- RTO in nanoseconds (R302): TPOD is in microseconds. -/
def State.rto (s : State) : Nat := 2000 * s.tpod

/-- The answer to a request (R287). -/
def answerTo (s : State) (p : Packet) (ty aux : Nat) (data : Bytes) : Packet :=
  { ty := BitVec.ofNat 8 ty, src := BitVec.ofNat 16 s.devid, dst := p.src, txid := p.txid, addr := p.addr, len := BitVec.ofNat 16 data.length
    aux := BitVec.ofNat 16 aux, sqf := s.epoch, data := data }

/-- A request answered with no entry in the completion cache. -/
def State.answer (s : State) (p : Packet) (ty aux : Nat) (data : Bytes) : State := (s.send (answerTo s p ty aux data) none).1

/-- A request that has been performed is answered, and its answer kept (R302); answers kept for 5·RTO go. -/
def State.answerKept (s : State) (p : Packet) (ty aux : Nat) (data : Bytes) : State :=
  let kept := s.ccache.filter fun (c : Nat × Nat × Packet × Nat) => decide (s.timeNs ≤ c.2.2.2 + 5 * s.rto)
  State.answer { s with ccache := kept ++ [(p.src.toNat, p.txid.toNat, answerTo s p ty aux data, s.timeNs)] } p ty aux data

/-- The kept answer to a duplicate (R302): none is found once 5·RTO are over, so that none meets a transaction of a later run (R305). -/
def State.kept? (s : State) (p : Packet) : Option Packet :=
  (s.ccache.find? fun c => c.1 == p.src.toNat && c.2.1 == p.txid.toNat && !sourceAsk c.2.2.1 && decide (s.timeNs ≤ c.2.2.2 + 5 * s.rto)).map fun c => c.2.2.1

/-- Is a CHUNK a second answer to a source request that has ended, since a repeated RDREQ is performed again (R302; log entry 63)? -/
def State.lateSource (s : State) (p : Packet) : Bool :=
  s.ccache.any fun c => c.1 == p.src.toNat && c.2.1 == p.txid.toNat && sourceAsk c.2.2.1 && c.2.2.1.addr == p.addr && decide (s.timeNs ≤ c.2.2.2 + 5 * s.rto)

/-- A duplicate answered from the completion cache, and counted. -/
def State.answerAgain (s : State) (a : Packet) : State := ((s.send a none).1).count 0xFFFF 0x200 0 0x104 1

/-! ## Grants (R297) -/

/-- Do the grants in force for a device and ASID give a right over an extent? -/
def State.granted (s : State) (src sasid pa n : Nat) (r : Rights) : Bool :=
  (List.range n).all fun i => s.grants.any fun g => g.dev == src && g.sasid == sasid && decide (g.frame ≤ pa + i ∧ pa + i < g.frame + g.span) &&
    (!r.rd || g.rd) && (!r.wr || g.wr)

/-- A request that is denied or faults here: the NACK, and the record in the event log (R297, R303). -/
def State.logDenied (s : State) (p : Packet) (pa cause code : Nat) : State :=
  s.logEvent 0x000D 0xFFFF (natLe 2 p.src.toNat ++ natLe 2 p.sasid.toNat ++ natLe 8 pa ++ natLe 1 cause ++ natLe 1 code ++ natLe 2 0)

/-- What the destination finds of a request (R285, R297, R299, R302, R303): a duplicate; a wait for the end of a migration; a refusal, with its cause and
fault code; or leave to perform it. -/
inductive Entry where
  | again (a : Packet)
  | wait
  | refused (cause code : Nat)
  | ok
  deriving DecidableEq, Repr

/-- Is a page of this device in migration? -/
def State.inMigration (s : State) (pa : Nat) : Bool := s.migrating.any fun m => m.1 == pa / 65536 * 65536

/-- Is a byte in a key-value page whose page word is not OPEN (R266, R268)? -/
def State.sealedAt (s : State) (pa : Nat) : Bool :=
  let frame := pa / 65536 * 65536
  let pw := getLe s.mem (if bitOf (getLe s.mem (frame + 0x18) 8) 63 then pa / 32768 * 32768 else frame) 8
  pwValid pw && pwState pw != 0 && s.contexts.any fun c => (c.maps s fun e => bitOf e 11).any fun x => x.1 == frame

/-- A request's admission at its home. `aligned` says whether it keeps the alignment of its kind. -/
def State.entry (s : State) (p : Packet) (pa n : Nat) (r : Rights) (aligned : Bool) : Entry :=
  match s.kept? p with
  | some a => .again a
  | none =>
    if !s.granted p.src.toNat p.sasid.toNat pa n r then .refused 0x60 0
    else if s.inMigration pa || s.inMigration (pa + n - 1) then .wait
    else if !aligned then .refused 8 1
    else if r.wr && s.sealedAt pa then .refused 8 3
    else if s.lostIn pa n then .refused 8 5
    else .ok

/-- A request that waits for the end of a migration (R61). -/
def State.holdPacket (s : State) (p : Packet) : State := if s.waiting.contains (32, p) then s else { s with waiting := s.waiting ++ [(32, p)] }

/-- A request admitted and performed, or answered as its admission says. -/
def State.admitted (s : State) (p : Packet) (pa n : Nat) (r : Rights) (aligned : Bool) (f : State → State) : State :=
  match s.entry p pa n r aligned with
  | .again a => s.answerAgain a
  | .wait => s.holdPacket p
  | .refused c code => (s.logDenied p pa c code).answer p 8 (c + 256 * code) []
  | .ok => f s

/-- The device-local address of a packet. -/
def paOf (p : Packet) : Nat := bitsOf p.addr.toNat 0 46

end Sys2Proof.Machine
end

