-- ==== Sys2Proof/Machine/PageEvents.lean ====
section
/-!
DEFINITION. The steps of translation and of Ochre's page service: a walk returns (R56), a light fault is served (R59), a page migrates (R61, R63), and a
team is swapped out of a migration's way (R62).
-/
namespace Sys2Proof.Machine
open Sys2Proof

/-- The number of a core's die from a cluster. -/
def clusterDie (clu : Nat) : Nat := clu / 24

/-- What the second level gives a cluster's walk request: its own entry, else the page table's leaf (R56). -/
def State.secondLevel (s : State) (clu asid va : Nat) : Option Tlb :=
  match s.tlb? (slice2 (4 * clu) asid va) asid va with
  | some t => some t
  | none => match s.walk asid va with
    | .leaf t _ => some t
    | _ => none

/-- Step `TLB_WALK_RETURN` (R56): a cluster's requests for a page are answered; a leaf that gives one of them its rights fills the slice of the second level
and the cluster's TLB. A walk that ends in a fault fills nothing, and the access that asked ends its task when it looks again (R51). -/
def execTlbWalkReturn (clu asid va : Nat) (s : State) : Host.Outcome State Fault Refusal :=
  let mine := fun (r : Nat × Nat × Nat × Nat) => r.1 == clu && r.2.1 == asid && r.2.2.1 == va
  let needs := (s.walkReqs.filter mine).map fun r => r.2.2.2
  if needs.isEmpty then .next s
  else
    let s := { s with walkReqs := s.walkReqs.filter fun r => !mine r }
    match s.secondLevel clu asid va with
    | some t =>
      if needs.any fun n => t.gives (rightsOf n) && localMapped (t.addr va) then
        .next ((s.fillTlb { t with unit := slice2 (4 * clu) asid va }).fillTlb { t with unit := clu })
      else .next s
    | none => .next s

/-- A page-table entry rewritten at its home slice. -/
def State.putEntry (s : State) (place e : Nat) : State := s.homeWrite 0x200 place (natLe 8 e)

/-- A bit of an entry set. -/
def setEntryBit (e i : Nat) : Nat := if bitOf e i then e else e + 2 ^ i

/-- Step `LIGHT_FAULT_SERVICE` (R59): Ochre sets A, and for a store D, in the leaf of a page, shoots the old translation down and wakes every thread
parked on it; the requests for that page are merged. -/
def execLightFaultService (asid va : Nat) (s : State) : Host.Outcome State Fault Refusal :=
  let mine := s.lightReqs.filter fun r => r.1 == asid && r.2.1 == va
  if mine.isEmpty then .next s
  else
    let s := { s with lightReqs := s.lightReqs.filter fun r => !(r.1 == asid && r.2.1 == va) }
    match s.walk asid va with
    | .leaf t place =>
      if place = noEntry then .next s
      else
        let e := setEntryBit (getLe s.mem place 8) 6
        let e := if mine.any fun r => r.2.2 then setEntryBit e 7 else e
        .next ((s.putEntry place e).shoot asid t.va t.span)
    | _ => .next s

/-! ## Frames that are to be retired (R397) -/

/-- The pins on a frame of this device: those of its own launches, and those granted to others. -/
def State.pinCount (s : State) (frame : Nat) : Nat :=
  (s.launches.flatMap fun l => l.pins.filter fun p => p.dev == s.devid && decide (p.frame < frame + 65536 ∧ frame < p.frame + p.span)).length +
  (s.grants.filter fun g => decide (g.frame ≤ frame ∧ frame < g.frame + g.span)).length

/-- Frames that hold a lost line and are no longer pinned join the retired-frame list, which holds 65,536 (R397, R412). -/
def retireFrames : List Nat → State → State
  | [], s => s
  | f :: fs, s => retireFrames fs (if s.pinCount f = 0 then
      { s with toRetire := s.toRetire.filter fun x => x != f, retired := if s.retired.length < 65536 then s.retired ++ [f] else s.retired }
        |> fun t => if s.retired.length < 65536 then t else t.post 0x0082 0 0 0xFFFF (natLe 8 (s.devid * 2 ^ 46 + f) ++ natLe 2 1) else s)

/-! ## Migration (R61 to R63) -/

/-- Does anything in flight still name a frame of this device by its old translation: an access that has passed its checks, or a barrier update? -/
def State.frameBusy (s : State) (frame : Nat) : Bool :=
  let inside := fun (p : Phys) => match p with
    | .home pa => pa / 65536 * 65536 == frame
    | _ => false
  s.ops.any (fun o => o.parts.any fun p => p.fin.isNone && (inside p.phys || (p.tail.any fun t => inside t.1))) ||
  s.updates.any fun u => u.va == 0 && u.pa / 65536 * 65536 == frame

/-- A `dev` release on behalf of a context: every dirty line of every cluster goes home (R61, R362). -/
def State.releaseAll (s : State) : State := s.cc.foldl (fun s l => s.writeBack l.clu l.pa) s

/-- A `dev` acquire on behalf of a context: no cluster keeps a copy. -/
def State.acquireAll (s : State) : State := { s.releaseAll with cc := [], l1 := [] }

/-- A frame's address moved by a migration. -/
def movedTo (old new a : Nat) : Nat := if a / 65536 * 65536 = old then new + a % 65536 else a

/-- The marks of the lines of an extent moved with it: lost lines, and the owners of dirty lines (R395, R397). -/
def moveMarks (old new span : Nat) (s : State) : State :=
  let from_ := fun (a : Nat) => decide (old ≤ a ∧ a < old + span)
  (s.l2.filter fun l => from_ l.pa).foldl (fun s l => s.tagLine (new + (l.pa - old)) l.tag)
    { s with lost := s.lost ++ (s.lost.filter from_).map fun l => new + (l - old)
             l2 := s.l2.filter fun l => !decide (new ≤ l.pa ∧ l.pa < new + span) }

/-- A parked thread's wait for a barrier follows the barrier (R355). -/
def moveWake (old new : Nat) (t : Thread) : Thread := match t.wake with
  | .barrier pa phase => { t with wake := .barrier (movedTo old new pa) phase }
  | _ => t

/-- A request of another device that is held here follows its frame. -/
def movePacket (old new : Nat) (p : Packet) : Packet :=
  if bitsOf p.addr.toNat 0 46 / 65536 * 65536 = old then { p with addr := p.addr + BitVec.ofNat 64 new - BitVec.ofNat 64 old } else p

/-- The pieces of an extent once `n` bytes from `old` on have moved to `new`: what lies below them, what moved, and what lies above. -/
def movedPieces (old new n frame span : Nat) : List (Nat × Nat) :=
  let last := frame + span
  [(frame, min last old), (max frame old + new - old, min last (old + n) + new - old), (max frame (old + n), last)].filterMap fun x =>
    if x.1 < x.2 then some (x.1, x.2 - x.1) else none

/-- A pin of this device with its frame's bytes moved. -/
def Pin.moved (p : Pin) (dev old new n : Nat) : List Pin :=
  if p.dev == dev then (movedPieces old new n p.frame p.span).map fun x => { p with frame := x.1, span := x.2 } else [p]

/-- A grant with its frame's bytes moved. -/
def Grant.moved (g : Grant) (old new n : Nat) : List Grant := (movedPieces old new n g.frame g.span).map fun x => { g with frame := x.1, span := x.2 }

/-- A frame's pins, grants and seal-list entries follow it, and so do those that wait for a barrier in it (R54, R61, R272, R297, R352, R355, R363). -/
def moveHolds (s : State) (old new : Nat) : State :=
  { s with
    launches := s.launches.map fun l => { l with pins := l.pins.flatMap fun p => p.moved s.devid old new 65536 }
    groups := s.groups.map fun g => { g with threads := g.threads.map (moveWake old new) }
    watches := s.watches.map fun w => (w.1, movedTo old new w.2.1, w.2.2)
    heldAtoms := s.heldAtoms.map fun x => (x.1, movePacket old new x.2)
    grants := s.grants.flatMap fun g => g.moved old new 65536
    seals := s.seals.map fun x => { x with frame := movedTo old new x.frame } }

/-- Remote requests that waited for the end of a migration arrive again, at the new frame (R61). -/
def releaseWaiting (old new : Nat) (s : State) : State :=
  let here := fun (x : Nat × Packet) => bitsOf x.2.addr.toNat 0 46 / 65536 * 65536 == old
  { s with agenda := (s.waiting.filter here).map (fun x => .arrive x.1 (movePacket old new x.2)) ++ s.agenda
           waiting := s.waiting.filter fun x => !here x }

/-- The leaf of a page with MIG set or cleared, and another frame. -/
def migEntry (e : Nat) (mig : Bool) (frame : Nat) : Nat :=
  let e := e - bitsOf e 10 1 * 2 ^ 10 - bitsOf e 16 30 * 2 ^ 16
  e + (if mig then 2 ^ 10 else 0) + frame / 65536 * 2 ^ 16

/-- Steps 1 and 2 of R61. -/
def State.migBegin (s : State) (asid place old new : Nat) (t : Tlb) : State :=
  let s := s.releaseAll
  let s := (s.putEntry place (migEntry (getLe s.mem place 8) true old)).shoot asid t.va t.span
  { s with migrating := s.migrating ++ [(old, new)], cc := s.cc.filter fun l => l.pa / 65536 * 65536 != old
           l1 := s.l1.filter fun l => l.pa / 65536 * 65536 != old }

/-- Steps 3 to 5 of R61. -/
def State.migEnd (s : State) (asid place old new : Nat) (t : Tlb) : State :=
  let s := moveMarks old new 65536 { s with mem := copyRange s.mem old new 65536 }
  let s := (s.putEntry place (migEntry (getLe s.mem place 8) false new)).shoot asid t.va t.span
  let s := moveHolds s.acquireAll old new
  let s := releaseWaiting old new { s with migrating := s.migrating.filter fun m => m.1 != old }
  retireFrames s.toRetire s

/-- Is a key-value frame one that Ochre does not migrate: a page of it is being converted (R274), or it is paired, its two leaves naming one frame (log entry
157)? -/
def State.frameFixed (s : State) (t : Tlb) : Bool :=
  let frame := t.pa / 65536 * 65536
  let converting := fun (b : Nat) => pwValid (getLe s.mem b 8) && pwState (getLe s.mem b 8) == 2
  t.kv && (converting frame || converting (frame + 0x8000) || bitOf (getLe s.mem (frame + 0x18) 8) 63)

/-- Step `MIGRATION` (R61): Ochre moves the frame of a 64 KiB page of this device. The step occurs twice: first it sets MIG, so that every access of the page
waits; then it copies the frame and writes the leaf with the new one. -/
def execMigration (asid va frame : Nat) (s : State) : Host.Outcome State Fault Refusal :=
  match s.walk asid va with
  | .leaf t place =>
    let old := bitsOf (getLe s.mem place 8) 16 30 * 65536
    if place = noEntry ∨ t.span ≠ 65536 ∨ t.dev ≠ s.devid ∨ t.mt ≠ 0 ∨ frame % 65536 ≠ 0 ∨ hbmEnd ≤ frame ∨ frame = old then .next s
    else if t.mig then
      if s.migrating.contains (old, frame) then .next (s.migEnd asid place old frame t) else .next s
    else if s.frameBusy old ∨ s.frameFixed t ∨ (s.migrating.any fun m => m.1 = old ∨ m.2 / 65536 * 65536 = frame ∨ m.2 / 65536 * 65536 = old) then .next s
    else .next (s.migBegin asid place old frame t)
  | _ => .next s

/-- A thread that a forced full save stops at once: outside its handler, parked for anything but its settle, or waiting at `RCV` (R384). One whose trap was
taken as it stood stopped goes on to its handler first; one that waits at its `SYSRD` with its own segment closed has settled, and re-issues it (R160). -/
def freezeThread (t : Thread) : Thread :=
  let still := match t.st with
    | .parked .settle => false
    | .parked _ => !t.hnd && t.trap.all fun r => r.hold.isNone
    | .rcvWait => true
    | _ => false
  if t.st == .parked .settle && t.pend.isEmpty then { t with st := .runnable, wake := .none, stopped := t.stopped.or (some 0xFFFFFFFF) }
  else if still && t.stopped.isNone then { t with stopped := some 0xFFFFFFFF } else t

/-- A group put into the forced full save. -/
def Group.freeze (g : Group) : Group := { g with full := true, threads := g.threads.map freezeThread }

/-- The frame of the migrating page that a thread waits for. -/
def State.movingFrame (s : State) : Wake → List Nat
  | .mig asid va => match s.walk asid va with
    | .leaf _ place => [bitsOf (getLe s.mem place 8) 16 30 * 65536]
    | _ => []
  | _ => []

/-- Step `MIGRATION_SWAP_OUT` (R62): a team with a thread that has been parked on a migrating page for 50 µs is ordered to stop under the forced full save;
it is placed again once the migration has ended. The control team never is swapped out. -/
def execMigrationSwapOut (team : Nat) (s : State) : Host.Outcome State Fault Refusal :=
  match s.team? team with
  | none => .next s
  | some t =>
    let late := (s.groups.filter fun g => g.team == team).flatMap fun g => g.threads.filter fun th =>
      th.st == .parked .migration && decide (th.parkedAt + 50000 ≤ s.timeNs)
    let ctrl := (s.launch? t.launch).any fun l => l.isCtrl
    if t.phase == .resident && t.stop.isNone && !late.isEmpty && !ctrl then
      let o : StopOrder := { kind := .swapped, cycle := (s.die (dieOf t.core)).cycles, ns := s.timeNs, full := true }
      .next { s.modTeam team (fun t => { t with stop := some o, away := late.flatMap fun th => s.movingFrame th.wake }) with groups := mapIf (fun g => g.team == team) Group.freeze s.groups }
    else .next s

end Sys2Proof.Machine
end

