-- ==== Sys2Proof/Machine/LaunchEvents.lean ====
section
/-!
DEFINITION. How work is launched (R15 to R34, R54, R55, R64, R240): a `LAUNCH` command starts, its record and image are read and validated, pages are made
resident and pinned, preconditions are awaited, and the launch is admitted, rejected or failed.
-/
namespace Sys2Proof.Machine
open Sys2Proof

/-! ## The pending-launch tables (R64) -/

/-- Does a launch hold an entry of a pending-launch table? A control team holds none. -/
def Launch.inTable (l : Launch) : Bool :=
  !l.isCtrl && (l.phase == .reading || l.phase == .waiting || l.phase == .leasing || l.phase == .ready)

/-- The table that a launch from a die enters: that die's own, else the other's, else none (R64). -/
def State.tableFor (s : State) (die : Nat) : Option Nat :=
  let used := fun d => (s.launches.filter fun l => l.inTable && l.die == d).length
  if used die < 2048 then some die else if used (1 - die) < 2048 then some (1 - die) else none

/-- The launch removed, with nothing left of it. -/
def State.dropLaunch (s : State) (l : Nat) : State := { s with launches := s.launches.filter fun x => x.uid != l }

/-- The scope at which the stores before a `LAUNCH` are performed: `dev`, or `pod` where its record lies on another device, so that its read sees them
(R30, R240). -/
def State.launchScope (s : State) (o : Op) : Nat :=
  let away := match (s.xlate o.asid o.va rightsRd).map fun t => s.target t o.va with
    | some (.remote _ _) => true
    | _ => false
  if away then 6 else max 5 (scopeOf o.scope.toNat)

/-- A ready `LAUNCH` command starts (R219, R240): the issuing group's earlier stores are performed, and its record may be read. It enters the table of the
die that it was issued on, or the other (R64). -/
def State.startLaunch (s : State) (o : Op) (l : Nat) : State :=
  match s.tableFor (((s.launch? l).map (·.die)).getD 0) with
  | none => s
  | some d =>
    if !s.storesDone o.grp o.seq (s.launchScope o) then s
    else
      let s := s.release (s.opCluster o) 5
      ((s.leaveQueue o.asid [o.id]).markStarted [o.id]).modLaunch l fun y => { y with phase := .reading, die := d }

/-! ## Validation from the record alone (R24 to R28) -/

/-- The 8 bytes of a range entry (R27). -/
def rangeOf (e : Nat) : Range :=
  { rd := bitOf e 61, wr := bitOf e 62, ex := bitOf e 63, lo := bitsOf e 0 41 * 65536, hi := (bitsOf e 0 41 + bitsOf e 41 20 + 1) * 65536 }

/-- The used preconditions of a record (R26). -/
def recordPres (bs : Bytes) : List Precond :=
  (List.range (min 4 (fieldLe bs 3 1))).map fun i =>
    { bar := fieldLe bs (0x40 + 16 * i) 8, phase := BitVec.ofNat 32 (fieldLe bs (0x48 + 16 * i) 4), pass := bitOf (fieldLe bs (0x4C + 16 * i) 4) 0 }

/-- The used range entries of a record. -/
def recordRanges (bs : Bytes) : List Nat := (List.range (min 16 (fieldLe bs 4 1))).map fun i => fieldLe bs (0x80 + 8 * i) 8

/-- Is a range entry valid (R28)? -/
def rangeOk (e : Nat) : Bool := bitsOf e 61 3 != 0 && decide ((rangeOf e).hi ≤ 2 ^ 57)

/-- The first cause of 0x20 to 0x25 that applies to a record, 0 for none (R28). -/
def recordCause (bs : Bytes) : Nat :=
  let bars := (recordPres bs).map (·.bar)
  if fieldLe bs 1 1 ≠ 1 ∨ fieldLe bs 0 1 ≠ 0 then 0x20
  else if !zeroed bs 5 3 || !zeroed bs 0x38 8 || (List.range (min 4 (fieldLe bs 3 1))).any fun i => fieldLe bs (0x4C + 16 * i) 4 / 2 != 0 then 0x21
  else if 7 < fieldLe bs 2 1 ∨ 4 < fieldLe bs 3 1 ∨ 16 < fieldLe bs 4 1 then 0x22
  else if fieldLe bs 8 8 % 256 ≠ 0 || fieldLe bs 0x28 8 % 32 ≠ 0 || bars.any fun b => b % 32 != 0 then 0x23
  else if (recordRanges bs).any fun e => !rangeOk e then 0x24
  else if 2 ^ 24 < fieldLe bs 0x10 4 * fieldLe bs 0x14 4 * fieldLe bs 0x18 4 then 0x25
  else 0

/-! ## Validation of the image (R15 to R22, R28) -/

/-- The sections of an image: offset and length, those that are not empty. -/
def imageSections (h : Bytes) : List (Nat × Nat) :=
  ([(0, 64), (fieldLe h 0x10 4, fieldLe h 0x14 4), (fieldLe h 0x24 4, 16 * fieldLe h 6 1), (fieldLe h 0x28 4, 8 * fieldLe h 7 1),
    (fieldLe h 0x2C 4, 72 * fieldLe h 8 1), (fieldLe h 0x1C 4, 48 * fieldLe h 0x20 4)] : List (Nat × Nat)).filter fun x => x.2 != 0

/-- Do no two of a list of extents overlap? -/
def apart : List (Nat × Nat) → Bool
  | [] => true
  | (a, n) :: rest => (rest.all fun x => decide (a + n ≤ x.1 ∨ x.1 + x.2 ≤ a)) && apart rest

/-- The bytes of the image that its sections reach. -/
def imageEnd (h : Bytes) : Nat := (imageSections h).foldl (fun m x => max m (x.1 + x.2)) 64

/-- Is the header accepted: cause 0x26 of R28? -/
def headerOk (h : Bytes) : Bool :=
  fieldLe h 0 4 == 0x4C4E4C53 && fieldLe h 4 2 == 0x0100 && decide (1 ≤ fieldLe h 6 1 ∧ fieldLe h 6 1 ≤ 4) && decide (fieldLe h 7 1 ≤ 8) &&
  decide (fieldLe h 8 1 ≤ 16) && decide (fieldLe h 9 1 ≤ 32) && decide (fieldLe h 0xA 2 ≤ 128) && fieldLe h 0xC 4 % 512 == 0 &&
  decide (fieldLe h 0xC 4 ≤ 0x100000) && fieldLe h 0x10 4 % 64 == 0 && fieldLe h 0x14 4 % 4 == 0 && decide (4 ≤ fieldLe h 0x14 4) &&
  (fieldLe h 0x20 4 == 0 || fieldLe h 0x1C 4 % 16 == 0) && decide (fieldLe h 0x20 4 ≤ 65536) && fieldLe h 0x24 4 % 16 == 0 &&
  (fieldLe h 7 1 == 0 || fieldLe h 0x28 4 % 8 == 0) && (fieldLe h 8 1 == 0 || fieldLe h 0x2C 4 % 8 == 0) && zeroed h 0x34 12 &&
  decide (imageEnd h ≤ fieldLe h 0x30 4) && apart (imageSections h)

/-- An entry of the role table's queue fields (R16). -/
def queueField (b : Nat) : Option Nat := if bitOf b 7 then some (b % 8) else none

/-- The declared queues of an image (R19). -/
def imageQueues (img : Bytes) : List StreamQ :=
  (List.range (fieldLe img 7 1)).map fun i =>
    let at_ := fieldLe img 0x28 4 + 8 * i
    { idx := fieldLe img at_ 1, slotl := fieldLe img (at_ + 2) 2, basel := fieldLe img (at_ + 4) 2
      slots := List.replicate (fieldLe img (at_ + 1) 1) (.empty, 0#32) }

/-- The roles of an image with the overrides of ROLEG (R16, R24). -/
def imageRoles (img : Bytes) (roleg : Nat) : List Role :=
  (List.range (fieldLe img 6 1)).map fun i =>
    let at_ := fieldLe img 0x24 4 + 16 * i
    let named := bitsOf roleg (8 * i) 8
    { entry := fieldLe img at_ 4, groups := if named = 0 then fieldLe img (at_ + 4) 1 else named, vbud := fieldLe img (at_ + 5) 1
      inq := queueField (fieldLe img (at_ + 6) 1), outq := queueField (fieldLe img (at_ + 7) 1) }

/-- Has a list no element twice? -/
def distinct : List Nat → Bool
  | [] => true
  | x :: xs => !xs.contains x && distinct xs

/-- Is the role table valid: cause 0x28 (R16, R17)? -/
def rolesOk (img : Bytes) : Bool :=
  let codeLen := fieldLe img 0x14 4
  let decl := (imageQueues img).map (·.idx)
  let roles := imageRoles img 0
  let each := (List.range (fieldLe img 6 1)).all fun i =>
    let at_ := fieldLe img 0x24 4 + 16 * i
    fieldLe img at_ 4 % 4 == 0 && decide (fieldLe img at_ 4 < codeLen) && decide (1 ≤ fieldLe img (at_ + 4) 1 ∧ fieldLe img (at_ + 4) 1 ≤ 32) &&
    decide (1 ≤ fieldLe img (at_ + 5) 1 ∧ fieldLe img (at_ + 5) 1 ≤ 16) && bitsOf (fieldLe img (at_ + 6) 1) 3 4 == 0 &&
    bitsOf (fieldLe img (at_ + 7) 1) 3 4 == 0 && zeroed img (at_ + 8) 8
  let ins := roles.filterMap (·.inq)
  let outs := roles.filterMap (·.outq)
  each && (ins ++ outs).all (fun q => decl.contains q) && distinct ins && distinct outs

/-- Are the overrides valid: cause 0x29? -/
def rolegOk (img : Bytes) (roleg : Nat) : Bool :=
  ((List.range 4).all fun i => decide (bitsOf roleg (8 * i) 8 ≤ 32) && (decide (i < fieldLe img 6 1) || bitsOf roleg (8 * i) 8 == 0)) &&
  decide (((imageRoles img roleg).map (·.groups)).foldl (· + ·) 0 ≤ 32)

/-- Are the queue declarations valid: cause 0x2A (R19)? -/
def queuesOk (img : Bytes) : Bool :=
  let qs := imageQueues img
  let rings := qs.map fun q => (q.basel, q.slots.length * q.slotl)
  qs.all (fun q => decide (q.idx ≤ 7 ∧ 2 ≤ q.slots.length ∧ q.slots.length ≤ 16 ∧ 1 ≤ q.slotl ∧ q.basel + q.slots.length * q.slotl ≤ fieldLe img 0xC 4 / 512)) &&
  ((List.range (fieldLe img 7 1)).all fun i => zeroed img (fieldLe img 0x28 4 + 8 * i + 6) 2) && distinct (qs.map (·.idx)) && apart rings

/-- The pattern-table images (R20). -/
def imagePats (img : Bytes) : List (Nat × Bytes) :=
  (List.range (fieldLe img 8 1)).map fun i => (fieldLe img (fieldLe img 0x2C 4 + 72 * i) 1, sliceBytes img (fieldLe img 0x2C 4 + 72 * i + 8) 64)

/-- Are the pattern-table images valid: cause 0x2B (R20, R182)? -/
def patsOk (img : Bytes) : Bool :=
  let ps := imagePats img
  ps.all (fun p => decide (p.1 ≤ 15) && (List.range 32).all fun j => bitsOf (fieldLe p.2 (2 * j) 2) 13 2 == 0) &&
  ((List.range (fieldLe img 8 1)).all fun i => zeroed img (fieldLe img 0x2C 4 + 72 * i + 1) 7) && distinct (ps.map (·.1))

/-- The pre-emption entries (R22). -/
def imagePe (img : Bytes) : List PeEntry :=
  (List.range (fieldLe img 0x20 4)).map fun i =>
    let at_ := fieldLe img 0x1C 4 + 48 * i
    { pcoff := fieldLe img at_ 4, vlive := fieldLe img (at_ + 4) 16, slive := fieldLe img (at_ + 0x14) 24, plive := fieldLe img (at_ + 0x2C) 1
      qlive := fieldLe img (at_ + 0x2D) 1 % 16, acc := bitOf (fieldLe img (at_ + 0x2D) 1) 4, klive := fieldLe img (at_ + 0x2E) 2 }

/-- Do offsets rise strictly? -/
def rising : List Nat → Bool
  | a :: b :: rest => decide (a < b) && rising (b :: rest)
  | _ => true

/-- Is the pre-emption table valid: cause 0x2C (R22)? -/
def peOk (img : Bytes) : Bool :=
  let pe := imagePe img
  rising (pe.map (·.pcoff)) &&
  ((List.range (fieldLe img 0x20 4)).all fun i => bitsOf (fieldLe img (fieldLe img 0x1C 4 + 48 * i + 0x2D) 1) 5 3 == 0) &&
  pe.all fun e => e.pcoff % 4 == 0 && decide (e.pcoff < fieldLe img 0x14 4) && bitOf (fieldLe img (fieldLe img 0x10 4 + e.pcoff) 4) 31

/-- The first cause of 0x28 to 0x2D that applies to an image, 0 for none. -/
def imageCause (img : Bytes) (roleg : Nat) : Nat :=
  let trap := fieldLe img 0x18 4
  if !rolesOk img then 0x28
  else if !rolegOk img roleg then 0x29
  else if !queuesOk img then 0x2A
  else if !patsOk img then 0x2B
  else if !peOk img then 0x2C
  else if trap ≠ 0xFFFFFFFF ∧ (trap % 4 ≠ 0 ∨ fieldLe img 0x14 4 ≤ trap) then 0x2D
  else 0

/-- The image as the launch uses it. -/
def imageOf (va : Nat) (img : Bytes) (roleg : Nat) : Image :=
  { va := va, codeOff := fieldLe img 0x10 4, codeLen := fieldLe img 0x14 4
    trap := if fieldLe img 0x18 4 = 0xFFFFFFFF then none else some (fieldLe img 0x18 4), spad := fieldLe img 0xC 4, acct := fieldLe img 9 1
    wbk := fieldLe img 0xA 2, size := fieldLe img 0x30 4, roles := imageRoles img roleg, queues := imageQueues img, pats := imagePats img
    pe := imagePe img }

/-! ## Pins (R54, R55) -/

/-- The grants of a launch on other devices end, and its pins (R55, R297). -/
def unpinAll (asid : Nat) : List Pin → State → State
  | [], s => s
  | p :: ps, s => unpinAll asid ps (if p.gid = 0 then s else s.sendMgmt p.dev 4 asid (natLe 4 p.gid ++ natLe 4 0))

/-- A launch releases its pins. -/
def State.releasePins (s : State) (l : Launch) : State :=
  (unpinAll l.asid l.pins s).modLaunch l.uid fun y => { y with pins := [], toPin := [], resid := none }

/-- Are all the extents that a launch asked for pinned, every answer there, and no frame of them migrating (R54)? -/
def State.pinned (s : State) (l : Launch) : Bool :=
  l.toPin.isEmpty && l.pins.all fun p => p.answered && !(p.dev == s.devid && s.migrating.any fun m => decide (p.frame < m.1 + 65536 ∧ m.1 < p.frame + p.span))

/-- The rights of an extent to pin. -/
def Range.rights (r : Range) : Rights := { rd := r.rd, wr := r.wr, ex := r.ex }

/-- The pages of a barrier, an extent to pin. -/
def barrierPage (va : Nat) (wr : Bool) : Range := { rd := true, wr := wr, ex := false, lo := va / 65536 * 65536, hi := (va / 65536 + 1) * 65536 }

/-! ## Admission, rejection and failure (R26, R28, R240) -/

/-- The `LAUNCH` token finishes. -/
def State.tellToken (s : State) (l : Launch) (cause : Nat) : State :=
  if cause = 0 then s.finishOp l.op .done 0#8 else s.finishOp l.op .poison (BitVec.ofNat 8 cause)

/-- DONEB poisoned with a cause, without an arrival. -/
def State.poisonDoneb (s : State) (l : Launch) (cause : Nat) : State :=
  (s.sendUpdate l.doneb { cause := some (BitVec.ofNat 8 cause), asid := l.asid } 0).1

/-- A context whose control team cannot be placed is not created (R31, R33): nothing of it stays, and its CREATE request is answered REFUSED. -/
def State.refuseCreate (s : State) (l : Launch) : State :=
  let q := ((s.ctx? l.asid).bind fun c => c.creating).getD []
  let s := (s.releasePins l).dropLaunch l.uid
  State.post { s with ops := s.ops.filter fun o => o.id != l.op, contexts := s.contexts.filter fun c => c.asid != l.asid } (fieldLe q 0 2) 1 (fieldLe q 4 4)
    (fieldLe q 8 2) []

/-- A launch is rejected or fails (R26, R28): its pins are released, its entry is freed, and the failure is reported in one place: DONEB, when it can be
pinned, else the `LAUNCH` token. The page of a DONEB that is not here yet, or lies on another device, is first brought in and pinned as R54 has it, and where
that fails, for a failed precondition too, the token takes the cause (log entry 163); a misaligned DONEB counts as one that cannot be pinned (log entry 186). -/
def State.failLaunch (s : State) (l : Launch) (cause : Nat) : State :=
  let s := s.releasePins l
  let bring := s.modLaunch l.uid fun y => { y with phase := .failed, ended := some cause, toPin := [barrierPage l.doneb true] }
  let onToken := (s.tellToken l cause).dropLaunch l.uid
  if l.isCtrl then s.refuseCreate l
  else if l.doneb = 0 ∨ l.doneb % 32 ≠ 0 ∨ 2 ^ 57 ≤ l.doneb then onToken
  else match s.walk l.asid l.doneb with
    | .invalid => bring
    | .fault => onToken
    | .leaf t _ =>
      if !t.gives rightsRdWr then onToken
      else if t.dev != s.devid then bring
      else ((s.poisonDoneb l cause).tellToken l 0).dropLaunch l.uid

/-- A page cannot be pinned: cause 0x2E, or, for the page of a failed launch's DONEB, the report on the token. -/
def State.pinFails (s : State) (l : Launch) : State :=
  if l.phase == .failed then ((s.releasePins l).tellToken l (l.ended.getD 0x2E)).dropLaunch l.uid else s.failLaunch l 0x2E

/-- A launch is admitted (R240): its lease is in place. -/
def State.letIn (s : State) (l : Launch) : State :=
  let s := (s.tellToken l 0).modLaunch l.uid fun y => { y with phase := .ready }
  { s with dists := s.dists.zipIdx.map fun (d, i) => if i = l.die then { d with wanted := d.wanted + 1 } else d }

/-- Every extent of a stage is pinned. -/
def State.pinsDone (s : State) (l : Launch) : State :=
  if !s.pinned l then s
  else if l.phase == .leasing then s.letIn l
  else if l.phase == .failed then ((s.poisonDoneb l (l.ended.getD 0x2E)).tellToken l 0).modLaunch l.uid fun y => { y with phase := .retired }
  else s

/-- One leaf of an extent pinned (R54), A set: a local one at once, one on another device by asking its Ochre (R297). -/
def State.pinLeaf (s : State) (l : Launch) (r : Range) (rest : List Range) (t : Tlb) (place : Nat) : State :=
  let fin := min r.hi (t.va + t.span)
  let more := if fin < r.hi then { r with lo := fin } :: rest else rest
  let put := fun (s : State) (p : Pin) => s.modLaunch l.uid fun y => { y with toPin := more, pins := y.pins ++ [p] }
  let frame := (t.pa + (r.lo - t.va)) / 65536 * 65536
  let s := if t.a || place == noEntry then s else (s.putEntry place (setEntryBit (getLe s.mem place 8) 6)).shoot l.asid t.va t.span
  if t.dev == s.devid then
    put s { dev := t.dev, wr := r.wr, frame := if t.kv then t.pa else frame, span := if t.kv && t.pa % 65536 != 0 then 0x8000 else fin - r.lo / 65536 * 65536 }
  else
    let gid := s.nextId
    let bits := (if r.rd || !(r.wr || r.ex) then 1 else 0) + (if r.wr then 2 else 0) + (if r.ex then 4 else 0)
    let s := s.bump.sendMgmt t.dev 2 l.asid (natLe 4 gid ++ natLe 2 l.asid ++ natLe 1 bits ++ natLe 1 0 ++ natLe 8 frame ++ natLe 8 (fin - r.lo / 65536 * 65536))
    put s { dev := t.dev, wr := r.wr, frame := frame, span := fin - r.lo / 65536 * 65536, gid := gid, answered := false, askedAt := s.timeNs }

/-- Step `LEASE_PIN` (R54): Ochre walks and pins the next page of a launch's extents, asks system software for a missing one, or finds the stage done. -/
def execLeasePin (l : Nat) (s : State) : Host.Outcome State Fault Refusal :=
  match s.launch? l with
  | none => .next s
  | some y =>
    if y.phase == .retired || y.phase == .ready || (y.ended.isSome && y.phase != .failed) then .next s
    else match y.toPin with
      | [] => .next (s.pinsDone y)
      | r :: rest => match (if r.hi ≤ 2 ^ 57 then s.walk y.asid r.lo else .fault) with
        | .leaf t place =>
          if !t.gives r.rights then .next (s.pinFails y)
          else if t.mig then .next s
          else .next (s.pinLeaf y r rest t place)
        | .invalid =>
          if y.resid.isSome then .next s
          else
            let rid := s.nextId
            let s := s.bump.post 0x0080 0 0 y.asid (natLe 4 rid ++ natLe 4 0 ++ natLe 8 (r.lo / 65536 * 65536))
            .next (s.modLaunch l fun y => { y with resid := some (rid, r.lo) })
        | .fault => .next (s.pinFails y)

/-- The answer to a residency request (R54). The result says whether the request was known. -/
def State.residAnswer (s : State) (asid rid : Nat) (mapped : Bool) : Option State :=
  match s.launches.find? fun y => y.asid == asid && (y.resid.map (·.1)) == some rid with
  | none => none
  | some y =>
    let s := s.modLaunch y.uid fun y => { y with resid := none }
    some (if mapped then s else s.pinFails { y with resid := none })

/-- The answer of another device's Ochre to a pin (R54, R288). -/
def State.pinAnswer (s : State) (dev gid : Nat) (granted : Bool) : State :=
  match s.launches.find? fun y => y.pins.any fun p => p.gid == gid && p.dev == dev && !p.answered with
  | none => s
  | some y =>
    if granted then s.modLaunch y.uid fun y => { y with pins := mapIf (fun p => p.gid == gid) (fun p => { p with answered := true }) y.pins }
    else s.pinFails { y with pins := y.pins.filter fun p => p.gid != gid }

/-- Step `PIN_TIMEOUT` (R54): a pin that another device has not answered within TPOD counts as refused. -/
def execPinTimeout (gid : Nat) (s : State) : Host.Outcome State Fault Refusal :=
  match s.launches.find? fun y => y.pins.any fun p => p.gid == gid && !p.answered && decide (p.askedAt + 1000 * s.tpod < s.timeNs) with
  | none => .next s
  | some y => .next (s.pinFails y)

/-! ## Reading the record and the image (R28, R30) -/

/-- Bytes read by the distributor through a context's translation, for a `LAUNCH` command. -/
def State.distGet (s : State) (o : Op) (asid key va n : Nat) : Got :=
  match piecesOf s asid {} false (pageRuns va n) with
  | .hold page light => .wait (s.holdFor asid page light false)
  | .ok segs =>
    let ps := cutPieces segs
    match collect s o (key * 2 ^ 20) ps [] with
    | some bs => .ok bs
    | none => if o.fail != 0#8 then .fail o.fail else .wait (askAll o (key * 2 ^ 20) ps s)
  | _ => .fail 0x2E#8

/-- The record as the launch holds it. -/
def Launch.withRecord (y : Launch) (bs : Bytes) : Launch :=
  { y with recd := bs, prio := fieldLe bs 2 1, gx := fieldLe bs 0x10 4, gy := fieldLe bs 0x14 4, gz := fieldLe bs 0x18 4
           largs := BitVec.ofNat 64 (fieldLe bs 0x20 8), doneb := fieldLe bs 0x28 8, ltag := BitVec.ofNat 64 (fieldLe bs 0x30 8)
           pres := recordPres bs, ranges := (recordRanges bs).map rangeOf }

/-- The record read, once, and checked (R28, R30): all of it at one instant, so that a store that races the read is not mixed into it (log entry 185). -/
def State.readRecord (s : State) (y : Launch) (o : Op) : State :=
  if y.va % 256 ≠ 0 then (s.tellToken y 0x40).dropLaunch y.uid
  else match s.engineGet o 0 y.va 256 with
    | .wait s => s
    | .halted s => s.dropLaunch y.uid
    | .fail c => (s.tellToken y c.toNat).dropLaunch y.uid
    | .ok bs =>
      let s := if o.acq then s.acquire ((s.group? o.grp).map (·.core) |>.getD 0) (scopeOf o.scope.toNat) else s
      let z := y.withRecord bs
      let s := s.modLaunch y.uid fun _ => z
      let c := recordCause bs
      if c ≠ 0 then s.failLaunch z c
      else
        let head : Range := { rd := false, wr := false, ex := false, lo := fieldLe bs 8 8, hi := fieldLe bs 8 8 + 64 }
        (s.modLaunch y.uid fun y => { y with toPin := [head] }).modOp o.id fun o => { o with stage := 1 }

/-- The image's header read and checked; the rest of the image is to be pinned (R28). A read on another device that fails rejects the launch with the cause
of that read (log entry 187). -/
def State.readHeader (s : State) (y : Launch) (o : Op) : State :=
  let va := fieldLe y.recd 8 8
  match s.distGet o y.asid 1 va 64 with
  | .wait s => s
  | .halted s => s
  | .fail c => s.failLaunch y c.toNat
  | .ok h =>
    if !headerOk h then s.failLaunch y 0x26
    else if !leaseOk y.ranges rightsEx va (fieldLe h 0x30 4) then s.failLaunch y 0x27
    else
      let rest : Range := { rd := false, wr := false, ex := false, lo := (va / 65536 + 1) * 65536, hi := va + fieldLe h 0x30 4 }
      (s.modLaunch y.uid fun y => { y with toPin := if rest.lo < rest.hi then [rest] else [], img := { y.img with size := imageEnd h } }).modOp o.id
        fun o => { o with stage := 2 }

/-- The image read and checked: the launch enters its table and waits for its preconditions (R26, R28, R34, R64). A read on another device that fails rejects
the launch with the cause of that read (log entry 187). -/
def State.readImage (s : State) (y : Launch) (o : Op) : State :=
  let va := fieldLe y.recd 8 8
  let roleg := fieldLe y.recd 0x1C 4
  match s.distGet o y.asid 2 va y.img.size with
  | .wait s => s
  | .halted s => s
  | .fail c => s.failLaunch y c.toNat
  | .ok img =>
    let c := imageCause img roleg
    if c ≠ 0 then s.failLaunch y c
    else
      let n := s.nextId
      (s.bump.modLaunch y.uid fun y => { y with phase := .waiting, entered := n, img := imageOf va img roleg, raw := img
                                                toPin := y.pres.map fun p => barrierPage p.bar false }).modOp o.id fun o => { o with stage := 3, bufs := [] }

/-- Step `LAUNCH_VALIDATION` (R28, R30): the distributor reads and validates a started launch's record and image, part by part as the image's pages are
pinned. -/
def execLaunchValidation (l : Nat) (s : State) : Host.Outcome State Fault Refusal :=
  match s.launch? l with
  | none => .next s
  | some y => match s.op? y.op with
    | none => .next s
    | some o =>
      if y.phase != .reading || y.ended.isSome || !s.pinned y then .next s
      else .next (match o.stage with
        | 0 => s.readRecord y o
        | 1 => s.readHeader y o
        | _ => s.readImage y o)

/-! ## Preconditions (R26, R29) -/

/-- A precondition as the distributor finds it: not reached, holding, or failing with a cause; or its barrier is still to be read. -/
inductive PreView where
  | short | holds
  | bad (cause : Nat)
  | unread
  deriving DecidableEq, Repr

/-- What a barrier says of a precondition. -/
def preOf (p : Precond) (b : Barrier) : PreView :=
  if !b.reached p.phase.toNat then .short
  else if p.pass then .holds
  else match b.badCause false with
    | some c => .bad c.toNat
    | none => .holds

/-- A precondition's barrier, read at its home: an address that no longer translates finds it invalid (R349), and one on another device whose read has
failed counts as reached in poison with that cause, as for a waiter (R355; log entry 184). -/
def State.preView (s : State) (y : Launch) (o : Op) (i : Nat) (p : Precond) : PreView :=
  let lost := fun (c : Nat) => if p.pass then PreView.holds else .bad c
  let invalid := lost 0x81
  match s.xlate y.asid p.bar rightsRd with
  | none => invalid
  | some t =>
    if t.mig then .unread
    else match s.target t p.bar with
      | .home pa => preOf p (s.barrierAt pa)
      | .remote _ _ => match o.buf (2 ^ 20 * (4 + i)) with
        | some (_, bs) => preOf p (barrierOf bs)
        | none => if o.fail != 0#8 then lost o.fail.toNat else .unread
      | _ => invalid

/-- The barriers on other devices asked for; `State.preView` takes a read that fails (log entry 184). -/
def askPres (y : Launch) (o : Op) : Nat → List Precond → State → State
  | _, [], s => s
  | i, p :: ps, s => askPres y o (i + 1) ps (match s.distGet o y.asid (4 + i) p.bar 32 with
    | .wait s => s
    | _ => s)

/-- The first failing precondition's cause. -/
def firstFail : List PreView → Option Nat
  | [] => none
  | .bad c :: _ => some c
  | _ :: vs => firstFail vs

/-- A launch without a team completes: it arrives on DONEB, and its token finishes (R29). The page of DONEB is not brought in for it (log entry 164). -/
def State.zeroTeams (s : State) (y : Launch) : State :=
  let s := if y.doneb = 0 then s else (s.sendUpdate y.doneb { arr := 1, asid := y.asid } 0).1
  ((s.releasePins y).tellToken y 0).dropLaunch y.uid

/-- Step `LAUNCH_PRECONDITIONS_HELD` (R26): the preconditions of a launch whose barrier pages are pinned are read; one reached in poison fails it, and when
all hold it goes on to its lease, or completes when it has no team. -/
def execLaunchPreconditionsHeld (l : Nat) (s : State) : Host.Outcome State Fault Refusal :=
  match s.launch? l with
  | none => .next s
  | some y => match s.op? y.op with
    | none => .next s
    | some o =>
      if y.phase != .waiting || y.ended.isSome || !s.pinned y then .next s
      else
        let vs := y.pres.zipIdx.map fun (p, i) => s.preView y o i p
        match firstFail vs with
        | some c => .next (s.failLaunch y c)
        | none =>
          if vs.all fun v => v == .holds then
            if y.gx * y.gy * y.gz = 0 then .next (s.zeroTeams y)
            else
              let page := if y.doneb = 0 then [] else [barrierPage y.doneb true]
              .next (s.modLaunch l fun y => { y with phase := .leasing, toPin := y.ranges ++ page })
          else if vs.contains .unread then .next (askPres y o 0 y.pres s)
          else .next (s.modOp o.id fun o => { o with bufs := [] })

end Sys2Proof.Machine
end

