-- ==== Sys2Proof/Machine/FabricEvents.lean ====
section
/-!
DEFINITION. The fabric as this device meets it: links that come up, degrade and fail (R283, R289 to R295); packets forwarded (R292, R296); remote loads,
stores, atomics and release flags performed here (R297 to R306); and the management packets of pins, grants, watches and gathers (R288, R297, R335, R352).
-/
namespace Sys2Proof.Machine
open Sys2Proof

/-! ## The graph (R289, R290) -/

/-- The point of a device of the projective plane over GF(31). -/
def pointOf (d : Nat) : Nat × Nat × Nat := if d < 961 then (1, d / 31, d % 31) else if d < 992 then (0, 1, d - 961) else (0, 0, 1)

/-- The device of a point with first nonzero coordinate 1. -/
def deviceAt : Nat × Nat × Nat → Nat
  | (1, b, c) => 31 * b + c
  | (_, 1, c) => 961 + c
  | _ => 992

/-- The inverse of a number modulo 31. -/
def inv31 (a : Nat) : Nat := a ^ 29 % 31

/-- A point scaled so that its first nonzero coordinate is 1. -/
def normal31 : Nat × Nat × Nat → Nat × Nat × Nat
  | (a, b, c) =>
    let k := inv31 (if a ≠ 0 then a else if b ≠ 0 then b else c)
    (a * k % 31, b * k % 31, c * k % 31)

/-- The common neighbour of two devices that are not adjacent, or a third device on the line of two that are (R290, R294). -/
def crossOf (x y : Nat) : Nat :=
  let (a, b, c) := pointOf x
  let (d, e, f) := pointOf y
  let sub := fun (u v : Nat) => (u + 31 * 31 - v) % 31
  deviceAt (normal31 (sub (b * f) (c * e), sub (c * d) (a * f), sub (a * e) (b * d)))

/-- Are two devices adjacent (R289)? -/
def adjacent (x y : Nat) : Bool :=
  let (a, b, c) := pointOf x
  let (d, e, f) := pointOf y
  x != y && (a * d + b * e + c * f) % 31 == 0

/-! ## Links (R283, R293 to R295, R305) -/

/-- A source learns a destination's epoch before its first FLAG to it (R305). -/
def State.learnEpoch (s : State) (dev : Nat) (epoch : Word) : State :=
  let f := s.flagOut dev
  if f.next = 1#32 then { s with flagsOut := { f with epoch := epoch } :: s.flagsOut.filter fun x => x.dev != dev } else s

/-- The hello of a port of this device (R288, R293). -/
def helloOf (s : State) (port : Nat) : Packet :=
  { ty := 12#8, vc := 5#8, src := BitVec.ofNat 16 s.devid, dst := 0#16, aux := 1#16, len := 40#16
    data := natLe 2 s.devid ++ natLe 1 port ++ natLe 1 0 ++ natLe 2 0x0100 ++ natLe 2 0 ++ natLe 4 s.epoch.toNat ++ natLe 2 (Config.portPool port) ++ natLe 2 0 ++
      List.replicate 24 4#8 }

/-- Step `KARIC_HELLO` (R283): at a port that the configuration record enables (R422), a link has trained at a width, and the hellos are exchanged; one that is malformed is dropped (R286). It comes into service
when both ends speak one major version; otherwise it stays down, and the event is logged. -/
def execKaricHello (port width : Nat) (pkt : Packet) (s : State) : Host.Outcome State Fault Refusal :=
  let p := s.port? port
  let d := pkt.data
  if !(s.ports.any fun q => q.idx == port) ∨ (width ≠ 1 ∧ width ≠ 2 ∧ width ≠ 4) ∨ p.up ∨ pkt.ty ≠ 12#8 ∨ pkt.aux ≠ 1#16 then .next s
  else
    let s := s.emitOn port (helloOf s port)
    let s := s.count 0xFFFF 0x200 0 0x101 (beatsOf pkt)
    if !packetOk pkt then .next (s.dropPacket pkt)
    else if fieldLe d 5 1 ≠ 1 then .next (s.logEvent 0x0006 0xFFFF (natLe 1 port ++ natLe 1 0 ++ natLe 2 (fieldLe d 4 2)))
    else
      let q : Port := { p with width := width, nbr := fieldLe d 0 2 % 1024, epoch := BitVec.ofNat 32 (fieldLe d 8 4), pool := fieldLe d 12 2
                               cred := sliceBytes d 16 24, up := !p.out }
      let s := (s.setPort q).learnEpoch q.nbr q.epoch
      .next (if p.out then s else { s with linkUpAt := some (s.linkUpAt.getD s.timeNs) })

/-- A routing entry with MV cleared. -/
def clearMv (e : Nat) : Nat := e % 2 ^ 63

/-- The entry for the neighbour of a port that goes out of service: I0 is the third device of the line, and NNM at least 1 (R294). -/
def viaThird (e z : Nat) : Nat := e - bitsOf e 55 3 * 2 ^ 55 - bitsOf e 0 10 + max 1 (bitsOf e 55 3) * 2 ^ 55 + z

/-- A port out of service, and the routes rewritten (R294, R295). -/
def State.portDown (s : State) (p : Port) : State :=
  let hit := fun (r : Nat × DWord) => minPort r.2.toNat == some p.idx
  let z := crossOf s.devid p.nbr
  let s := s.logEvent 0x0004 0xFFFF (natLe 1 p.idx ++ natLe 1 0 ++ natLe 2 p.nbr)
  let cleared := (s.routes.filter hit).map (·.1)
  let s := { s with routes := mapIf hit (fun r => (r.1, BitVec.ofNat 64 (clearMv r.2.toNat))) s.routes }
  let s := if z ≠ s.devid ∧ z ≠ p.nbr then
      { s with routes := (s.routes.filter fun r => r.1 != p.nbr) ++ [(p.nbr, BitVec.ofNat 64 (viaThird (s.routeEntry p.nbr) z))] }
    else s
  s.setPort { p with up := false, out := true, cleared := cleared }

/-- Step `PORT_DEGRADED` (R294): the credits that a port grants no longer hold the minimum reserve. -/
def execPortDegraded (port : Nat) (s : State) : Host.Outcome State Fault Refusal :=
  let p := s.port? port
  .next (if p.up then s.portDown p else s)

/-- Step `LINK_FAIL` (R295): link-level retry gives up, or the link loses training. -/
def execLinkFail (port : Nat) (s : State) : Host.Outcome State Fault Refusal :=
  let p := s.port? port
  .next (if p.up then s.portDown p else s)

/-- Step `PORT_RESTORED` (R294): the port has trained x4 with full buffers; the entries that its loss cleared name it again. -/
def execPortRestored (port : Nat) (s : State) : Host.Outcome State Fault Refusal :=
  let p := s.port? port
  if !p.out then .next s
  else
    let back := fun (r : Nat × DWord) => p.cleared.contains r.1 && bitsOf r.2.toNat 58 5 == p.idx && !bitOf r.2.toNat 63
    let s := s.logEvent 0x0005 0xFFFF (natLe 1 port ++ natLe 1 0 ++ natLe 2 p.nbr)
    let s := { s with routes := mapIf back (fun r => (r.1, r.2 ||| 0x8000000000000000#64)) s.routes }
    .next (s.setPort { p with up := true, out := false, width := 4, cleared := [] })

/-- Step `FABRIC_START_DELAY` (R305): 10·TPOD after its first link came up, a device may send requests; those held until then are sent. -/
def execFabricStartDelay (s : State) : Host.Outcome State Fault Refusal :=
  let held := s.mgmtHeld
  match s.linkUpAt with
  | some t => if s.fabricOpen || decide (s.timeNs < t + 10000 * s.tpod) then .next s else
      let s := { s with fabricOpen := true, mgmtHeld := [] : State }
      .next (sendAll held (sendHeld [] s.rtx s))
  | none => .next s

/-! ## Forwarding (R292, R296) -/

/-- Step `KARIC_FORWARD` (R286, R292, R296, R309): a packet that is malformed is dropped; one for another device goes on; one for a multicast group that
this device is no member of goes no further than the ports of its entry. -/
def execKaricForward (s : State) : Host.Outcome State Fault Refusal :=
  onPacket s (fun p => !packetOk p || !s.takes p) fun p s => if toGroup p then s else s.forward p

/-! ## Loads, stores and atomics performed here (R299, R300) -/

/-- The source bytes of another device's chunk sent to it as a CHUNK with their check (R307, R309; log entry 63). -/
def State.answerChunk (s : State) (p : Packet) (bs : Bytes) : State :=
  let c := chunkCheck p.fmt.toNat bs
  (s.send { ty := 9#8, cf := 1#8, src := BitVec.ofNat 16 s.devid, dst := p.src, sasid := p.sasid, txid := p.txid, addr := p.addr
            len := BitVec.ofNat 16 bs.length, data := bs, chkS := BitVec.ofNat 64 c.1, chkA := BitVec.ofNat 64 c.2, fmt := p.fmt } none).1

/-- Step `KARIC_RDREQ` (R297, R299): a remote load, performed at its home. -/
def execKaricRdreq (s : State) : Host.Outcome State Fault Refusal :=
  onPacket s (forMe s 1) fun p s =>
    let n := p.len.toNat
    let checked := bitOf p.cf.toNat 0
    s.admitted p (paOf p) n rightsRd (checked || accessAligned (paOf p) n) fun s =>
      if checked then s.answerChunk p (getBytes s.mem (paOf p) n) else s.answer p 4 0 (getBytes s.mem (paOf p) n)

/-- Step `KARIC_WR` (R297, R299, R302): a remote store, performed at its home and then answered. -/
def execKaricWr (s : State) : Host.Outcome State Fault Refusal :=
  onPacket s (forMe s 2) fun p s =>
    s.admitted p (paOf p) p.len.toNat rightsWr (accessAligned (paOf p) p.len.toNat) fun s => (s.homeWrite 0x200 (paOf p) p.data).answerKept p 5 0 []

/-- A remote atomic performed and answered with the old value. -/
def State.performAtom (s : State) (p : Packet) : State :=
  let (s, old) := s.atomicAt 0x200 (p.aux.toNat % 32) (paOf p) p.data
  s.answerKept p 6 0 old

/-- Is a number the next of an ordered atomic's sequence: that of its source, its issuing group and its home slice, from 0 on (R300, log entry 28)? -/
def atomKey (p : Packet) (a : Nat × Nat × Nat × Nat) : Bool :=
  a.1 == p.src.toNat && a.2.1 == Config.issuer p.src.toNat p.txid.toNat && a.2.2.1 == homeSlice (paOf p)

/-- May an atomic be performed now (R300)? One without ORD may; one with ORD when its number is next. -/
def State.orderReady (s : State) (p : Packet) : Bool :=
  !bitOf p.aux.toNat 5 || bitsOf p.aux.toNat 6 10 == ((s.atomIn.find? (atomKey p)).map fun a => a.2.2.2).getD 0

/-- An ordered atomic's sequence moves on. -/
def State.orderTaken (s : State) (p : Packet) : State :=
  if !bitOf p.aux.toNat 5 then s
  else { s with atomIn := (p.src.toNat, Config.issuer p.src.toNat p.txid.toNat, homeSlice (paOf p), (bitsOf p.aux.toNat 6 10 + 1) % 1024) ::
                  s.atomIn.filter fun a => !atomKey p a }

/-- The place, no port, under which an ordered atomic that was refused keeps its turn. -/
def refusedPort : Nat := 33

/-- Held atomics whose turn has come are performed; one that was refused only gives its turn on. -/
def releaseAtoms : Nat → State → State
  | 0, s => s
  | fuel + 1, s => match s.heldAtoms.find? fun x => s.orderReady x.2 with
    | some x =>
      let s := { s with heldAtoms := s.heldAtoms.erase x }
      releaseAtoms fuel ((if x.1 = refusedPort then s else s.performAtom x.2).orderTaken x.2)
    | none => s

/-- An ordered atomic held until its turn (R300), once. -/
def State.holdAtom (s : State) (place : Nat) (p : Packet) : State :=
  if s.heldAtoms.any (fun x => x.2.src == p.src && x.2.txid == p.txid) then s else { s with heldAtoms := s.heldAtoms ++ [(place, p)] }

/-- Step `KARIC_ATOM` (R297, R299, R300, R302): a remote atomic, in its order, performed at its home and answered with the old value. One that is refused is
answered at once, and its number counts as taken in its turn. -/
def execKaricAtom (s : State) : Host.Outcome State Fault Refusal :=
  onPacket s (forMe s 3) fun p s =>
    let n := if bitOf p.aux.toNat 3 then 8 else 4
    match s.entry p (paOf p) n rightsRdWr (paOf p % n == 0) with
    | .again a => s.answerAgain a
    | .wait => s.holdPacket p
    | .refused c code =>
      let s := (s.logDenied p (paOf p) c code).answer p 8 (c + 256 * code) []
      if bitOf p.aux.toNat 5 then releaseAtoms (s.heldAtoms.length + 1) (s.holdAtom refusedPort p) else s
    | .ok => if s.orderReady p then releaseAtoms s.heldAtoms.length ((s.performAtom p).orderTaken p) else s.holdAtom 32 p

/-! ## Release flags performed here (R304 to R306) -/

/-- The window slid so that F + 1 is unmarked. -/
def slideFlags : Nat → FlagIn → FlagIn
  | 0, f => f
  | fuel + 1, f =>
    if f.marks.contains 1 then
      slideFlags fuel { f with floor := (f.floor + 1) % 2 ^ 32, marks := (f.marks.filter fun m => m != 1).map fun m => m - 1 }
    else f

/-- A FLAG of a source is marked as applied. -/
def State.markFlag (s : State) (f : FlagIn) (d : Nat) : State :=
  { s with flagsIn := slideFlags 64 { f with marks := d :: f.marks } :: s.flagsIn.filter fun x => x.dev != f.dev }

/-- The right and length that a FLAG's effect needs, and whether its address is aligned for it. -/
def flagNeed (p : Packet) : Rights × Nat × Bool :=
  let size := fieldLe p.data 9 1
  match fieldLe p.data 8 1 with
  | 1 => (rightsWr, size, accessAligned (paOf p) size)
  | 2 => (rightsRdWr, size, paOf p % size == 0)
  | _ => (rightsRdWr, 32, paOf p % 32 == 0)

/-- The arrival update that a FLAG carries (R306, R350). -/
def flagUpdate (p : Packet) : BUpdate :=
  let c := fieldLe p.data 0x14 1
  { pa := paOf p, arr := fieldLe p.data 0x10 4, byt := sextNat (fieldLe p.data 0x18 8) 64, cause := if c = 0 then none else some (BitVec.ofNat 8 c)
    bad := bitOf (fieldLe p.data 0x15 1) 0, dev := p.src.toNat, unit := 255 }

/-- A FLAG's effect at its home, and its answer (R287, R304, R352, R353). -/
def State.performFlag (s : State) (p : Packet) : State :=
  let opnd := p.data.drop 32
  match fieldLe p.data 8 1 with
  | 1 => (s.homeWrite 0x200 (paOf p) opnd).answerKept p 5 0 []
  | 2 =>
    let (s, old) := s.atomicAt 0x200 (fieldLe p.data 10 2) (paOf p) opnd
    s.answerKept p 6 0 old
  | 3 =>
    let (s, c) := s.applyUpdate (paOf p) (flagUpdate p)
    if c == 0#8 then s.answerKept p 5 0 [] else s.answerKept p 8 c.toNat []
  | _ =>
    (s.initBarrier (paOf p) (BitVec.ofNat 32 (fieldLe opnd 0 4)) (BitVec.ofNat 32 (fieldLe opnd 4 4)) p.sasid.toNat 0x200).answerKept p 5 0 []

/-- A FLAG of a source's current epoch by its number (R304). -/
def State.numberedFlag (s : State) (p : Packet) (f : FlagIn) : State :=
  let d := (p.sqf.toNat + 2 ^ 32 - f.floor) % 2 ^ 32
  if d = 0 ∨ 2 ^ 31 ≤ d ∨ f.marks.contains d then match s.kept? p with
    | some a => s.answerAgain a
    | none => (s.answer p 5 0 []).count 0xFFFF 0x200 0 0x104 1
  else if 64 < d then s.answer p 8 0x69 []
  else
    let (r, n, aligned) := flagNeed p
    match s.entry p (paOf p) n r aligned with
    | .again a => s.answerAgain a
    | .wait => s.holdPacket p
    | .refused c code => ((s.markFlag f d).logDenied p (paOf p) c code).answerKept p 8 (c + 256 * code) []
    | .ok => (s.markFlag f d).performFlag p

/-- A FLAG whose destination epoch is this device's own, by its source epoch (R305). -/
def State.flagFrom (s : State) (p : Packet) : State :=
  let sep := fieldLe p.data 0 4
  let fresh : FlagIn := { dev := p.src.toNat, epoch := BitVec.ofNat 32 sep }
  let start := fun (s : State) => if p.sqf = 1#32 then s.numberedFlag p fresh else s.answer p 8 0x69 []
  match s.flagsIn.find? fun f => f.dev == p.src.toNat with
  | none => start s
  | some f =>
    let d := (sep + 2 ^ 32 - f.epoch.toNat) % 2 ^ 32
    if d = 0 then s.numberedFlag p f
    else if d < 2 ^ 31 then start s
    else s.logEvent 0x000C 0xFFFF (natLe 4 p.src.toNat ++ natLe 4 sep ++ natLe 8 0)

/-- Step `KARIC_FLAG` (R304 to R306): a release flag is checked by its epochs and its number, and applied exactly once. -/
def execKaricFlag (s : State) : Host.Outcome State Fault Refusal :=
  onPacket s (forMe s 11) fun p s =>
    let dep := fieldLe p.data 4 4
    if dep = s.epoch.toNat then s.flagFrom p
    else if dep = 0 then s.answer p 8 0x69 []
    else s.answer p 8 0x68 []

/-! ## Pins and grants (R288, R297) -/

/-- Step `MGMT_PIN` (R297): another device's Ochre asks for frames of this device's HBM; the grant is recorded, or the request refused. A request whose
frames migrate waits. -/
def execMgmtPin (s : State) : Host.Outcome State Fault Refusal :=
  onPacket s (mgmtFor s 2) fun p s =>
    let d := p.data
    let gid := fieldLe d 0 4
    let frame := fieldLe d 8 8
    let span := fieldLe d 16 8
    let r := fieldLe d 6 1
    let answer := fun (s : State) (st : Nat) => s.sendMgmt p.src.toNat 3 p.sasid.toNat (natLe 4 gid ++ natLe 1 st ++ natLe 3 0)
    match s.migrating.find? fun m => decide (frame ≤ m.1 ∧ m.1 < frame + span) with
    | some m => { s with waiting := s.waiting ++ [(32, { p with addr := BitVec.ofNat 64 m.1 })] }
    | none => if frame % 65536 ≠ 0 ∨ span % 65536 ≠ 0 ∨ span = 0 ∨ hbmEnd < frame + span then answer s 1
    else
      let g : Grant := { gid := gid, dev := p.src.toNat, sasid := fieldLe d 4 2, rd := bitOf r 0, wr := bitOf r 1, ex := bitOf r 2, frame := frame, span := span }
      answer { s with grants := s.grants ++ [g] } 0

/-- Step `MGMT_PINANS` (R54, R288): the answer to a pin request. -/
def execMgmtPinans (s : State) : Host.Outcome State Fault Refusal :=
  onPacket s (mgmtFor s 3) fun p s => s.pinAnswer p.src.toNat (fieldLe p.data 0 4) (fieldLe p.data 4 1 == 0)

/-! ## Watches and gathers (R335, R352) -/

/-- Step `MGMT_WATCH` (R352): another device waits for a phase of a barrier here; it is told at once when the barrier has reached it. -/
def execMgmtWatch (s : State) : Host.Outcome State Fault Refusal :=
  onPacket s (mgmtFor s 9) fun p s =>
    let pa := fieldLe p.data 0 8
    let phase := fieldLe p.data 8 4
    let b := s.barrierAt pa
    if b.valid && phaseReached b.phase phase then tellWatchers b.phase [(p.src.toNat, pa, BitVec.ofNat 32 phase, pa)] s
    else if s.watches.contains (p.src.toNat, pa, BitVec.ofNat 32 phase, pa) then s
    else { s with watches := s.watches ++ [(p.src.toNat, pa, BitVec.ofNat 32 phase, pa)] }

/-- Step `MGMT_ADVANCED` (R352): a barrier's home reports the phase that it has reached. -/
def execMgmtAdvanced (s : State) : Host.Outcome State Fault Refusal :=
  onPacket s (mgmtFor s 10) fun p s =>
    let pa := fieldLe p.data 0 8
    let phase := fieldLe p.data 8 4
    let old := s.advanced.find? fun a => a.1 == p.src.toNat && a.2.1 == pa
    if old.any fun a => phaseReached a.2.2.toNat phase then s
    else { s with advanced := (p.src.toNat, pa, BitVec.ofNat 32 phase) :: s.advanced.filter fun a => !(a.1 == p.src.toNat && a.2.1 == pa) }

/-- Step `MGMT_GATHER` (R335): a gather request is held for its expert's `RTC`. -/
def execMgmtGather (s : State) : Host.Outcome State Fault Refusal :=
  onPacket s (mgmtFor s 8) fun p s => if s.held.contains p then s else { s with held := s.held ++ [p] }

end Sys2Proof.Machine
end

