-- ==== Sys2Proof/Machine/SaveArea.lean ====
section
/-!
DEFINITION. The save area of a team (R386 to R389): its layout and place, what a save writes into it, and what a resume brings back (R22, R260, R390,
R391).
-/
namespace Sys2Proof.Machine
open Sys2Proof

/-! ## Layout (R386) -/

/-- The groups of a team of an image. -/
def Image.groupCount (img : Image) : Nat := (img.roles.map (·.groups)).foldl (· + ·) 0

/-- Offset of the scratchpad image. -/
def Image.spo (img : Image) : Nat := 0x100 + img.groupCount * 0x5800
/-- Offset of the presence bits. -/
def Image.pbo (img : Image) : Nat := img.spo + img.spad
/-- Offset of the stream queues. -/
def Image.qo (img : Image) : Nat := img.pbo + 256
/-- Offset of the tile records. -/
def Image.to_ (img : Image) : Nat := img.qo + 1024
/-- Offset of the weight-buffer shares, for a team that uses `na` arrays. -/
def Image.wo (img : Image) (na : Nat) : Nat := img.to_ + na * img.acct * 0x1040
/-- Offset of the held words. -/
def Image.ho (img : Image) (na : Nat) : Nat := img.wo na + na * img.wbk * 1024
/-- The bytes of a save area for a team that uses `na` arrays; the held words have the last 4 KiB (log entry 78). -/
def Image.saveSize (img : Image) (na : Nat) : Nat := (img.ho na + 4096 + 4095) / 4096 * 4096

/-- The team header (R387). -/
def headerBytes (index lrec : Nat) (img : Image) (arrays : List Nat) (kind hbytes : Nat) : Bytes :=
  let na := arrays.length
  natLe 4 0x53415645 ++ natLe 4 index ++ natLe 8 lrec ++ natLe 1 img.groupCount ++ natLe 1 ((arrays.map fun a => 2 ^ a).foldl (· + ·) 0) ++ natLe 1 kind ++
  natLe 1 0 ++ natLe 4 img.spo ++ natLe 4 img.pbo ++ natLe 4 img.qo ++ natLe 4 img.to_ ++ natLe 4 (img.wo na) ++ natLe 4 (img.ho na) ++ natLe 4 hbytes ++
  natLe 208 0

/-! ## Allocation (R386, R412) -/

/-- The lowest start in a region of `size` bytes from `base` at which `n` bytes meet none of the used extents. -/
def freeRun (base size n : Nat) (used : List (Nat × Nat)) : Option Nat :=
  let ok := fun a => decide (base ≤ a ∧ a + n ≤ base + size) && used.all fun u => decide (a + n ≤ u.1 ∨ u.1 + u.2 ≤ a)
  let starts := (base :: used.map fun u => u.1 + u.2).filter ok
  starts.foldl (fun b a => match b with
    | none => some a
    | some x => some (min x a)) none

/-- What a distributor holds reserved (R66, R71). -/
def Distributor.claims (d : Distributor) : List Claim := d.granted.toList ++ d.kept.toList

/-- The save areas of a context in use, or reserved with the room for a team. -/
def State.savesOf (s : State) (asid : Nat) : List (Nat × Nat) :=
  ((s.launches.filter fun l => l.asid == asid).flatMap fun l => l.saves) ++
  ((s.dists.flatMap Distributor.claims).filter fun c => (s.launch? c.launch).any fun l => l.asid == asid).map fun c =>
    (c.save, c.img.saveSize c.fit.arrays.length)

/-- A save area in a context's pool, first fit. -/
def State.saveRoom (s : State) (asid n : Nat) : Option Nat := match s.ctx? asid with
  | some c => c.pool.findSome? fun r => freeRun r.1 r.2 n (s.savesOf asid)
  | none => none

/-! ## Where a team's scratchpad stands (R319, R337) -/

/-- Is a team saved? -/
def Team.isSaved (t : Team) : Bool := match t.phase with
  | .saved _ => true
  | _ => false

/-- The device-local address of a byte of a team's scratchpad: on its core, or in its save area. -/
def State.spadAt (s : State) (t : Team) (off : Nat) : Nat :=
  if t.isSaved then t.save + (s.teamImage t).spo + off else spadAddr t.core (t.spBase * 512 + off)

/-- The key of a team's absent lines: its core and first line, or, for a saved team, a key of its own. -/
def Team.lineKey (t : Team) : Nat × Nat := if t.isSaved then (2 ^ 20 + t.uid, 0) else (t.core, t.spBase)

/-- A bit of memory set. -/
def setMemBit (m : Memory) (a i : Nat) : Memory := let b := (memGet m (a + i / 8)).toNat; if bitOf b (i % 8) then m else memPut m (a + i / 8) (BitVec.ofNat 8 (b + 2 ^ (i % 8)))

/-- A line of a team present again for an operation, in its saved presence bits too (R319). -/
def State.presentLine (s : State) (t : Team) (id line : Nat) : State :=
  let (c, b) := t.lineKey
  let s := { s with absent := s.absent.filter fun (a : Nat × Nat × Nat) => !(a.1 == c && a.2.1 == b + line && a.2.2 == id) }
  if t.isSaved && !(s.absent.any fun a => a.1 == c && a.2.1 == line) then 
    State.tagExtent { s with mem := setMemBit s.mem (t.save + (s.teamImage t).pbo) line } 0x200 (t.save + (s.teamImage t).pbo + line / 8) 1
  else s

/-- The absent lines of a team moved to another key. -/
def moveAbsent (old new : Nat × Nat) (n : Nat) (l : List (Nat × Nat × Nat)) : List (Nat × Nat × Nat) :=
  l.map fun (a : Nat × Nat × Nat) => if a.1 == old.1 && decide (old.2 ≤ a.2.1 ∧ a.2.1 < old.2 + n) then (new.1, new.2 + (a.2.1 - old.2), a.2.2) else a

/-! ## What a save writes (R388, R389) -/

/-- The masks of a stopped thread: `v` and `p` (R22); full masks without an entry. -/
def threadMask (img : Image) (vbud : Nat) (t : Thread) : Nat × Nat := (vMask img vbud t, match t.stopped.bind fun i => img.pe[i]? with
  | some e => e.plive
  | none => 255)

/-- The union of the masks of a group's threads: `s`, `q` and `k`. -/
def groupMask (img : Image) (g : Group) : Nat × Nat × Nat :=
  g.threads.foldl (fun m t => match t.stopped.bind fun i => img.pe[i]? with
    | some e => (Nat.lor m.1 e.slive, Nat.lor m.2.1 e.qlive, Nat.lor m.2.2 e.klive)
    | none => (2 ^ 192 - 1, 15, 65535)) (0, 0, 0)

/-- Words written at a base for the registers of a mask. -/
def putMasked (base stride mask : Nat) : Nat → List Word → Memory → Memory
  | _, [], m => m
  | i, x :: xs, m => putMasked base stride mask (i + 1) xs (if bitOf mask i then putBytes m (base + stride * i) (natLe 4 x.toNat) else m)

/-- A byte's bits written under a mask. -/
def putMaskedByte (m : Memory) (a mask x : Nat) : Memory := memPut m a (BitVec.ofNat 8 (Nat.lor (Nat.land (memGet m a).toNat (255 - mask % 256)) (Nat.land x mask)))

/-- The threads' registers written, lane by lane. -/
def putThreads (img : Image) (vbud r : Nat) : Nat → List Thread → Memory → Memory
  | _, [], m => m
  | lane, t :: ts, m =>
    let (v, p) := threadMask img vbud t
    let m := putMaskedByte m (r + 0x1340 + lane) p t.p.toNat
    putThreads img vbud r (lane + 1) ts (putMasked (r + 0x1800 + 4 * lane) 0x80 v 0 t.v m)

/-- The tokens of a mask written. -/
def putTokens (r mask : Nat) : Nat → List Token → Memory → Memory
  | _, [], m => m
  | i, t :: ts, m => putTokens r mask (i + 1) ts (if bitOf mask i then putBytes m (r + 0x1380 + 16 * i) (tokenBytes t) else m)

/-- A group's record written (R388), but for its trap frames, which stand in it already (R369). -/
def groupSave (img : Image) (r : Nat) (g : Group) (m : Memory) : Memory :=
  let (sm, qm, km) := groupMask img g
  let m := putBytes m r (natLe 4 g.fpst.toNat)
  let m := putMaskedByte m (r + 4) qm g.q.toNat
  let m := putBytes m (r + 8) (natLe 4 g.cycHi.toNat ++ natLe 4 g.timHi.toNat ++ natLe 1 (if g.full then 1 else 0) ++ natLe 47 0)
  let m := putBytes m (r + 0x40) (g.threads.map fun t => threadEntry t t.pc (t.stopped.getD 0xFFFFFFFF)).flatten
  let m := putMasked (r + 0x1040) 4 sm 0 g.s m
  let m := putTokens r km 0 g.k m
  let m := putBytes m (r + 0x1480) (sliceBytes (Config.ownFormat 512) 0 512)
  putThreads img (img.budget g.role) r 0 g.threads m

/-- What a resume finds of a register that was saved, or 0 (R22). -/
def keepMasked (mask : Nat) : Nat → List Word → List Word
  | _, [] => []
  | i, x :: xs => (if bitOf mask i then x else 0#32) :: keepMasked mask (i + 1) xs

/-- A saved group as it stands until it resumes: unsaved registers are 0 (R22). -/
def savedGroup (img : Image) (g : Group) : Group :=
  let (sm, qm, _) := groupMask img g
  let mask := threadMask img (img.budget g.role)
  { g with resident := false, perfHi := 0#32, s := keepMasked sm 0 g.s, q := g.q &&& BitVec.ofNat 4 qm
           threads := g.threads.map fun t => { t with v := keepMasked (mask t).1 0 t.v, p := t.p &&& BitVec.ofNat 8 (mask t).2, hints := {} } }

/-- The state code of a slot (R389). -/
def SlotState.code : SlotState → Nat
  | .empty => 0 | .acquired => 1 | .filling => 2 | .filled => 3 | .popped => 4

/-- A stream queue's record (R389). -/
def queueSave (base : Nat) (q : StreamQ) (m : Memory) : Memory :=
  putBytes m (base + 128 * q.idx) (natLe 1 q.aptr ++ natLe 1 q.pptr ++ natLe 2 0 ++
    (q.slots.map fun x => natLe 4 (x.1.code * 2 ^ 28 + x.2.toNat % 65536)).flatten)

/-- The word of a tile record (R389). -/
def tileWord (t : Tile) : Nat :=
  (match t.st with
    | .array => 0
    | .acquiring g _ => 1 + 256 * g
    | .group g => 2 + 256 * g) + (t.mark.getD 0#8).toNat * 65536

/-- The tile records written, in ascending array and tile. -/
def tilesSave (t : Team) (base : Nat) : List (Nat × Nat) → Memory → Memory
  | [], m => m
  | (k, arr) :: rest, m =>
    let acct := t.acct
    let t0 := ((t.arrays.find? fun a => a.1 == arr).map (·.2.1)).getD 0
    let m := (List.range acct).foldl (fun m i =>
      let at_ := base + (k * acct + i) * 0x1040
      let m := copyRange m (tileAddr t.core arr (t0 + i) 0) at_ 0x1000
      putBytes m (at_ + 0x1000) (natLe 4 (match t.tile? arr i with
        | some x => tileWord x
        | none => 0) ++ natLe 60 0)) m
    tilesSave t base rest m

/-- The weight-buffer shares copied between a core and a save area. -/
def sharesSave (t : Team) (base : Nat) : List (Nat × Nat) → Memory → Memory
  | [], m => m
  | (k, arr) :: rest, m => sharesSave t base rest (copyRange m (shareAddr t arr 0) (base + k * t.wbk * 1024) (t.wbk * 1024))

/-- The presence bits of a team as bytes (R386). -/
def presenceBytes (s : State) (t : Team) : Bytes :=
  (List.range 256).map fun b => BitVec.ofNat 8 ((List.range 8).foldl (fun x i =>
    if decide (b * 8 + i < t.spLines) && !(s.absent.any fun a => a.1 == t.core && a.2.1 == t.spBase + b * 8 + i) then x + 2 ^ i else x) 0)

/-- The arrays of a team, numbered. -/
def Team.numbered (t : Team) : List (Nat × Nat) := t.arrays.zipIdx.map fun (a, k) => (k, a.1)

/-- May the tiles be omitted from a save (R260)? -/
def omitsTiles (img : Image) (gs : List Group) (t : Team) : Bool :=
  t.tiles.all (fun x => x.st == .array && x.ord.isEmpty) &&
  gs.all fun g => !g.full && g.threads.all fun th => match th.stopped.bind fun i => img.pe[i]? with
    | some e => !e.acc
    | none => th.st == .exited

/-- The extents of a group's record that its save writes: all before the `v` registers but the trap frames, and each register that some thread's mask has
(R388). -/
def recordExtents (img : Image) (r : Nat) (g : Group) : List (Nat × Nat) :=
  (r, 0x840) :: (r + 0x1040, 0x640) :: ((List.range 128).filter fun n => g.threads.any fun t => savedReg img (img.budget g.role) t n).map fun n => (r + 0x1800 + n * 0x80, 0x80)

/-- The extents of a team's area that its save writes, with `hl` bytes of held words (R386). -/
def areaExtents (img : Image) (t : Team) (gs : List Group) (hl : Nat) : List (Nat × Nat) :=
  let na := t.arrays.length
  [(t.save, 0x100), (t.save + img.spo, img.spad), (t.save + img.pbo, 256), (t.save + img.wo na, na * t.wbk * 1024), (t.save + img.ho na, hl)] ++
  gs.flatMap (fun g => recordExtents img (t.save + 0x100 + g.idx * 0x5800) g) ++ t.queues.map (fun q => (t.save + img.qo + 128 * q.idx, 4 + 4 * q.slots.length)) ++
  (if omitsTiles img gs t then [] else [(t.save + img.to_, na * t.acct * 0x1040)])

/-- The tags of the lines of several extents set (R395). -/
def tagAll (tag : Nat) : List (Nat × Nat) → State → State
  | [], s => s
  | (a, n) :: rest, s => tagAll tag rest (if n = 0 then s else s.tagExtent tag a n)

/-- The area of a team written by Ochre (R385 to R389, R395). -/
def State.writeArea (s : State) (t : Team) (l : Launch) (gs : List Group) (kind : Nat) : State :=
  let img := s.teamImage t
  let na := t.arrays.length
  let held := (t.tiles.flatMap fun x => x.ord).length
  let hb := (sliceBytes (Config.ownFormat held) 0 (min 4096 (Config.ownFormat held).length))
  let m := putBytes s.mem t.save (headerBytes t.index l.va img (t.arrays.map (·.1)) kind hb.length)
  let m := gs.foldl (fun m g => groupSave img (t.save + 0x100 + g.idx * 0x5800) g m) m
  let m := copyRange m (spadAddr t.core (t.spBase * 512)) (t.save + img.spo) img.spad
  let m := putBytes m (t.save + img.pbo) (presenceBytes s t)
  let m := t.queues.foldl (fun m q => queueSave (t.save + img.qo) q m) m
  let m := if omitsTiles img gs t then m else tilesSave t (t.save + img.to_) t.numbered m
  let m := sharesSave t (t.save + img.wo na) t.numbered m
  tagAll 0x200 (areaExtents img t gs hb.length) { s with mem := putBytes m (t.save + img.ho na) hb }

/-! ## What a resume brings back (R391) -/

/-- A thread as it resumes: a parked one re-issues its word; one that had taken a trap goes on waiting to enter its handler. -/
def Thread.resumed (t : Thread) : Thread :=
  { t with st := (match t.st with
             | .parked r => if t.trap.isSome then .parked r else .runnable
             | x => x), wake := .none, stopped := none, starve := 0, starved := false, hints := {} }

/-- A group as it resumes on a core, whose die's clock stands at `now`. -/
def Group.resumed (g : Group) (core part slot now : Nat) : Group :=
  { g with resident := true, core := core, part := part, slot := slot, lastIssue := now, ahead := [], full := false, owed := false, boost := 0, yielded := false, leftOut := []
           threads := g.threads.map Thread.resumed }

end Sys2Proof.Machine
end

