-- ==== Sys2Proof/Machine/Sha.lean ====
section
/-!
DEFINITION. SHA-256 (FIPS 180-4), which the digests of descriptors (R288), the boot measurement (R418) and the digest of the configuration record (R422)
use. The algorithm is a public standard that the specification names.
-/
namespace Sys2Proof.Machine
open Sys2Proof

/-- The largest number of `b` more bits after `r` whose k-th power is at most `x`. -/
def rootFloor (k x : Nat) : Nat → Nat → Nat
  | 0, r => r
  | b + 1, r => rootFloor k x b (if (r + 2 ^ b) ^ k ≤ x then r + 2 ^ b else r)

/-- The first 64 primes: the numbers below 312 that no smaller prime of at most 17 divides. -/
def shaPrimes : List Nat := (List.range 312).filter fun n => decide (2 ≤ n) && [2, 3, 5, 7, 11, 13, 17].all fun d => n % d != 0 || n == d

/-- The first 32 bits of the fraction of the k-th root of a prime. -/
def rootBits (k p : Nat) : Nat := rootFloor k (p * 2 ^ (32 * k)) 35 0 % 2 ^ 32

/-- The 64 round constants: of the cube roots of the first 64 primes. -/
def shaK : List Nat := shaPrimes.map (rootBits 3)

/-- The initial hash value: of the square roots of the first 8 primes. -/
def shaInit : List Word := (shaPrimes.take 8).map fun p => BitVec.ofNat 32 (rootBits 2 p)

/-- The big-endian word of four bytes. -/
def wordBe (bs : Bytes) (i : Nat) : Word := BitVec.ofNat 32 (leNat ((bs.drop (4 * i)).take 4).reverse)

/-- The message padded to a multiple of 64 bytes. -/
def shaPad (m : Bytes) : Bytes := m ++ [0x80#8] ++ List.replicate ((119 - m.length % 64) % 64) 0#8 ++ (natLe 8 (8 * m.length)).reverse

/-- The message schedule extended by words, the newest first. -/
def shaSchedule : Nat → List Word → List Word
  | 0, w => w
  | n + 1, w =>
    let g := fun i => w.getD i 0#32
    let s0 := (g 14).rotateRight 7 ^^^ (g 14).rotateRight 18 ^^^ (g 14 >>> 3)
    let s1 := (g 1).rotateRight 17 ^^^ (g 1).rotateRight 19 ^^^ (g 1 >>> 10)
    shaSchedule n ((g 15 + s0 + g 6 + s1) :: w)

/-- One round. -/
def shaRound (h : List Word) (k : Nat) (w : Word) : List Word :=
  match h with
  | [a, b, c, d, e, f, g, x] =>
    let s1 := e.rotateRight 6 ^^^ e.rotateRight 11 ^^^ e.rotateRight 25
    let t1 := x + s1 + ((e &&& f) ^^^ (~~~e &&& g)) + BitVec.ofNat 32 k + w
    let s0 := a.rotateRight 2 ^^^ a.rotateRight 13 ^^^ a.rotateRight 22
    [t1 + s0 + ((a &&& b) ^^^ (a &&& c) ^^^ (b &&& c)), a, b, c, d + t1, e, f, g]
  | _ => h

/-- One block. -/
def shaBlock (h : List Word) (bs : Bytes) : List Word :=
  let w := (shaSchedule 48 ((List.range 16).map (wordBe bs)).reverse).reverse
  let r := (shaK.zip w).foldl (fun h x => shaRound h x.1 x.2) h
  (h.zip r).map fun x => x.1 + x.2

/-- The blocks of a padded message, one after another. -/
def shaBlocks : Nat → Bytes → List Word → List Word
  | 0, _, h => h
  | n + 1, bs, h => shaBlocks n (bs.drop 64) (shaBlock h (bs.take 64))

/-- The SHA-256 digest of a message. -/
def sha256 (m : Bytes) : Bytes :=
  let p := shaPad m
  (shaBlocks (p.length / 64) p shaInit).flatMap fun w => (natLe 4 w.toNat).reverse

end Sys2Proof.Machine
end

