-- ==== Sys2Proof/Machine/CollEvents.lean ====
section
/-!
DEFINITION. Collectives and multicasts after their commands start (R310 to R321): the group and its descriptors, the source chunks sent, the reduction of a
slot and its test, the chunks landed, and the finish.
-/
namespace Sys2Proof.Machine
open Sys2Proof

/-! ## Failure (R318, R332) -/

/-- A collective or dispatch command fails: its cancel goes to the other members, and its token is poisoned. -/
def State.failPod (s : State) (o : Op) (c : BitVec 8) : State := (s.sendCancel o c.toNat).finishOp o.id .poison c

/-- What a read by a collective, multicast or dispatch command leads to. -/
def State.podGot (s : State) (o : Op) (g : Got) (f : Bytes → State) : State := match g with
  | .ok b => f b
  | .wait s => s
  | .halted s => s
  | .fail c => s.failPod o c

/-- What a write by such a command leads to. -/
def State.podPut (s : State) (o : Op) (g : Put) (f : State → State) : State := match g with
  | .ok s => f s
  | .wait s => s
  | .halted s => s
  | .fail c => s.failPod o c

/-- 2-byte device entries of a list. -/
def entries16 (bs : Bytes) : List Nat := (List.range (bs.length / 2)).map fun i => fieldLe bs (2 * i) 2

/-- A number put in its place in an ascending list. -/
def insertNat (x : Nat) : List Nat → List Nat
  | [] => [x]
  | y :: ys => if x ≤ y then x :: y :: ys else y :: insertNat x ys

/-- A list in ascending order. -/
def sortNat (l : List Nat) : List Nat := l.foldr insertNat []

/-! ## The group (R315, R318) -/

/-- Keys of a command's own reads: its tables and lists, its inputs, results and error records. -/
def podKey (k i : Nat) : Nat := 2 ^ 80 * (k + 1) + i

/-- The coordinates of a rank (R315). -/
def coordOf (bs : Bytes) (rank k : Nat) : Nat :=
  let d0 := fieldLe bs 0x80 2
  let d1 := fieldLe bs 0x82 2
  match k with
  | 0 => rank % d0
  | 1 => rank / d0 % d1
  | _ => rank / (d0 * d1)

/-- The ranks of a rank's group, in ascending group index (R315). -/
def groupRanks (bs : Bytes) (rank : Nat) : List Nat :=
  (List.range (collRanks bs)).filter fun r => [0, 1, 2].all fun k => collMask bs k || coordOf bs r k == coordOf bs rank k

/-- N, the chunks of a member's source (R316). -/
def collN (bs : Bytes) : Nat := (shapeOf bs).total / 512

/-- The descriptor that a member sends (R288). -/
def collDesc (o : Op) (members : List Nat) : Bytes :=
  natLe 4 o.cid ++ natLe 4 o.ordn ++ sliceBytes o.recd 0x80 6 ++ sliceBytes o.recd 0x86 2 ++ natLe 1 (shapeOf o.recd).fmt ++ natLe 7 0 ++
  natLe 8 (shapeOf o.recd).total ++ sha256 (members.flatMap fun d => natLe 2 d)

/-- A member's own group index. -/
def Op.ownIdx (o : Op) (dev : Nat) : Nat := o.members.findIdx fun d => d == dev

/-- The members known, and the descriptor sent to the others (R318, R331). -/
def State.joinGroup (s : State) (o : Op) (members : List Nat) (subtype : Nat) (desc : Bytes) : State :=
  let peers := members.filter fun d => d != s.devid
  let s := peers.foldl (fun s d => s.sendMgmt d subtype o.asid desc) s
  s.modOp o.id fun o => { o with members := members, peers := peers, stage := 1 }

/-- The members that a command's list names, in no order: the group of a `COLL`'s rank, or all that a dispatch lists. -/
def listedMembers (o : Op) (bs : Bytes) : List Nat := match o.kind with
  | .coll => (groupRanks o.recd ((o.args.headD 0#32).toNat % 1024)).map fun r => (entries16 bs).getD r 0
  | _ => entries16 bs

/-- The other members become known as the list is read, so that a failure from here on reaches them (R318, R332); a command whose task has ended meanwhile
sends its cancel now (R377). -/
def State.knowPeers (s : State) (o : Op) (list : Bytes) : State × Op :=
  let peers := ((listedMembers o list).filter fun d => d != s.devid && decide (d < 1024)).eraseDups
  let o' := { o with peers := peers }
  if o.peers == peers then (s, o)
  else
    let s := s.modOp o.id fun x => { x with peers := peers }
    (if (s.launch? o.launch).any (fun l => l.ended.isSome) then s.sendCancel o' 0x90 else s, o')

/-- What a `COLL` reads after its start: the rank table and the headers of its lists and trace (R236, R313, R317, R318). -/
def State.prepareColl (s : State) (o : Op) : State :=
  let bs := o.recd
  let h := shapeOf bs
  let arg := (o.args.headD 0#32).toNat
  s.podGot o (s.engineGet o (podKey 0 0) (fieldLe bs 0x88 8) (2 * collRanks bs)) fun table =>
    let devs := entries16 table
    let (s, o) := s.knowPeers o table
    if arg / 2 ^ 10 ≠ 0 ∨ collRanks bs ≤ arg ∨ (devs.any fun d => decide (1024 ≤ d)) ∨ devs.getD arg 1024 ≠ s.devid ∨ !distinct devs then s.failPod o 0x63#8
    else s.podGot o (s.listHeader o h.badl 8 (podKey 0 1)) fun _ => s.podGot o (s.listHeader o (fieldLe bs 0x98 8) 16 (podKey 0 2)) fun _ =>
      let traced := match s.launch? o.launch with
        | some l => collOrd bs == 0 || s.leased l (if collOrd bs = 1 then rightsWr else rightsRd) (fieldLe bs 0x90 8) (2 * collG bs * collN bs)
        | none => true
      if !traced then s.engineEnds o 1 (fieldLe bs 0x90 8)
      else
        let members := (groupRanks bs arg).map fun r => devs.getD r 0
        s.joinGroup o members 5 (collDesc o members)

/-- A member's descriptor of a command, by its CID or DID and its ordinal, once it has come (R318, R322). -/
def State.descOf (s : State) (o : Op) (subtype : Nat) (dev kind : Nat) : Option Packet :=
  (preferFrom o.asid (s.descs.filter fun p => p.aux.toNat == subtype && p.src.toNat == dev && fieldLe p.data 0 4 == o.cid && fieldLe p.data 4 4 == o.ordn &&
    (subtype == 5 || fieldLe p.data 14 1 == kind))).head?

/-- The descriptors of the other members compared with this member's (R288, R318): the command goes on when all have come and agree. -/
def State.agree (s : State) (o : Op) (subtype kind : Nat) (own : Bytes) : State :=
  let ds := o.peers.map fun d => s.descOf o subtype d kind
  if ds.any fun d => match d with
      | some p => p.data != own
      | none => false then s.failPod o 0x62#8
  else if ds.all Option.isSome then
    State.modOp { s with descs := s.descs.filter fun p => !ds.contains (some p) } o.id fun o => { o with stage := 2 }
  else s

/-! ## Landing (R227, R229, R313, R316, R319) -/

/-- A destination chunk put in its place: in the team's scratchpad, which may stand in its save area, or in memory; with its generated check. -/
def State.putDest (s : State) (o : Op) (d : Nat) (bs : Bytes) (check : Nat × Nat) : Put :=
  let h := shapeOf o.recd
  let t := s.opTeam o
  let at_ := h.dstAt 0 + 512 * d
  let r : Put := if h.dkind = 1 then
      .ok ((s.homeWrite o.asid (s.spadAt t at_) bs).presentLine t o.id (at_ / 512))
    else s.enginePut o (podKey 1 d) at_ h.fmt true bs
  match r with
  | .ok s => if h.ckg then s.enginePut o (podKey 2 d) (h.ckout + 16 * d) 10 false (checkBytes check) else .ok s
  | r => r

/-- A chunk of the destination lands, as its bytes or, when it is bad, as zeros with its entry and error record (R313). `finder` is 0 for a good chunk. -/
def State.landDest (s : State) (o : Op) (d orig finder : Nat) (red : Bool) (bs : Bytes) : Put :=
  let h := shapeOf o.recd
  let bs := if finder = 0 then bs else List.replicate 512 0#8
  match s.putDest o d bs (if finder = 0 then chunkCheck h.fmt bs else (0, 0)) with
  | .ok s =>
    let r := errRecord o.cid h.xtag orig d finder
    let s := if finder = 0 then s else (s.putBuf o.id (podKey 3 d) finder r).logError o.asid r
    let o := (s.op? o.id).getD o
    .ok (s.chunkLanded o [o] (s.opTeam o).core none d 512 o.nchunk (if finder = 0 then 0 else badReason red finder))
  | r => r

/-! ## The source (R316) -/

/-- The chunk of a source sequence that a command reads (R223, R319). -/
def State.sourceChunk (s : State) (o : Op) (i n : Nat) : Got :=
  let h := shapeOf o.recd
  let ps := h.chunkPieces (h.srcAt 0) (512 * i) n
  if h.skind = 1 then .ok (ps.flatMap fun (a, k) => getBytes s.mem (s.spadAt (s.opTeam o) a.toNat) k)
  else s.engineGetAll o (podKey 4 (i * 1024)) (ps.map fun (a, k) => ((a % (2 ^ 64 : Nat)).toNat, k))

/-- Where a source chunk goes: the member, the index there, and whether it is an input of a reduction (R316). -/
def collTargets (bs : Bytes) (own i : Nat) : List (Nat × Nat × Bool) :=
  let g := collG bs
  let part := collN bs / g
  let all := fun (d : Nat) => (List.range g).map fun j => (j, d, false)
  if collOp bs ≠ 0 then [(if collScat bs then i / part else i % g, i, true)]
  else if collScat bs then [(i / part, own * part + i % part, false)]
  else if collRoot bs then (if own = 0 then all i else [])
  else all (own * collN bs + i)

/-- The ADDR of a collective chunk (R285). -/
def collAddr (cid idx sender : Nat) : Nat := cid + idx * 2 ^ 32 + sender * 2 ^ 52

/-- An input of a reduction has come: from a member, for a slot, bad when it has a finder word. -/
def State.addInput (s : State) (o : Op) (g slot finder : Nat) (bs : Bytes) : State :=
  (s.modOp o.id fun o => { o with got := o.got ++ [(g, slot, [])] }).putBuf o.id (podKey 5 (slot * 1024 + g)) finder bs

/-- A source chunk delivered to its targets, one after another; the first that has to wait stops it. `tag` is that of a chunk that came bad from another
device: it travels on as it is (R309). -/
def deliverChunk (o : Op) (own tag : Nat) (bs : Bytes) : List (Nat × Nat × Bool) → State → Put
  | [], s => .ok s
  | (j, d, input) :: rest, s =>
    let f := tag % 2 ^ 32
    if j = own then
      if input then deliverChunk o own tag bs rest (s.addInput o own d f bs)
      else match s.landDest o d (tag / 2 ^ 32) f false bs with
        | .ok s => deliverChunk o own tag bs rest s
        | r => r
    else match s.sendChunk (o.members.getD j 0) (collAddr o.cid d own) (shapeOf o.recd).fmt (if f = 0 then none else some f) false 0 bs (.chunk o.id (podKey 6 d))
        o.asid o.grp with
      | (s, true) => deliverChunk o own tag bs rest s
      | (_, false) => .fail 0x61#8

/-- The member number that marks a source chunk as read, and the one that marks a slot as reduced. -/
def readMark : Nat := 2000
/-- A slot reduced here. -/
def slotMark : Nat := 2001

/-- A source chunk read and sent (R318). The members that this device stands for come first in the order of its targets, so that a wait sends nothing. -/
def State.readColl (s : State) (o : Op) (i : Nat) : State :=
  let own := o.ownIdx s.devid
  let ts := collTargets o.recd own i
  if collN o.recd ≤ i ∨ ts.isEmpty ∨ o.got.contains (readMark, i, []) ∨ !s.rtxRoom ts.length then s
  else s.podGot o (s.sourceChunk o i 512) fun bs =>
    s.podPut o (deliverChunk o own (o.tagIn (podKey 4 (i * 1024) * 2 ^ 20) (2 ^ 30)) bs ((ts.filter fun t => t.1 == own) ++ ts.filter fun t => t.1 != own) s) fun s =>
      s.modOp o.id fun o => { o with got := o.got ++ [(readMark, i, [])] }

/-! ## The reduction (R310, R317) -/

/-- A value rounded to binary64. -/
def rnd64 (v : Val) : Val := fmtF64.decode (fmtF64.arith .rne v).1

/-- A sum in binary64. -/
def add64 (a b : Val) : Val := rnd64 (a.add .rne b).1
/-- A product in binary64. -/
def mul64 (a b : Val) : Val := rnd64 (a.mul b).1

/-- A natural number times a power of two, exactly. -/
def natVal (n : Nat) (e : Int) : Val := .fin false n e

/-- Is a value at most another? -/
def Val.le (a b : Val) : Bool := match a.cmp b with
  | some .gt => false
  | some _ => true
  | none => false

/-- Is a value finite? -/
def Val.isFin : Val → Bool
  | .fin _ _ _ => true
  | _ => false

/-- A sum of values in binary64, in order. -/
def sum64 (xs : List Val) : Val := match xs with
  | [] => natVal 0 0
  | x :: rest => rest.foldl add64 x

/-- Precision of a format: p of R151. -/
def Fmt.prec (f : Fmt) : Nat := f.mbits + 1

/-- The elements of a chunk as FP32 codes, exactly. -/
def chunkF32 (fmt : Nat) (bs : Bytes) : List Nat :=
  let w := fmtWidth fmt
  (elements bs w (4096 / w)).map fun c => (fmtF32.arith .rne (elemVal fmt c false)).1

/-- One element's accumulation of a further input; the flag tells an overflow of FP32 (R317). -/
def reduceStep (op : Nat) (acc : Nat × Bool) (x : Nat) : Nat × Bool :=
  let r := match op with
    | 1 => fmtF32.fadd .rne acc.1 x
    | 2 => fminmax false acc.1 x
    | _ => fminmax true acc.1 x
  (r.1, acc.2 || r.2 &&& flagOF != 0#5)

/-- Inputs accumulated element by element, in order. -/
def reduceAll (op : Nat) : List (Nat × Bool) → List (List Nat) → List (Nat × Bool)
  | acc, [] => acc
  | acc, xs :: rest => reduceAll op ((acc.zip xs).map fun (a, x) => reduceStep op a x) rest

/-- The output of a reduction from FP32 accumulators: its bytes, and whether an element overflowed FP32 or saturated in the format. -/
def narrowChunk (fmt : Nat) (acc : List (Nat × Bool)) : Bytes × Bool :=
  let w := fmtWidth fmt
  let outs := acc.map fun (a, ov) => if fmt = 0 then (a, ov) else
    let r := encodeElem fmt .rne false (fmtF32.decode a)
    (r.1, ov || r.2 &&& flagOF != 0#5)
  let v := outs.foldr (fun x n => n * 2 ^ w + x.1) 0
  (natLe 512 v, outs.any fun x => x.2)

/-- The test of R310 once its special cases are out of the way. -/
def sumTest (op fmt n m : Nat) (sOut aOut : Val) (ins : List (Val × Val)) : Bool :=
  let f := (fmtOf fmt).getD fmtF32
  let aIn := sum64 (ins.map (·.2))
  let k := 2 * n.log2 + 2 * m + 4
  if op = 1 then
    let tau := add64 (natVal m (-(f.prec : Int))) (natVal k (-53))
    let rhs := add64 (mul64 tau aIn) (natVal (n * m) (f.emin - f.prec))
    (add64 sOut (sum64 (ins.map (·.1))).neg).abs.le rhs
  else
    let sigma := mul64 (natVal k (-53)) aIn
    let ss := ins.map (·.1)
    let best := ss.foldl (fun (b : Val) v => if op = 3 then (if b.le v then v else b) else (if v.le b then v else b)) (ss.headD (natVal 0 0))
    if op = 3 then (add64 best sigma.neg).le sOut && sOut.le (add64 aIn sigma) && aOut.isFin
    else (add64 aIn sigma).neg.le sOut && sOut.le (add64 best sigma)

/-- Does the output of a reduction pass (R310)? -/
def reduceOk (op fmt n : Nat) (out : Bytes) (special : Bool) (ins : List Bytes) : Bool :=
  let val := fun (c : Nat × Nat) => (fmtF64.decode c.1, fmtF64.decode c.2)
  let o := val (chunkCheck fmt out)
  let is := ins.map fun b => val (chunkCheck fmt b)
  if is.any fun i => !i.2.isFin then !o.2.isFin
  else if special then true
  else o.1.isFin && o.2.isFin && sumTest op fmt n ins.length o.1 o.2 is

/-- The order in which a slot's inputs are combined: that of their arrival, or that of the trace (R317). -/
def State.slotOrder (s : State) (o : Op) (slot : Nat) : Got :=
  let g := collG o.recd
  let arrived := (o.got.filter fun x => x.2.1 == slot && decide (x.1 < 1024)).map (·.1)
  let trc := fieldLe o.recd 0x90 8 + 2 * g * slot
  match collOrd o.recd with
  | 2 => match s.engineGet o (podKey 7 slot) trc (2 * g) with
    | .ok bs => if (entries16 bs).all (fun e => decide (e < g)) && distinct (entries16 bs) then .ok bs else .fail 0x64#8
    | r => r
  | _ => .ok (arrived.flatMap fun e => natLe 2 e)

/-- The result of a slot: its bytes, the finder word when it is bad, and the member whose chunk was bad (R310, R313, R317). -/
def reduceSlot (dev : Nat) (o : Op) (own slot : Nat) (order : List Nat) : Bytes × Nat × Nat :=
  let h := shapeOf o.recd
  let ins := order.map fun g => (g, (o.buf (podKey 5 (slot * 1024 + g))).getD (0, []))
  match ins.find? fun x => x.2.1 != 0 with
  | some (g, f, _) => (List.replicate 512 0#8, f, g)
  | none =>
    let acc := match ins with
      | [] => []
      | x :: rest => reduceAll (collOp o.recd) ((chunkF32 h.fmt x.2.2).map fun e => (e, false)) (rest.map fun y => chunkF32 h.fmt y.2.2)
    let (out, special) := narrowChunk h.fmt acc
    let sorted := (List.range (collG o.recd)).filterMap fun g => (ins.find? fun x => x.1 == g).map fun x => x.2.2
    if reduceOk (collOp o.recd) h.fmt (4096 / fmtWidth h.fmt) out special sorted then (out, 0, own)
    else (List.replicate 512 0#8, finder dev 63 1 3, own)

/-- A slot's result sent to the members that receive it. -/
def sendResult (o : Op) (slot orig finder : Nat) (bs : Bytes) : List Nat → State → Put
  | [], s => .ok s
  | d :: rest, s =>
    match s.sendChunk d (collAddr o.cid slot orig) (shapeOf o.recd).fmt (if finder = 0 then none else some finder) true 0 bs (.chunk o.id (podKey 8 slot)) o.asid
        o.grp with
    | (s, true) => sendResult o slot orig finder bs rest s
    | (_, false) => .fail 0x61#8

/-- The reduction home of a slot (R316). -/
def slotHome (bs : Bytes) (slot : Nat) : Nat := if collScat bs then slot / (collN bs / collG bs) else slot % collG bs

/-- A slot homed here is reduced, its trace recorded, and its result landed and sent (R310, R316, R317). -/
def State.reduce (s : State) (o : Op) (slot : Nat) : State :=
  let bs := o.recd
  let own := o.ownIdx s.devid
  let g := collG bs
  let here := (o.got.filter fun x => x.2.1 == slot && decide (x.1 < 1024)).length
  if collOp bs = 0 ∨ o.stage ≠ 2 ∨ collN bs ≤ slot ∨ slotHome bs slot ≠ own ∨ here < g ∨ o.got.contains (slotMark, slot, []) ∨ !s.rtxRoom g then s
  else s.podGot o (s.slotOrder o slot) fun ord =>
    let (out, f, orig) := reduceSlot s.devid o own slot (entries16 ord)
    let d := if collScat bs then slot % (collN bs / g) else slot
    let trace : Put := if collOrd bs = 1 then s.enginePut o (podKey 9 slot) (fieldLe bs 0x90 8 + 2 * g * slot) 10 false ord else .ok s
    s.podPut o trace fun s =>
      s.podPut o (s.landDest o d (o.members.getD orig 0) f true out) fun s =>
        s.podPut o (sendResult o slot orig f out (if collScat bs then [] else o.peers) s) fun s =>
          let s := s.count 0xFFFF o.asid 0 0x106 1
          let s := if bitsOf f 24 8 = 3 && f % 1024 == s.devid then s.count 0xFFFF o.asid 0 0x105 1 else s
          s.modOp o.id fun o => { o with got := (o.got.filter fun x => !(x.2.1 == slot && decide (x.1 < 1024))) ++ [(slotMark, slot, [])]
                                         bufs := o.bufs.filter fun b => decide (b.1 < podKey 5 (slot * 1024) ∨ podKey 5 (slot * 1024 + 1024) ≤ b.1) }

/-! ## Chunks that arrive (R309, R313, R316, R318) -/

/-- Does a collective expect a chunk from a sender: one of its inputs, or one of its destination chunks, that it has not taken yet? -/
def Op.expects (o : Op) (p : Packet) : Bool :=
  let d := bitsOf p.addr.toNat 32 20
  let g := bitsOf p.addr.toNat 52 10
  o.kind == .coll && o.started && decide (1 ≤ o.stage) && o.cid == p.addr.toNat % 2 ^ 32 && o.peers.contains p.src.toNat &&
  decide (g < o.members.length) &&
  (if collOp o.recd ≠ 0 ∧ !bitOf p.cf.toNat 2 then !(o.got.contains (g, d, [])) && !(o.got.contains (slotMark, d, [])) && decide (d < collN o.recd)
   else decide (d < o.nchunk) && !o.landed.contains d)

/-- The collective that a chunk belongs to: the earliest that expects it (log entry 30). -/
def State.collFor (s : State) (p : Packet) : Option Op :=
  (preferOf p.sasid.toNat (s.ops.filter fun o => o.expects p)).foldl (fun b o => match b with
    | none => some o
    | some x => if o.ordn < x.ordn then some o else some x) none

/-- A chunk taken by a collective: as an input, or landed and answered. -/
def State.takeColl (s : State) (o : Op) (p : Packet) : State :=
  let d := bitsOf p.addr.toNat 32 20
  let g := bitsOf p.addr.toNat 52 10
  let f := if chunkBad p then p.sqf.toNat else 0
  let red := bitOf p.cf.toNat 2
  let ack := fun (s : State) => s.answerKept p 7 (if chunkBad p then 1 else 0) []
  if collOp o.recd ≠ 0 ∧ !red then ack (s.addInput o g d f p.data)
  else match s.landDest o d (o.members.getD g 0) f red p.data with
    | .ok s => ack { s with inbox := s.inbox.filter fun x => x != (o.id, p) }
    | .wait s => if s.inbox.contains (o.id, p) then s else { s with inbox := s.inbox ++ [(o.id, p)] }
    | .halted s => s
    | .fail c => s.failPod o c

/-- The next execution of a collective's chunk: its preparation, the comparison of descriptors, a source chunk, or a held chunk landed. -/
def State.landColl (s : State) (o : Op) (i : Nat) : State :=
  if !o.started then s
  else if o.fail != 0#8 then s.failPod o o.fail
  else match o.stage with
    | 0 => s.prepareColl o
    | 1 => s.agree o 5 0 (collDesc o o.members)
    | _ =>
      if i < collN o.recd then s.readColl o i
      else match ((s.inbox.filter fun x => x.1 == o.id).drop (i - collN o.recd)).head? with
        | some (_, p) => s.takeColl o p
        | none => s

/-- The error records of a command's bad chunks, in ascending index (R313). -/
def errRecords (o : Op) (n : Nat) : List Bytes := (List.range n).filterMap fun i => (o.buf (podKey 3 i)).map (·.2)

/-- A command's lists updated: its bad-chunk list, then its error-record list; `ok` when both are (R236, R313). -/
def State.podLists (s : State) (o : Op) (errl : Nat) (bad errs : List Bytes) : Got :=
  match s.listUpdate o (shapeOf o.recd).badl 8 0 (podKey 10 0) bad with
  | .ok _ => s.listUpdate o errl 16 0 (podKey 11 0) errs
  | r => r

/-- A member's collective finishes (R318). -/
def State.finishColl (s : State) (o : Op) : State :=
  let own := o.ownIdx s.devid
  let n := collN o.recd
  let read := (List.range n).all fun i => (collTargets o.recd own i).isEmpty || o.got.contains (readMark, i, [])
  let reduced := collOp o.recd == 0 || (List.range n).all fun i => slotHome o.recd i != own || o.got.contains (slotMark, i, [])
  if !o.started || o.stage != 2 || s.opWaits o.id then s
  else if o.fail != 0#8 then s.failPod o o.fail
  else if decide (o.landed.length < o.nchunk) || !read || !reduced then s
  else s.podGot o (s.podLists o (fieldLe o.recd 0x98 8) (badEntries (shapeOf o.recd).xtag o.bad o.nchunk) (errRecords o o.nchunk)) fun _ =>
    (s.relFor o).finishOp o.id (if o.bad.isEmpty then .done else .doneBad) 0#8

/-! ## Multicast (R320, R321) -/

/-- The group of a multicast. -/
def Op.mcGroup (o : Op) : Nat := (o.args.headD 0#32).toNat % 2 ^ 16

/-- What an `MCST` reads after its start: its members and the headers of its lists. -/
def State.prepareMcst (s : State) (o : Op) : State :=
  let n := fieldLe o.recd 0x80 1
  s.podGot o (s.engineGet o (podKey 0 0) (fieldLe o.recd 0x88 8) (2 * n)) fun bs =>
    let ms := entries16 bs
    if ms.any (fun d => decide (1024 ≤ d)) || !distinct ms then s.failPod o 0x40#8
    else s.podGot o (s.listHeader o (shapeOf o.recd).badl 8 (podKey 0 1)) fun _ => s.podGot o (s.listHeader o (fieldLe o.recd 0x90 8) 16 (podKey 0 2)) fun _ =>
      s.modOp o.id fun o => { o with members := ms, stage := 2 }

/-- Is a byte of this device pinned with WR for a launch of a context (R54)? A multicast that reaches its own device finds its grant in that pin (log entry
31). -/
def State.selfGranted (s : State) (asid pa : Nat) : Bool :=
  s.launches.any fun l => l.asid == asid && l.pins.any fun p => p.dev == s.devid && p.wr && decide (p.frame ≤ pa ∧ pa < p.frame + p.span)

/-- A chunk's bytes as they are written: zeros for a bad one (R313). -/
def landedBytes (p : Packet) : Bytes := if chunkBad p then List.replicate p.data.length 0#8 else p.data

/-- A multicast's chunk that reaches another member: written, written as zeros, or denied; the counts are its bad and denied chunks (R313, R321). -/
def State.landMc (s : State) (p : Packet) : State × Nat × Nat :=
  match s.entry p (paOf p) p.data.length rightsWr true with
  | .refused c code => (s.logDenied p (paOf p) c code, 0, 1)
  | _ =>
    let s := s.homeWrite 0x200 (paOf p) (landedBytes p)
    if chunkBad p then
      let (xtag, idx) := Config.strayChunk p.src.toNat p.txid.toNat
      (s.logError 0xFFFF (errRecord 0 xtag p.src.toNat idx p.sqf.toNat), 1, 0)
    else (s, 0, 0)

/-- Chunk `i` of a multicast reaches the device that sends it, over its internal path (R309, R321): the sender knows which of its own chunks was bad. -/
def State.landOwn (s : State) (o : Op) (i : Nat) (p : Packet) : State :=
  let pa := paOf p
  let n := p.data.length
  let own := o.members.findIdx fun d => d == s.devid
  if !(s.selfGranted o.asid pa && s.selfGranted o.asid (pa + n - 1)) then (s.logDenied p pa 0x60 0).modOp o.id fun o => { o with skip := o.skip + 1 }
  else if s.lostIn pa n then (s.logDenied p pa 8 5).modOp o.id fun o => { o with skip := o.skip + 1 }
  else
    let (s, p) := s.egress p
    let s := (s.dropExtent (s.opCluster o) pa n).homeWrite o.asid pa (landedBytes p)
    if chunkBad p then
      let r := errRecord 0 (shapeOf o.recd).xtag s.devid (own * 2 ^ 20 + i) p.sqf.toNat
      (((s.modOp o.id fun o => { o with bad := o.bad ++ [(i, badReason false p.sqf.toNat)] }).putBuf o.id (podKey 3 i) p.sqf.toNat r).logError o.asid r)
    else s

/-- The bytes of a member's answer: its bad chunks and its denied ones (R287). -/
def mcStatus (bad denied : Nat) : Nat := if denied ≠ 0 then 2 else if bad ≠ 0 then 1 else 0

/-- A multicast chunk that arrives (R296, R321): it is counted for its command, and after the last one the member answers. A duplicate is dropped, and a
duplicate of the last is answered again (R302). -/
def State.takeMc (s : State) (p : Packet) : State :=
  match s.kept? p with
  | some a => if a.ty = 0#8 then s.count 0xFFFF 0x200 0 0x104 1 else s.answerAgain a
  | none =>
    if s.inMigration (paOf p) then s.holdPacket p
    else
      let (s, p) := s.egress p
      let (s, b, d) := s.landMc p
      let key := fun (x : Nat × Nat × Nat × Nat) => x.1 == p.src.toNat && x.2.1 == p.dst.toNat
      let (b0, d0) := match s.mcIn.find? key with
        | some x => (x.2.2.1, x.2.2.2)
        | none => (0, 0)
      let rest := s.mcIn.filter fun x => !key x
      if Config.multicastLast p.dst.toNat p.txid.toNat then
        State.answerKept { s with mcIn := rest } p 7 (mcStatus (b0 + b) (d0 + d)) (natLe 4 (b0 + b) ++ natLe 4 (d0 + d))
      else
        { s with mcIn := (p.src.toNat, p.dst.toNat, b0 + b, d0 + d) :: rest
                 ccache := s.ccache ++ [(p.src.toNat, p.txid.toNat, { p with ty := 0#8, data := [] }, s.timeNs)] }

/-- A member's answer recorded: status, bad chunks and denied chunks. -/
def State.mcAnswer (s : State) (o : Op) (member status bad denied : Nat) : State :=
  if o.got.any fun x => x.1 == member && x.2.1 == 0 then s
  else s.modOp o.id fun o => { o with got := o.got ++ [(member, 0, [status, bad, denied])] }

/-- Is a request a chunk of a multicast whose last chunk is still to be sent, so that no answer to it is due (R287, R321)? -/
def State.mcOpen (s : State) (r : Req) : Bool := match r.owner with
  | .mcast id => (s.op? id).any fun o => decide (o.landed.length < chunksOf (shapeOf o.recd).total)
  | _ => false

/-- Has the retransmit buffer room for a multicast's next chunk (R298)? While it is full the chunk waits for the answer of another request; where no entry
has an answer due before a multicast's last chunk, the buffer holds that chunk too (log entry 159). -/
def State.mcRoom (s : State) : Bool := s.rtxRoom 1 || s.rtx.all s.mcOpen

/-- A multicast's chunk as it is sent: bad when its source came bad (R309). -/
def mcChunk (s : State) (o : Op) (pa : Nat) (tag : Nat) (bs : Bytes) : Packet :=
  let h := shapeOf o.recd
  let c := chunkCheck h.fmt bs
  let f := tag % 2 ^ 32
  { ty := 9#8, vc := 2#8, rf := 8#8, cf := if f = 0 then 1#8 else 3#8, src := BitVec.ofNat 16 s.devid, dst := BitVec.ofNat 16 o.mcGroup
    sasid := BitVec.ofNat 16 o.asid, txid := BitVec.ofNat 32 s.nextId, addr := BitVec.ofNat 64 pa, len := BitVec.ofNat 16 bs.length, sqf := BitVec.ofNat 32 f
    data := bs, chkS := BitVec.ofNat 64 c.1, chkA := BitVec.ofNat 64 c.2, fmt := BitVec.ofNat 4 h.fmt }

/-- A multicast has sent its last chunk: the time in which its answers are due begins (R302), and its own device answers (R321). -/
def State.mcSent (s : State) (o : Op) : State :=
  let s := { s with rtx := mapIf (fun r => r.owner == ReqFor.mcast o.id) (fun r => { r with sentAt := s.timeNs }) s.rtx }
  let entry := s.mcastEntry o.mcGroup
  if bitOf entry 63 && bitOf entry 32 && o.members.contains s.devid then
    s.mcAnswer o (o.members.findIdx fun d => d == s.devid) (mcStatus o.bad.length o.skip) o.bad.length o.skip
  else s

/-- A multicast's chunk read and sent to its group, and kept for re-sending (R298, R321). With the last, the command waits for its members' answers. -/
def State.sendMc (s : State) (o : Op) (i : Nat) : State :=
  let h := shapeOf o.recd
  let n := chunksOf h.total
  let len := min 512 (h.total - 512 * i)
  if n ≤ i ∨ o.landed.contains i ∨ !s.fabricOpen ∨ !s.mcRoom then s
  else s.podGot o (s.sourceChunk o i len) fun bs =>
    match s.extent o.launch o.asid rightsWr true (h.dstAt 0 + 512 * i) len with
    | .stop c a => s.engineEnds o c a
    | .hold page light => s.holdFor o.asid page light true
    | .closed => s.failPod o 0x50#8
    | .ok segs =>
      let local_ := match segs.head? with
        | some (.remote _ pa, _) => pa
        | some (.home pa, _) => pa
        | some (.window pa, _) => pa
        | some (.host pa, _) => pa
        | _ => 0
      let p := mcChunk s o local_ (o.tagIn (podKey 4 (i * 1024) * 2 ^ 20) (2 ^ 30)) bs
      let s := s.bump.injectCopies p
      let r : Req := { pkt := p, sentAt := s.timeNs, owner := .mcast o.id, asid := o.asid, grp := o.grp }
      let s : State := { s with rtx := s.rtx ++ [r] }
      let s := s.modOp o.id fun o => { o with landed := o.landed ++ [i] }
      let s := if bitOf (s.mcastEntry o.mcGroup) 63 && bitOf (s.mcastEntry o.mcGroup) 32 then s.landOwn o i p else s
      if o.landed.length + 1 < n then s else s.mcSent ((s.op? o.id).getD o)

/-- The next execution of a multicast's chunk. -/
def State.landMcst (s : State) (o : Op) (i : Nat) : State :=
  if !o.started then s
  else if o.fail != 0#8 then s.failPod o o.fail
  else if o.stage = 0 then s.prepareMcst o
  else s.sendMc o i

/-- Has every member of a multicast answered? -/
def Op.mcDone (o : Op) : Bool := (List.range o.members.length).all fun j => o.got.any fun x => x.1 == j

/-- A member's answer to a multicast arrives (R321): one from a device outside the list is logged and ignored. -/
def State.mcReply (s : State) (o : Op) (r : Req) (p : Packet) : State :=
  if !o.members.contains p.src.toNat then s.logEvent 0x000B 0xFFFF (natLe 2 p.src.toNat)
  else
    let s := s.mcAnswer o (o.members.findIdx fun d => d == p.src.toNat) (p.aux.toNat % 256) (fieldLe p.data 0 4) (fieldLe p.data 4 4)
    match s.op? o.id with
    | some o => if o.mcDone then State.answered ({ s with rtx := s.rtx.filter fun x => x.owner != ReqFor.mcast o.id } : State) r.pkt.txid else s
    | none => s

/-- The bad chunks of a multicast, by member: index, reason, the device that sent it and its finder word (R321). This device's own are known as they landed;
of another member's the answer gives the number alone (log entry 18). -/
def mcBad (dev : Nat) (o : Op) : List (Nat × Nat × Nat × Nat) :=
  let n := chunksOf (shapeOf o.recd).total
  (o.members.zipIdx.flatMap fun (d, j) =>
    if d = dev then (sortNat (o.bad.map (·.1))).map fun i => (j * 2 ^ 20 + i, ((o.bad.find? fun b => b.1 == i).map (·.2)).getD 0, dev, ((o.buf (podKey 3 i)).map (·.1)).getD 0)
    else match o.got.find? fun x => x.1 == j with
      | some (_, _, [_, b, _]) => (List.range b).map fun k =>
          let x := Config.multicastBad o.id j k
          (j * 2 ^ 20 + x.1 % n, 0x10 + x.2.1 % 3, x.2.2.1 % 1024, x.2.2.2 % 2 ^ 32)
      | _ => [])

/-- The entries of a multicast's bad-chunk list (R236, R321). -/
def mcEntries (dev : Nat) (o : Op) : List Bytes := (mcBad dev o).map fun x => badEntry (shapeOf o.recd).xtag x.2.1 x.1

/-- The error records of a multicast's bad chunks (R312, R313). -/
def mcErrs (dev : Nat) (o : Op) : List Bytes := (mcBad dev o).map fun x => errRecord 0 (shapeOf o.recd).xtag x.2.2.1 x.1 x.2.2.2

/-- PROG of a multicast with denied members. -/
def mcMask (o : Op) : DWord := (List.range o.members.length).foldl (fun m j => match o.got.find? fun x => x.1 == j with
  | some (_, _, [st, _, _]) => if st = 2 then m ||| (1#64 <<< j) else m
  | _ => m) 0#64

/-- A multicast finishes when every member has answered and its lists are written (R301, R321): a denied member ends the task; otherwise its bytes have landed
at every member, and count (R347; log entry 161). -/
def State.finishMcst (s : State) (o : Op) : State :=
  let n := chunksOf (shapeOf o.recd).total
  if !o.started || o.stage != 2 || decide (o.landed.length < n) || !o.mcDone || s.opWaits o.id then s
  else s.podGot o (s.podLists o (fieldLe o.recd 0x90 8) (mcEntries s.devid o) (mcErrs s.devid o)) fun _ =>
    let s := ({ s with rtx := s.rtx.filter fun r => r.owner != ReqFor.mcast o.id } : State).relFor o
    if mcMask o ≠ 0#64 then
      let s := (s.opEnds o 5 0xFF 0 (shapeOf o.recd).dst).finishOp o.id .poison 0x66#8
      match s.group? o.grp with
      | some g => if o.bound then s.putToken o.grp o.kd { g.token o.kd with prog := mcMask o } else s
      | none => s
    else (countBytes (shapeOf o.recd).total o.asid (s.opUnit o) o.exprts s).finishOp o.id (if (mcBad s.devid o).isEmpty then .done else .doneBad) 0#8

end Sys2Proof.Machine
end

