-- ==== Sys2Proof/Machine/DispatchEvents.lean ====
section
/-!
DEFINITION. Expert dispatch after its commands start (R322 to R338): tables and descriptors, counts and placement, route state, scatter, gather and combine,
and the finish of `RTE` and `RTC`.
-/
namespace Sys2Proof.Machine
open Sys2Proof

/-! ## Tables (R323 to R325, R331) -/

/-- DEV of an expert. -/
def expDev (et : Bytes) (e : Nat) : Nat := fieldLe et (16 * e) 2
/-- CAP of an expert. -/
def expCap (et : Bytes) (e : Nat) : Nat := fieldLe et (16 * e + 4) 4
/-- BUF of an expert. -/
def expBuf (et : Bytes) (e : Nat) : Nat := fieldLe et (16 * e + 8) 8

/-- Is an expert table valid (R338, cause 0x71)? -/
def expTableOk (et : Bytes) (n : Nat) (ms : List Nat) : Bool :=
  (List.range n).all fun e => ms.contains (expDev et e) && fieldLe et (16 * e + 2) 2 == 0 && decide (expCap et e < 2 ^ 24) && expBuf et e % 512 == 0

/-- T of a dispatch command. -/
def Op.items (o : Op) : Nat := (o.args.headD 0#32).toNat % 2 ^ 21

/-- The expert table that a command holds. -/
def Op.experts (o : Op) : Bytes := ((o.buf (podKey 12 0)).getD (0, [])).2

/-- The chunks of a row. -/
def Op.rowChunks (o : Op) : Nat := (shapeOf o.recd).e0 / 512

/-- The descriptor of a dispatch (R288). -/
def dispDesc (o : Op) (combine : Bool) (members : List Nat) (et : Bytes) : Bytes :=
  let bs := o.recd
  natLe 4 o.cid ++ natLe 4 o.ordn ++ natLe 2 (dispNdev bs) ++ natLe 2 (dispNexp bs) ++ natLe 1 (dispK bs) ++ natLe 1 (shapeOf bs).fmt ++
  natLe 1 (if combine then 1 else 0) ++ natLe 1 0 ++ natLe 4 (shapeOf bs).e0 ++ natLe 12 0 ++
  sha256 ((members.flatMap fun d => natLe 2 d) ++ (List.range (dispNexp bs)).flatMap fun e => natLe 2 (expDev et e) ++ natLe 4 (expCap et e))

/-- Is a gather request one for a command, by its DID and ordinal (R322)? -/
def gatherOf (o : Op) (p : Packet) : Bool := fieldLe p.data 0 4 == o.cid && fieldLe p.data 4 4 == o.ordn

/-- An `RTC` that has failed with 0x72 goes on answering the gather requests for the experts whose buffers lie away (R335). -/
def State.refuseGathers (s : State) (o : Op) (et : Bytes) (away : List Nat) : State :=
  { s with served := s.served ++ [{ o with fail := 0x72#8, bufs := [(podKey 12 0, 0, et)], landed := away }] }

/-- What the serving member finds of its own experts' buffers as its `RTC` starts (R335): the experts whose buffers lie on another device; a wait; or the
task ended. -/
inductive Bufs where
  | ok (away : List Nat)
  | wait (s : State)
  | halted (s : State)
  deriving Repr

/-- The gather requests held for a command go with it: its cancel answers them (R335). -/
def State.dropGathers (s : State) (o : Op) : State := { s with held := s.held.filter fun p => !gatherOf o p }

/-- The buffers of own experts translated, one after another. -/
def State.ownBufs (s : State) (o : Op) (et : Bytes) : List Nat → List Nat → Bufs
  | [], away => .ok away
  | e :: rest, away =>
    if expDev et e ≠ s.devid then s.ownBufs o et rest away
    else match s.extent o.launch o.asid rightsRd false (expBuf et e) 1 with
      | .stop c a => .halted ((s.engineEnds o c a).dropGathers o)
      | .hold page light => .wait (s.holdFor o.asid page light false)
      | .ok [(.remote _ _, _)] => s.ownBufs o et rest (away ++ [e])
      | _ => s.ownBufs o et rest away

/-- What a dispatch command reads after its start: its members, its expert table and the headers of its lists (R331, R336). -/
def State.prepareDisp (s : State) (o : Op) (combine : Bool) : State :=
  let bs := o.recd
  let h := shapeOf bs
  s.podGot o (s.engineGet o (podKey 0 0) (fieldLe bs 0x88 8) (2 * dispNdev bs)) fun mb =>
    let ms := entries16 mb
    let (s, o) := s.knowPeers o mb
    if ms.any (fun d => decide (1024 ≤ d)) || !distinct ms || !ms.contains s.devid then s.failPod o 0x63#8
    else s.podGot o (s.engineGet o (podKey 0 3) (fieldLe bs 0x90 8) (16 * dispNexp bs)) fun et =>
      if !expTableOk et (dispNexp bs) ms then s.failPod o 0x71#8
      else s.podGot o (s.listHeader o (if combine then 0 else fieldLe bs 0xA8 8) 8 (podKey 0 6)) fun _ =>
        s.podGot o (s.listHeader o h.badl 8 (podKey 0 1)) fun _ => s.podGot o (s.listHeader o (fieldLe bs 0xB8 8) 16 (podKey 0 2)) fun _ =>
          let go := fun (s : State) =>
            let members := sortNat ms
            (s.putBuf o.id (podKey 12 0) 0 et).joinGroup o members 6 (dispDesc o combine members et)
          if combine then match s.ownBufs o et (List.range (dispNexp bs)) [] with
            | .ok [] => go s
            | .ok away => (s.refuseGathers o et away).failPod o 0x72#8
            | .wait s => s
            | .halted s => s
          else go s

/-! ## Counting (R326, R327) -/

/-- The choices of an `RTE`: T·K entries. -/
def Op.choices (o : Op) : List Nat := entries16 ((o.buf (podKey 12 1)).getD (0, [])).2

/-- The counts of each expert among choices. -/
def countChoices (n : Nat) (cs : List Nat) : List Nat := (List.range n).map fun e => (cs.filter fun x => x == e).length

/-- The count packets of an `RTE` sent to a member (R327). -/
def sendCounts (o : Op) (counts : List Nat) (d : Nat) : List Nat → State → State × Bool
  | [], s => (s, true)
  | i :: rest, s =>
    let data := ((counts.drop (128 * i)).take 128).flatMap fun c => natLe 4 c
    let p : Packet := { ty := 10#8, src := 0#16, dst := BitVec.ofNat 16 d, addr := BitVec.ofNat 64 (o.cid + i * 2 ^ 32), len := BitVec.ofNat 16 data.length
                        sqf := BitVec.ofNat 32 o.ordn, data := data }
    match s.request p (.chunk o.id (podKey 13 i)) o.asid o.grp with
    | (s, true) => sendCounts o counts d rest s
    | (s, false) => (s, false)

/-- The count packets sent to every other member. -/
def sendAllCounts (o : Op) (counts : List Nat) : List Nat → State → State × Bool
  | [], s => (s, true)
  | d :: rest, s => match sendCounts o counts d (List.range ((counts.length + 127) / 128)) s with
    | (s, true) => sendAllCounts o counts rest s
    | r => r

/-- Phases 1 and 2 begin: the choices are read and counted, and the counts sent (R326). -/
def State.countRte (s : State) (o : Op) : State :=
  let n := dispNexp o.recd
  s.podGot o (s.engineGet o (podKey 0 4) (fieldLe o.recd 0x98 8) (2 * o.items * dispK o.recd)) fun bs =>
    let cs := entries16 bs
    if cs.any fun x => decide (n ≤ x) && x != 0xFFFF then s.failPod o 0x70#8
    else if !s.rtxRoom (o.peers.length * ((n + 127) / 128)) then s
    else match sendAllCounts o (countChoices n cs) o.peers s with
      | (s, true) => (s.putBuf o.id (podKey 12 1) 0 bs).modOp o.id fun o => { o with stage := 3 }
      | (s, false) => s.failPod o 0x61#8

/-- The counts that a member has reported, once all have come. -/
def Op.countsOf (o : Op) (own d : Nat) : Option (List Nat) :=
  let n := dispNexp o.recd
  if d = own then some (countChoices n o.choices)
  else
    let ps := (List.range ((n + 127) / 128)).map fun i => o.got.find? fun x => x.1 == d && x.2.1 == i
    if ps.all Option.isSome then some (ps.flatMap fun x => match x with
      | some y => y.2.2
      | none => []) else none

/-- Sums of counts by expert over members. -/
def sumCounts (n : Nat) (cs : List (List Nat)) : List Nat := (List.range n).map fun e => (cs.map fun c => c.getD e 0).foldl (· + ·) 0

/-! ## Placement (R326, R328, R329) -/

/-- A placed choice: item, choice slot, expert (NEXP or more for none), its position in the expert's order. -/
structure Placed where
  t   : Nat
  j   : Nat
  x   : Nat
  pos : Nat
  deriving DecidableEq, Repr

/-- Choices placed in order, from the next position of each expert (phase 3 of R326). -/
def placeChoices (k : Nat) : Nat → List Nat → List Nat → List Placed
  | _, [], _ => []
  | i, x :: rest, next =>
    { t := i / k, j := i % k, x := x, pos := next.getD x 0 } :: placeChoices k (i + 1) rest (if x < next.length then next.set x (next.getD x 0 + 1) else next)

/-- Is a placed choice routed? -/
def Placed.routed (p : Placed) (et : Bytes) : Bool := p.x != 0xFFFF && decide (p.pos < expCap et p.x)
/-- Is it dropped? -/
def Placed.dropped (p : Placed) (et : Bytes) : Bool := p.x != 0xFFFF && !p.routed et

/-- A route-state entry (R328). -/
def Placed.entry (p : Placed) (et : Bytes) : Nat :=
  if p.x = 0xFFFF then 2 * 2 ^ 62
  else (if p.routed et then p.pos else 2 ^ 62) + expDev et p.x * 2 ^ 52 + p.x * 2 ^ 40

/-- A dropped-item entry (R329). -/
def Placed.drop (p : Placed) : Bytes := natLe 8 (p.x * 2 ^ 52 + p.j * 2 ^ 32 + p.t)

/-- Do all pieces of a routed row's destination lie on its expert's device (R324, R338)? -/
def onDevice (own dev : Nat) (segs : List (Phys × Nat)) : Bool := segs.all fun x => match x.1 with
  | .remote d _ => d == dev
  | .home _ => own == dev
  | .window _ => own == dev
  | _ => false

/-- Each routed row's destination checked and translated, in order. -/
def State.checkRows (s : State) (o : Op) (et : Bytes) : List Placed → Got
  | [] => .ok []
  | p :: rest =>
    if !p.routed et then s.checkRows o et rest
    else
      let rb := (shapeOf o.recd).e0
      match s.extent o.launch o.asid rightsWr true (expBuf et p.x + p.pos * rb) rb with
      | .stop c a => .halted (s.engineEnds o c a)
      | .hold page light => .wait (s.holdFor o.asid page light true)
      | .closed => .fail 0x50#8
      | .ok segs => if onDevice s.devid (expDev et p.x) segs then s.checkRows o et rest else .fail 0x72#8

/-- The counts of every member in member order, once all have come. -/
def Op.allCounts (o : Op) (own : Nat) : Option (List (List Nat)) :=
  let cs := o.members.map fun d => o.countsOf own d
  if cs.all Option.isSome then some (cs.map fun c => c.getD []) else none

/-- The placed choices of an `RTE`. -/
def Op.placement (o : Op) (own : Nat) (cs : List (List Nat)) : List Placed :=
  placeChoices (dispK o.recd) 0 o.choices (sumCounts (dispNexp o.recd) (cs.take (o.ownIdx own)))

/-- RECV of each expert (R329). -/
def recvOf (et : Bytes) (req : List Nat) : List Nat := req.zipIdx.map fun (r, e) => min r (expCap et e)

/-- Phase 3 of R326, once the counts of every member have come. -/
def State.placeRte (s : State) (o : Op) : State :=
  match o.allCounts s.devid with
  | none => s
  | some cs =>
    let et := o.experts
    let ps := o.placement s.devid cs
    let req := sumCounts (dispNexp o.recd) cs
    s.podGot o (s.checkRows o et ps) fun _ =>
      let s := s.putBuf o.id (podKey 12 2) 0 (ps.flatMap fun p => natLe 8 (p.entry et))
      let s := s.putBuf o.id (podKey 12 3) 0 ((req.zip (recvOf et req)).flatMap fun (r, v) => natLe 4 v ++ natLe 4 r)
      let s := s.putBuf o.id (podKey 12 4) 0 ((ps.filter fun p => p.dropped et).flatMap Placed.drop)
      s.modOp o.id fun o => { o with stage := 4, skip := 0 }

/-- An array written 4 KiB at a time, and then the next stage. -/
def State.putLong (s : State) (o : Op) (va : Nat) (bs : Bytes) : State :=
  let at_ := 4096 * o.skip
  if bs.length ≤ at_ then s.modOp o.id fun o => { o with stage := o.stage + 1, skip := 0 }
  else s.podPut o (s.enginePut o (podKey 1 o.skip) (va + at_) 10 false ((bs.drop at_).take 4096)) fun s => s.modOp o.id fun o => { o with skip := o.skip + 1 }

/-- A buffer of a command. -/
def Op.kept (o : Op) (i : Nat) : Bytes := ((o.buf (podKey 12 i)).getD (0, [])).2

/-- The entries of a byte sequence, 8 bytes each. -/
def entries64 (bs : Bytes) : List Bytes := (List.range (bs.length / 8)).map fun i => sliceBytes bs (8 * i) 8

/-! ## Scatter (R330) -/

/-- The key of the chunks of a routed row's source. -/
def rowKey (r : Nat) : Nat := podKey 4 (r * 2 ^ 20)

/-- A routed row read from its item, chunk by chunk (R323). -/
def State.sourceRow (s : State) (o : Op) (t r : Nat) : Got :=
  let h := shapeOf o.recd
  let at_ : Int := (h.src : Int) + (t : Int) * h.ss1
  if h.skind = 1 then .ok (getBytes s.mem (s.spadAt (s.opTeam o) at_.toNat) h.e0)
  else s.engineGetAll o (rowKey r) ((List.range o.rowChunks).map fun (c : Nat) => (((at_ + 512 * (c : Int)) % (2 ^ 64 : Nat)).toNat, 512))

/-- A row's chunk has landed in a buffer of an expert here: it is counted for its `RTE`, by expert and chunk index, and listed when it was bad (R313, R330,
R332, R347). `orig` is the device that sent it. -/
def State.rowTaken (s : State) (o : Op) (e i orig finder : Nat) : State :=
  let k := i * 4096 + e
  let core := (s.opTeam o).core
  let s := s.modOp o.id fun o => { o with landed := o.landed ++ [k] }
  let s := countBytes 512 o.asid (s.opUnit o) o.exprts (s.count core o.asid o.team 0x031 1)
  if finder = 0 then s
  else
    let r := errRecord o.cid (shapeOf o.recd).xtag orig i finder
    ((((s.count core o.asid o.team 0x032 1).modOp o.id fun o => { o with bad := o.bad ++ [(k, badReason false finder)] }).putBuf o.id (podKey 3 k) 0 r)).logError
      o.asid r

/-- A chunk for an expert here, over the internal path of this device (R309, R330): verified, and written at its home as its bytes or as zeros. -/
def State.localRow (s : State) (o : Op) (e i pa tag : Nat) (bs : Bytes) : State :=
  let c := chunkCheck (shapeOf o.recd).fmt bs
  let f := tag % 2 ^ 32
  let p : Packet := { ty := 9#8, vc := 2#8, cf := if f = 0 then 1#8 else 3#8, src := BitVec.ofNat 16 s.devid, dst := BitVec.ofNat 16 s.devid
                      sqf := BitVec.ofNat 32 f, data := bs, chkS := BitVec.ofNat 64 c.1, chkA := BitVec.ofNat 64 c.2, fmt := BitVec.ofNat 4 (shapeOf o.recd).fmt }
  let (s, p) := s.egress p
  ((s.dropExtent (s.opCluster o) pa 512).homeWrite o.asid pa (landedBytes p)).rowTaken ((s.op? o.id).getD o) e i (if f = 0 then s.devid else tag / 2 ^ 32)
    (if chunkBad p then p.sqf.toNat else 0)

/-- One chunk of a row, the `i`-th of expert `e`'s buffer, sent or landed with its check. -/
def State.scatterOne (s : State) (o : Op) (r e i tag : Nat) (p : Phys) (bs : Bytes) : Put :=
  let f := tag % 2 ^ 32
  match p with
  | .remote dev pa => (match s.sendChunk dev pa (shapeOf o.recd).fmt (if f = 0 then none else some f) false 0 bs (.chunk o.id (podKey 6 r)) o.asid o.grp with
    | (s, true) => .ok s
    | (_, false) => .fail 0x61#8)
  | .home pa => .ok (s.localRow o e i pa tag bs)
  | .window pa => .ok ((s.putLocal pa bs).rowTaken ((s.op? o.id).getD o) e i s.devid 0)
  | _ => .ok s

/-- The device-local place of a piece. -/
def Phys.plus (p : Phys) (n : Nat) : Phys := match p with
  | .remote d pa => .remote d (pa + n)
  | .home pa => .home (pa + n)
  | .window pa => .window (pa + n)
  | .host pa => .host (pa + n)
  | .zero => .zero
  | .frame off => .frame off

/-- The places of a row's chunks, in order. -/
def rowPlaces (segs : List (Phys × Nat)) : List Phys := segs.flatMap fun (p, n) => (List.range (n / 512)).map fun j => p.plus (512 * j)

/-- The chunks of a row sent or landed (R330): `i` is the index of the first in its expert's buffer, `c` the index in the row of the next. -/
def scatterChunks (o : Op) (r e i : Nat) (bs : Bytes) : Nat → List Phys → State → Put
  | _, [], s => .ok s
  | c, p :: rest, s => match s.scatterOne o r e (i + c) (o.tagIn ((rowKey r + c) * 2 ^ 20) (2 ^ 20)) p (sliceBytes bs (512 * c) 512) with
    | .ok s => scatterChunks o r e i bs (c + 1) rest s
    | q => q

/-- The next choice of an `RTE` scattered. -/
def State.scatterRte (s : State) (o : Op) : State :=
  let r := o.skip
  let k := dispK o.recd
  let rb := (shapeOf o.recd).e0
  if o.items * k ≤ r then s.modOp o.id fun o => { o with stage := 8 }
  else
    let e := fieldLe (o.kept 2) (8 * r) 8
    let more := fun (s : State) => s.modOp o.id fun o => { o with skip := r + 1 }
    if bitsOf e 62 2 ≠ 0 then more s
    else if !s.rtxRoom (rb / 512) then s
    else s.podGot o (s.sourceRow o (r / k) r) fun bs =>
      let va := expBuf o.experts (bitsOf e 40 12) + bitsOf e 0 24 * rb
      match s.extent o.launch o.asid rightsWr true va rb with
      | .stop c a => s.engineEnds o c a
      | .hold page light => s.holdFor o.asid page light true
      | .closed => s.failPod o 0x50#8
      | .ok segs =>
        if !onDevice s.devid (bitsOf e 52 10) segs then s.failPod o 0x72#8
        else if s.lostPieces segs then s.engineEnds o 0x31 va
        else s.podPut o (scatterChunks o r (bitsOf e 40 12) (bitsOf e 0 24 * o.rowChunks) bs 0 (rowPlaces segs) s) fun s => more (s.dropBufs o.id (rowKey r * 2 ^ 20) (2 ^ 40))

/-! ## Rows that arrive (R330, R332) -/

/-- The chunk of an own expert's buffer that a device-local address is, by expert and chunk index. -/
def State.rowAt (s : State) (o : Op) (pa : Nat) : Option (Nat × Nat) :=
  let rb := (shapeOf o.recd).e0
  (List.range (dispNexp o.recd)).findSome? fun e =>
    if expDev o.experts e ≠ s.devid then none
    else (pageRuns (expBuf o.experts e) (expCap o.experts e * rb)).findSome? fun (a, n) => match s.xlate o.asid a {} with
      | some t => let base := t.addr a
        if t.dev == s.devid && decide (base ≤ pa ∧ pa < base + n) then some (e, (a + (pa - base) - expBuf o.experts e) / 512) else none
      | none => none

/-- The member whose row takes a slot of an expert, by the counts (R326, R329): the members' choices are placed in member order, up to CAP. -/
def Op.slotOwner (o : Op) (e slot : Nat) : Nat → List (Nat × List Nat) → Option Nat
  | _, [] => none
  | n, (d, c) :: rest => if expCap o.experts e ≤ slot then none else if slot < n + c.getD e 0 then some d else o.slotOwner e slot (n + c.getD e 0) rest

/-- The chunk of an `RTE` that one from a device at an address is, once all counts have come: a slot below the expert's RECV that is that member's (R332). -/
def State.rowOf (s : State) (o : Op) (pa src : Nat) : Option (Nat × Nat) :=
  match o.allCounts s.devid, s.rowAt o pa with
  | some cs, some (e, i) => if o.slotOwner e (i / o.rowChunks) 0 (o.members.zip cs) == some src && !o.landed.contains (i * 4096 + e) then some (e, i) else none
  | _, _ => none

/-- The `RTE` commands here to which a device may send rows. -/
def State.rowOps (s : State) (src : Nat) : List Op := s.ops.filter fun o => o.kind == .rte && o.started && decide (1 ≤ o.stage) && o.peers.contains src

/-- The `RTE` that a row's chunk belongs to, with its expert and chunk index: the earliest here that still awaits it from its sender (R332, R333). -/
def State.rowFor (s : State) (pa src : Nat) : Option (Op × Nat × Nat) := (s.rowOps src).findSome? fun o => (s.rowOf o pa src).map fun x => (o, x.1, x.2)

/-- May a row's chunk belong to an `RTE` here whose counts have not all come? -/
def State.rowMaybe (s : State) (pa src : Nat) : Bool := (s.rowOps src).any fun o => (o.allCounts s.devid).isNone && (s.rowAt o pa).isSome

/-- The clusters of the `RTE` commands to which a row's chunk may belong keep no copy of what it writes (R342, R431). -/
def State.rowNear (s : State) (pa src : Nat) : State :=
  ((s.rowOps src).filter fun o => (s.rowAt o pa).isSome).foldl (fun s o => s.dropExtent (s.opCluster o) pa 512) s

/-- A row's chunk that has been written here, at an address, from a device: counted for its `RTE`; kept while
counts are still to come; or, a bad one of no operation here, recorded in the event log (R313, R330). -/
def State.rowLanded (s : State) (pa src txid finder : Nat) : State :=
  match s.rowFor pa src with
  | some (o, e, i) => s.rowTaken o e i src finder
  | none =>
    if s.rowMaybe pa src then { s with rows := s.rows ++ [(pa, src, txid, finder)] }
    else if finder = 0 then s
    else
      let (xtag, idx) := Config.strayChunk src txid
      s.logError 0xFFFF (errRecord 0 xtag src idx finder)

/-- The row chunks kept looked at again, in the order in which they came. -/
def settleRows : List (Nat × Nat × Nat × Nat) → State → State
  | [], s => s
  | (pa, src, txid, finder) :: rest, s => settleRows rest (s.rowLanded pa src txid finder)

/-- The row chunks kept looked at again. -/
def State.rowsAgain (s : State) : State := settleRows s.rows { s with rows := [] }

/-- The next execution of an `RTE`'s placement (R326, R331). -/
def State.runRte (s : State) (o : Op) : State :=
  if !o.started then s
  else if o.fail != 0#8 then s.failPod o o.fail
  else match o.stage with
    | 0 => s.rowsAgain.prepareDisp o false
    | 1 => s.agree o 6 0 (dispDesc o false o.members o.experts)
    | 2 => s.countRte o
    | 3 => (s.placeRte o).rowsAgain
    | 4 => s.putLong o (fieldLe o.recd 0xA0 8) (o.kept 2)
    | 5 => s.podGot o (s.listUpdate o (fieldLe o.recd 0xA8 8) 8 0 (podKey 14 0) (entries64 (o.kept 4))) fun _ => s.modOp o.id fun o => { o with stage := 6 }
    | 6 => s.putLong o (fieldLe o.recd 0xB0 8) (if fieldLe o.recd 0xB0 8 = 0 then [] else o.kept 3)
    | 7 => s.scatterRte o
    | _ => s

/-! ## The finish of an `RTE` (R332) -/

/-- Has every chunk of a command's own experts landed (R332)? -/
def State.rowsLanded (s : State) (o : Op) : Bool :=
  let rb := (shapeOf o.recd).e0
  (List.range (dispNexp o.recd)).all fun e => expDev o.experts e != s.devid ||
    (List.range (fieldLe (o.kept 3) (8 * e) 4 * (rb / 512))).all fun i => o.landed.contains (i * 4096 + e)

/-- The list entries of an `RTE`'s bad rows, in ascending chunk index. -/
def rowEntries (o : Op) : List Bytes :=
  (sortNat (o.bad.map (·.1))).map fun k => badEntry (shapeOf o.recd).xtag (((o.bad.find? fun b => b.1 == k).map (·.2)).getD 0) (k / 4096)

/-- The error records of an `RTE`'s bad rows. -/
def rowErrs (o : Op) : List Bytes := (sortNat (o.bad.map (·.1))).filterMap fun k => (o.buf (podKey 3 k)).map (·.2)

/-- A member's `RTE` finishes (R332). -/
def State.finishRte (s : State) (o : Op) : State :=
  if !o.started || o.stage != 8 || s.opWaits o.id then s
  else if o.fail != 0#8 then s.failPod o o.fail
  else if !s.rowsLanded o then s
  else s.podGot o (s.podLists o (fieldLe o.recd 0xB8 8) (rowEntries o) (rowErrs o)) fun _ => (s.relFor o).finishOp o.id (if o.bad.isEmpty then .done else .doneBad) 0#8

/-! ## Gather and combine (R334 to R336) -/

/-- Is a route-state entry one that `RTC` accepts (R336, cause 0x73)? -/
def routeOk (et : Bytes) (n e : Nat) : Bool :=
  let x := bitsOf e 40 12
  bitsOf e 62 2 != 3 && bitsOf e 24 16 == 0 && decide (x < n) && (bitsOf e 62 2 == 2 || bitsOf e 52 10 == expDev et x) &&
  (bitsOf e 62 2 != 0 || decide (bitsOf e 0 24 < expCap et x))

/-- An `RTC` reads its route state and gates (R336). -/
def State.readRtc (s : State) (o : Op) : State :=
  let n := o.items * dispK o.recd
  s.podGot o (s.engineGet o (podKey 0 4) (fieldLe o.recd 0xA0 8) (8 * n)) fun rs =>
    if !(entries64 rs).all fun e => routeOk o.experts (dispNexp o.recd) (leNat e) then s.failPod o 0x73#8
    else s.podGot o (s.engineGet o (podKey 0 5) (fieldLe o.recd 0x98 8) (4 * n)) fun gs =>
      ((s.putBuf o.id (podKey 12 1) 0 rs).putBuf o.id (podKey 12 2) 0 gs).modOp o.id fun o => { o with stage := 3 }

/-- A gathered chunk's key: the request, and the transaction that brought it. -/
def gatherKey (r txid : Nat) : Nat := podKey 15 (r * 2 ^ 33 + txid)

/-- The chunks gathered for a request, in the order of their transactions (log entry 32): finder word and bytes. -/
def Op.gathered (o : Op) (r : Nat) : List (Nat × Bytes) :=
  let ks := sortNat ((o.bufs.filter fun b => decide (gatherKey r 0 ≤ b.1 ∧ b.1 < gatherKey (r + 1) 0)).map (·.1))
  ks.filterMap fun k => o.buf k

/-- The routed choices of an item: request, expert, device and slot. -/
def Op.routesOf (o : Op) (t : Nat) : List (Nat × Nat × Nat × Nat) :=
  let k := dispK o.recd
  (List.range k).filterMap fun j =>
    let e := fieldLe (o.kept 1) (8 * (t * k + j)) 8
    if bitsOf e 62 2 = 0 then some (t * k + j, bitsOf e 40 12, bitsOf e 52 10, bitsOf e 0 24) else none

/-- Has a request been sent? -/
def Op.requested (o : Op) (r : Nat) : Bool := o.got.any fun x => x.1 == r && x.2.1 == 1

/-- Chunks kept for a request served here. -/
def keepRow (o : Op) (r : Nat) (bs : Bytes) (s : State) : State :=
  (List.range o.rowChunks).foldl (fun s c => s.putBuf o.id (gatherKey r c) 0 (sliceBytes bs (512 * c) 512)) s

/-- A routed choice's row requested: read here, or by a GATHER to its expert's device (R335), which fails where no path leads there (R292). -/
def State.requestRow (s : State) (o : Op) (x : Nat × Nat × Nat × Nat) : State :=
  let (r, e, dev, slot) := x
  let orb := (shapeOf o.recd).e0
  if o.requested r then s
  else if dev = s.devid then
    s.podGot o (s.engineGet o (podKey 4 r) (expBuf o.experts e + slot * orb) orb) fun bs =>
      (keepRow o r bs (s.dropBufs o.id (podKey 4 r * 2 ^ 20) (2 ^ 20))).modOp o.id fun o => { o with got := o.got ++ [(r, 1, [dev, 2 ^ 32])] }
  else if o.got.any fun y => y.2.1 == 1 && y.1 % 2 ^ 20 == r % 2 ^ 20 then s
  else if !s.fabricOpen then s
  else if (s.inject dev (vcOf 12) none).isNone then s.failPod o 0x61#8
  else
    let txid := s.nextId
    (s.sendMgmt dev 8 o.asid (natLe 4 o.cid ++ natLe 4 o.ordn ++ natLe 2 e ++ natLe 2 0 ++ natLe 4 slot ++ natLe 4 (r % 2 ^ 20) ++ natLe 4 0)).modOp o.id fun o =>
      { o with got := o.got ++ [(r, 1, [dev, txid])] }

/-- Every routed choice of an item requested, while the command stands. -/
def requestRows (id : Nat) : List (Nat × Nat × Nat × Nat) → State → State
  | [], s => s
  | x :: rest, s => match s.op? id with
    | some o => requestRows id rest (s.requestRow o x)
    | none => s

/-- A combined chunk's elements (R334): FP32 accumulators, and whether one overflowed. -/
def combineElems (n : Nat) : List (Nat × List Nat) → List (Nat × Bool)
  | ins => ins.foldl (fun acc (g, ys) => (acc.zip ys).map fun (a, y) =>
      let r := fmtF32.ffma .rne g y a.1
      (r.1, a.2 || r.2 &&& flagOF != 0#5)) (List.replicate n (0, false))

/-- Does a combined chunk pass its test (R335)? -/
def combineOk (fmt n : Nat) (out : Bytes) (special : Bool) (ins : List (Nat × Bytes)) : Bool :=
  let f := (fmtOf fmt).getD fmtF32
  let val := fun (c : Nat × Nat) => (fmtF64.decode c.1, fmtF64.decode c.2)
  let o := val (chunkCheck fmt out)
  let is := ins.map fun (g, b) => (fmtF32.decode g, val (chunkCheck fmt b))
  let m := ins.length
  if is.any fun i => !i.2.2.isFin then !o.2.isFin
  else if special then true
  else
    let tau := add64 (natVal (m + 1) (-(f.prec : Int))) (natVal (2 * n.log2 + 3 * m + 4) (-53))
    let ws := sum64 (is.map fun (g, sa) => mul64 g sa.1)
    let wa := sum64 (is.map fun (g, sa) => mul64 g.abs sa.2)
    o.1.isFin && o.2.isFin && (add64 o.1 ws.neg).abs.le (add64 (mul64 tau wa) (natVal (n * (m + 1)) (f.emin - f.prec)))

/-- A combined chunk from its inputs (R334, R335): its bytes, its finder word when it is bad, and the device that sent the bad chunk. -/
def combineChunk (own fmt : Nat) (ins : List (Nat × Nat × Nat × Bytes)) : Bytes × Nat × Nat :=
  match ins.find? fun x => x.2.2.1 != 0 with
  | some (_, dev, f, _) => (List.replicate 512 0#8, f, dev)
  | none =>
    let n := 4096 / fmtWidth fmt
    if ins.isEmpty then (List.replicate 512 0#8, 0, own)
    else
      let (out, special) := narrowChunk fmt (combineElems n (ins.map fun x => (x.1, chunkF32 fmt x.2.2.2)))
      if combineOk fmt n out special (ins.map fun x => (x.1, x.2.2.2)) then (out, 0, own) else (List.replicate 512 0#8, finder own 63 1 3, own)

/-- The requests of an item forgotten once its row is combined. -/
def State.dropItem (s : State) (o : Op) (t : Nat) : State :=
  let k := dispK o.recd
  let nc := o.rowChunks
  match s.op? o.id with
  | none => s
  | some o =>
    if (List.range nc).all fun c => o.landed.contains (t * nc + c) then
      s.modOp o.id fun o => { o with got := o.got.filter fun x => !(x.2.1 == 1 && x.1 / k == t)
                                     bufs := o.bufs.filter fun b => decide (b.1 < gatherKey (t * k) 0 ∨ gatherKey (t * k + k) 0 ≤ b.1) }
    else s

/-- Chunk `i` of an `RTC` combined: its rows requested, and its inputs combined once they are here (R334, R335). -/
def State.combine (s : State) (o : Op) (i : Nat) : State :=
  let nc := o.rowChunks
  let t := i / nc
  if o.items ≤ t ∨ o.landed.contains i then s
  else
    let rs := o.routesOf t
    let s := requestRows o.id rs s
    match s.op? o.id with
    | none => s
    | some o =>
      let rows := rs.map fun x => (x, o.gathered x.1)
      if rows.any fun x => decide (x.2.length < nc) then s
      else
        let ins := rows.map fun (x, g) => (fieldLe (o.kept 2) (4 * x.1) 4, x.2.2.1, g.getD (i % nc) (0, []))
        let (out, f, orig) := combineChunk s.devid (shapeOf o.recd).fmt ins
        s.podPut o (s.landDest o i orig f true out) fun s =>
          let s := s.count 0xFFFF o.asid 0 0x106 1
          let s := if bitsOf f 24 8 = 3 && f % 1024 == s.devid then s.count 0xFFFF o.asid 0 0x105 1 else s
          s.dropItem o t

/-- The next execution of an `RTC`'s chunk (R336). -/
def State.runRtc (s : State) (o : Op) (i : Nat) : State :=
  if !o.started then s
  else if o.fail != 0#8 then s.failPod o o.fail
  else match o.stage with
    | 0 => s.prepareDisp o true
    | 1 => s.agree o 6 1 (dispDesc o true o.members o.experts)
    | 2 => s.readRtc o
    | _ => s.combine o i

/-! ## Serving (R335) -/

/-- The `RTC` that serves a gather request: one here that has started, or one that has finished. -/
def State.serverOf (s : State) (p : Packet) : Option Op :=
  (preferOf p.sasid.toNat (((s.ops.filter fun o => o.kind == .rtc && o.started && decide (1 ≤ o.stage)) ++ s.served).filter fun o => gatherOf o p)).head?

/-- The chunks of a served row sent to the member that asked; none when there is no path (R292, R303). -/
def serveChunks (o : Op) (dev ridx own : Nat) (bs : Bytes) : List Nat → State → Option State
  | [], s => some s
  | c :: rest, s =>
    match s.sendChunk dev (collAddr o.cid (ridx % 2 ^ 20) own) (shapeOf o.recd).fmt none false 0 (sliceBytes bs (512 * c) 512) (.chunk o.id (podKey 16 0)) o.asid o.grp with
    | (s, true) => serveChunks o dev ridx own bs rest s
    | (_, false) => none

/-- The device-local extents of pieces that lie here. -/
def homeExtents (segs : List (Phys × Nat)) : Option (List (Nat × Nat)) :=
  if segs.all fun x => match x.1 with
      | .home _ => true
      | _ => false then some (segs.filterMap fun x => match x.1 with
    | .home pa => some (pa, x.2)
    | _ => none)
  else none

/-- A held gather request served (R335): the row is read at its homes under the grants of the device that asks, whatever has become of the lease under which
the `RTC` started, and its chunks are sent. -/
def State.serveGather (s : State) (p : Packet) (o : Op) : State :=
  let e := fieldLe p.data 8 2
  let orb := (shapeOf o.recd).e0
  let done := fun (s : State) => { s with held := s.held.filter fun q => q != p }
  let live := s.ops.any fun x => x.id == o.id
  if o.fail != 0#8 then done (if o.landed.contains e then s.answer p 8 0x72 [] else s)
  else if dispNexp o.recd ≤ e ∨ expDev o.experts e ≠ s.devid then done ((s.logDenied p 0 0x60 0).answer p 8 0x60 [])
  else if !s.rtxRoom o.rowChunks then s
  else match piecesOf s o.asid rightsRd false (pageRuns (expBuf o.experts e + fieldLe p.data 12 4 * orb) orb) with
    | .stop c a => if live then s.engineEnds o c a else done ((s.logDenied p 0 0x60 0).answer p 8 0x60 [])
    | .hold page light => s.holdFor o.asid page light false
    | .closed => s
    | .ok segs => match homeExtents segs with
      | none => done (s.answer p 8 0x72 [])
      | some es =>
        if !es.all fun x => s.granted p.src.toNat p.sasid.toNat x.1 x.2 rightsRd then
          done ((s.logDenied p ((es.headD (0, 0)).1) 0x60 0).answer p 8 0x60 [])
        else if s.lostPieces segs then done ((s.logDenied p ((es.headD (0, 0)).1) 8 5).answer p 8 0x0508 [])
        else match serveChunks o p.src.toNat (fieldLe p.data 16 4) (o.ownIdx s.devid) (s.readNear segs) (List.range o.rowChunks) s with
          | some s => done s
          | none => done (if live then s.failPod o 0x61#8 else s)

/-- The `RTC` that a gathered chunk belongs to, and its request. -/
def State.gatheredFor (s : State) (p : Packet) : Option (Op × Nat) :=
  (preferOf p.sasid.toNat s.ops ++ s.ops).findSome? fun o =>
    if o.kind == .rtc && o.cid == p.addr.toNat % 2 ^ 32 then
      (o.got.find? fun x => x.2.1 == 1 && x.1 % 2 ^ 20 == bitsOf p.addr.toNat 32 20 && x.2.2.getD 0 0 == p.src.toNat &&
        decide ((o.gathered x.1).length < o.rowChunks)).map fun x => (o, x.1)
    else none

/-- A gathered chunk taken. -/
def State.takeGather (s : State) (o : Op) (r : Nat) (p : Packet) : State :=
  (s.putBuf o.id (gatherKey r p.txid.toNat) (if chunkBad p then p.sqf.toNat else 0) p.data).answerKept p 7 (if chunkBad p then 1 else 0) []

/-- A member's `RTC` finishes (R336); it goes on serving the gather requests that are still to come. -/
def State.finishRtc (s : State) (o : Op) : State :=
  let n := o.items * o.rowChunks
  if !o.started || o.stage != 3 || s.opWaits o.id then s
  else if o.fail != 0#8 then s.failPod o o.fail
  else if o.landed.length < n then s
  else s.podGot o (s.podLists o (fieldLe o.recd 0xB8 8) (badEntries (shapeOf o.recd).xtag o.bad n) (errRecords o n)) fun _ =>
    let s := s.relFor o
    State.finishOp { s with served := s.served ++ [{ o with bufs := o.bufs.filter fun b => b.1 == podKey 12 0, got := [], landed := [] }] } o.id
      (if o.bad.isEmpty then .done else .doneBad) 0#8

end Sys2Proof.Machine
end

