-- ==== Sys2Proof/Machine/MatrixEvents.lean ====
section
/-!
DEFINITION. What an array does (R246, R248, R250 to R256): an `MMA` starts in its tile's order, accumulates, and finishes; an `ACACQ` finishes.
-/
namespace Sys2Proof.Machine
open Sys2Proof

/-- The elements of a K-block of A held in registers (R150, R251). -/
def regElems (fmt : Nat) (ws : List Word) : List Nat :=
  ws.flatMap fun r => (List.range (fmtCount fmt)).map fun i => bitsOf r.toNat (fmtWidth fmt * i) (fmtWidth fmt)

/-- The 32 elements of a K-block packed densely in bytes (R150, R246, R251). -/
def byteElems (fmt : Nat) (bs : Bytes) : List Nat :=
  let x := leNat bs
  (List.range 32).map fun i => bitsOf x (fmtWidth fmt * i) (fmtWidth fmt)

/-- The value of an element without its scale; an SX4 code 0b1000 is its block's extra byte (R163, R253). -/
def mmaElem (fmt extra code : Nat) : Val := if fmt = 8 && code == 8 then fmtE4m3.decode extra else elemVal fmt code true

/-- The exact sum of the products of two runs of elements (R253). -/
def dot : List Val → List Val → Option Val → Val
  | a :: as, b :: bs, acc =>
    let t := (a.mul b).1
    dot as bs (some (match acc with
      | none => t
      | some x => (x.add .rne t).1))
  | _, _, acc => acc.getD (.fin false 0 0)

/-- `round_arith(f32, c + P, RNE)` (R253). -/
def accStep (c : Nat) (p : Val) : Nat := (fmtF32.arith .rne ((fmtF32.decode c).add .rne p).1).1

/-- One K-block of a block format accumulated (R253). -/
def accBlock (sa sb c : Nat) (a b : List Val) : Nat :=
  if sa = 0xFF ∨ sb = 0xFF then accStep c (.nan false)
  else accStep c ((dot a b none).scale ((sa : Int) + (sb : Int) - 254))

/-- One K-block of a 16-bit format accumulated, eight products at a time (R253). -/
def accHalves : Nat → Nat → List Val → List Val → Nat
  | 0, c, _, _ => c
  | n + 1, c, a, b => accHalves n (accStep c (dot (a.take 8) (b.take 8) none)) (a.drop 8) (b.drop 8)

/-- The places of a weight operand (R246): the side region's size and the bytes of a K-block. -/
def sideSize (fmt : Nat) : Nat := if mmaHalf fmt then 0 else 512

/-- A byte of memory as a number. -/
def byteAt (s : State) (a : Nat) : Nat := (memGet s.mem a).toNat

/-- The elements of column `j` of K-block `kb` of an operand. -/
def columnVals (s : State) (t : Team) (arr fmt : Nat) (m : MmaDesc) (kb j : Nat) : List Val :=
  let ec := mmaBytes fmt
  let extra := byteAt s (shareAddr t arr (m.woff + 64 * kb + 32 + j))
  (byteElems fmt (getBytes s.mem (shareAddr t arr (m.woff + sideSize fmt + kb * 32 * ec + j * ec)) ec)).map (mmaElem fmt extra)

/-- The elements of K-block `kb` of a lane's row. -/
def rowVals (s : State) (t : Team) (fmt : Nat) (m : MmaDesc) (ws ex : List Word) (kb : Nat) : List Val :=
  let extra := (ex.getD kb 0#32).toNat
  let codes := if m.as then
      byteElems fmt (getBytes s.mem (spadAddr t.core (t.spBase * 512 + (ws.headD 0#32).toNat + kb * mmaBytes fmt)) (mmaBytes fmt))
    else regElems fmt ((ws.drop (kb * mmaRegs fmt)).take (mmaRegs fmt))
  codes.map (mmaElem fmt extra)

/-- One output element over all K-blocks (R253). -/
def accCell (s : State) (t : Team) (arr fmt : Nat) (m : MmaDesc) (ws sc ex : List Word) (j c : Nat) : Nat :=
  (List.range m.nk).foldl (fun c kb =>
    let a := rowVals s t fmt m ws ex kb
    let b := columnVals s t arr fmt m kb j
    if mmaHalf fmt then accHalves 4 c a b
    else accBlock (sc.getD kb 0#32).toNat (byteAt s (shareAddr t arr (m.woff + 64 * kb + j))) c a b) c

/-- Memory as an `MMA` reads it: each unit that the array has already read has the value that it had then (R254). -/
def Op.view (o : Op) (s : State) : State := { s with mem := o.units.foldl (fun m u => putBytes m u.1 (natLe 4 u.2)) s.mem }

/-- One element accumulated into a tile, from what the array sees of memory `s`. -/
def accElem (s : State) (t : Team) (arr fmt acc : Nat) (m : MmaDesc) (row : Nat × List Word × List Word × List Word) (mem : Memory) (j : Nat) : Memory :=
  let e := tileElem t arr acc row.1 j
  putBytes mem e (natLe 4 (accCell s t arr fmt m row.2.1 row.2.2.1 row.2.2.2 j (getLe s.mem e 4)))

/-- The rows of the taking-part lanes accumulated into a tile, but for the elements that were written before. -/
def accRows (s : State) (t : Team) (arr fmt acc : Nat) (m : MmaDesc) (wrote : List Nat) : List (Nat × List Word × List Word × List Word) → Memory → Memory
  | [], mem => mem
  | row :: rest, mem =>
    let js := (List.range 32).filter fun j => !wrote.contains (tileElem t arr acc row.1 j)
    accRows s t arr fmt acc m wrote rest (js.foldl (accElem s t arr fmt acc m row) mem)

/-- The lines of an `MMA`'s scratchpad rows (R252). -/
def rowLines (t : Team) (fmt : Nat) (m : MmaDesc) (rows : List (Nat × List Word × List Word × List Word)) : List Nat :=
  if m.as then rows.flatMap fun r => linesOf t.spBase (r.2.1.headD 0#32).toNat (m.nk * mmaBytes fmt) else []

/-- A tile's order without an operation that has ended. -/
def State.leaveTile (s : State) (team arr acc id : Nat) (f : Tile → Tile) : State :=
  s.modTile team arr acc fun t => f { t with ord := t.ord.filter fun x => x != id }

/-- The group, team and tile that an array's operation names, when it is the head of the tile's order and the team stands on its core. -/
def State.atHead (s : State) (o : Op) (acc : Nat) : Option (Group × Team × Tile) :=
  (s.group? o.grp).bind fun g => (s.team? o.team).bind fun t => (t.tile? (arrayOf g) acc).bind fun x =>
    if x.ord.head? == some o.id && t.phase == .resident then some (g, t, x) else none

/-- Step `MMA_START` (R252): in tile order, with no precondition PEND and every scratchpad line of its rows present; under SKIP the tile keeps its values
and is marked. -/
def execMmaStart (id : Nat) (s : State) : Host.Outcome State Fault Refusal :=
  match s.op? id with
  | none => .next s
  | some o => match o.kind with
    | .mma fmt acc d rows => match s.atHead o acc with
      | none => .next s
      | some (g, t, _) =>
        if o.started || !o.ready || !(absentOf s t.core (rowLines t fmt (mmaDesc d.toNat) rows)).isEmpty then .next s
        else match o.skipCause with
          | some c => .next ((s.leaveTile o.team (arrayOf g) acc id fun x => { x with mark := some (x.mark.getD c) }).finishOp id .poison c)
          | none => .next (s.modOp id fun o => { o with started := true })
    | _ => .next s

/-- Step `MMA_FINISH` (R252, R253): the array reads the operand and the rows, and the tile takes the sums. -/
def execMmaFinish (id : Nat) (s : State) : Host.Outcome State Fault Refusal :=
  match s.op? id with
  | none => .next s
  | some o => match o.kind with
    | .mma fmt acc d rows => match s.atHead o acc with
      | none => .next s
      | some (g, t, _) =>
        if !o.started then .next s
        else
          let m := mmaDesc d.toNat
          let s := { s with mem := accRows (o.view s) t (arrayOf g) fmt acc m o.wrote rows s.mem }
          .next (((s.leaveTile o.team (arrayOf g) acc id fun x => x).finishOp id .done 0#8).count g.core o.asid o.team 0x030 m.nk)
    | _ => .next s

/-- Is a byte one that a started `MMA` reads: of its weight operand, of its scratchpad rows, or of the elements that it accumulates into (R254, R261)? -/
def mmaSees (t : Team) (arr fmt acc : Nat) (m : MmaDesc) (rows : List (Nat × List Word × List Word × List Word)) (a : Nat) : Bool :=
  let within := fun (lo n : Nat) => decide (lo ≤ a ∧ a < lo + n)
  within (shareAddr t arr m.woff) (sideSize fmt + m.nk * 32 * mmaBytes fmt) ||
  rows.any fun r => (List.range 32).any (fun j => within (tileElem t arr acc r.1 j) 4) ||
    (m.as && within (spadAddr t.core (t.spBase * 512 + (r.2.1.headD 0#32).toNat)) (m.nk * mmaBytes fmt))

/-- The array reads a unit for a started `MMA` now (R254): what is written there from now on, the `MMA` does not see. -/
def State.arrayReads (s : State) (id unit : Nat) : State :=
  match s.op? id with
  | none => s
  | some o => match o.kind with
    | .mma fmt acc d rows => match s.atHead o acc with
      | none => s
      | some (g, t, _) =>
        if !o.started || unit % 4 != 0 || !mmaSees t (arrayOf g) fmt acc (mmaDesc d.toNat) rows unit || o.units.any (fun u => u.1 == unit) then s
        else s.modOp id fun o => { o with units := o.units ++ [(unit, getLe s.mem unit 4)] }
    | _ => s

/-- The bytes of the weight operand and of a lane's scratchpad row from which the array computes one element (R246, R251, R253). -/
def mmaTakes (t : Team) (arr fmt : Nat) (m : MmaDesc) (ws : List Word) (j : Nat) : List Nat :=
  (List.range m.nk).flatMap fun kb =>
    List.range' (shareAddr t arr (m.woff + sideSize fmt + kb * 32 * mmaBytes fmt + j * mmaBytes fmt)) (mmaBytes fmt) ++
    (if mmaHalf fmt then [] else [shareAddr t arr (m.woff + 64 * kb + j), shareAddr t arr (m.woff + 64 * kb + 32 + j)]) ++
    (if m.as then List.range' (spadAddr t.core (t.spBase * 512 + (ws.headD 0#32).toNat + kb * mmaBytes fmt)) (mmaBytes fmt) else [])

/-- The units read so far and those of some bytes, each with the value that it has when it is first read (R254). -/
def readUnits (s : State) (bytes : List Nat) (units : List (Nat × Nat)) : List (Nat × Nat) :=
  ((bytes.map fun a => a / 4 * 4).eraseDups.filter fun u => !units.any fun x => x.1 == u).foldl (fun us u => us ++ [(u, getLe s.mem u 4)]) units

/-- The array writes an element of the tile of a started `MMA` now (R261): what is stored there from now on stays. The units of the operand and of the
row from which it computes the element are read with it, and not again (R254). -/
def State.arrayWrites (s : State) (id lane col : Nat) : State :=
  match s.op? id with
  | none => s
  | some o => match o.kind with
    | .mma fmt acc d rows => match s.atHead o acc, rows.find? fun r => r.1 == lane with
      | some (g, t, _), some row =>
        let e := tileElem t (arrayOf g) acc lane col
        if !o.started || decide (32 ≤ col) || o.wrote.contains e then s
        else State.modOp { s with mem := accElem (o.view s) t (arrayOf g) fmt acc (mmaDesc d.toNat) row s.mem col } id fun o =>
            { o with wrote := o.wrote ++ [e], units := readUnits s (mmaTakes t (arrayOf g) fmt (mmaDesc d.toNat) row.2.1 col) o.units }
      | _, _ => s
    | _ => s

/-- Step `ACACQ_FINISH` (R256): every earlier `MMA` of the tile has finished and no precondition is PEND; the tile is the group's, or stays the array's
under SKIP. -/
def execAcacqFinish (id : Nat) (s : State) : Host.Outcome State Fault Refusal :=
  match s.op? id with
  | none => .next s
  | some o => match o.kind with
    | .acacq acc => match s.atHead o acc with
      | none => .next s
      | some (g, _, x) =>
        if !o.ready then .next s
        else match o.skipCause with
          | some c => .next ((s.leaveTile o.team (arrayOf g) acc id fun x => { x with st := .array }).finishOp id .poison c)
          | none =>
            let s := s.leaveTile o.team (arrayOf g) acc id fun x => { x with st := .group g.idx, mark := none }
            .next (match x.mark with
              | some c => s.finishOp id .poison c
              | none => s.finishOp id .done 0#8)
    | _ => .next s

end Sys2Proof.Machine
end

