-- ==== Sys2Proof/Machine/KvEvents.lean ====
section
/-!
DEFINITION. Key-value pages (R262 to R282): sealing, opening and decoding as the engine performs them, the requantisation of a sealed page, pairing, and the
frames that these free and take.
-/
namespace Sys2Proof.Machine
open Sys2Proof

/-! ## Frames that Ochre frees and holds (R276, R412) -/

/-- Freed frames appended to the ring that system software registered, while it has room (R412). -/
def appendFreed : Nat → State → State
  | 0, s => s
  | fuel + 1, s =>
    match s.ffring, s.freed with
    | some (addr, nent), f :: rest =>
      let prod := getLe s.mem addr 4
      if (prod + 2 ^ 32 - getLe s.mem (addr + 4) 4) % 2 ^ 32 < nent then
        let s := (s.homeWrite 0x200 (addr + 64 + 8 * (prod % nent)) (natLe 8 f)).homeWrite 0x200 addr (natLe 4 ((prod + 1) % 2 ^ 32))
        appendFreed fuel { s with freed := rest }
      else s
    | _, _ => s

/-- A frame freed (R276). -/
def State.freeFrame (s : State) (frame : Nat) : State := appendFreed (s.freed.length + 1) { s with freed := s.freed ++ [frame] }

/-! ## A page as an engine finds it -/

/-- What a key-value command finds at its address (R53, R59, R62, R267, R269). -/
inductive KvPage where
  | ok (t : Tlb) (place : Nat)
  | bad
  | wait (s : State)
  | halted (s : State)
  deriving Repr

/-- The page of a key-value command: 0x51 for an address or a leaf of the wrong kind. -/
def State.kvPage (s : State) (o : Op) (writes : Bool) : KvPage :=
  let n := if writes then rightsRdWr else rightsRd
  if o.va % 65536 ≠ 0 then .bad
  else match s.launch? o.launch with
    | none => .halted (s.engineEnds o 1 o.va)
    | some l =>
      if !s.leased l n o.va 65536 then .halted (s.engineEnds o 1 o.va)
      else match s.walk o.asid o.va with
        | .leaf t place =>
          if !t.gives n then .halted (s.engineEnds o 2 o.va)
          else if t.mig then .wait s
          else if !t.kv || t.dev != s.devid then .bad
          else if !t.a || (writes && !t.d) then .wait (s.holdFor o.asid o.va true writes)
          else if s.lostIn t.pa 64 then .halted (s.engineEnds o 0x31 o.va)
          else .ok t place
        | _ => .halted (s.engineEnds o 2 o.va)

/-- The page word at a page's base. -/
def State.pageWord (s : State) (base : Nat) : Nat := getLe s.mem base 8
/-- GEOM: the rows held. -/
def kvRows (s : State) (base : Nat) : Nat := bitsOf (getLe s.mem (base + 8) 8) 32 16
/-- GEOM: the head dimension. -/
def kvHdim (s : State) (base : Nat) : Nat := bitsOf (getLe s.mem (base + 8) 8) 0 12
/-- Is GEOM free of reserved bits, with a head dimension that R264 allows and rows that fit? -/
def kvGeomOk (s : State) (base : Nat) : Bool :=
  let g := getLe s.mem (base + 8) 8
  bitsOf g 48 16 == 0 && bitsOf g 12 20 == 0 && bitsOf g 0 12 % 32 == 0 && decide (32 ≤ bitsOf g 0 12 ∧ bitsOf g 0 12 ≤ 2048) &&
    decide (bitsOf g 32 16 * bitsOf g 0 12 ≤ 61440)

/-- A number with one of its fields replaced. -/
def putField (x lo w v : Nat) : Nat := x - bitsOf x lo w * 2 ^ lo + v % 2 ^ w * 2 ^ lo

/-- The dirty lines of a frame written home from every cluster, and no copy kept. -/
def State.dropFrame (s : State) (frame : Nat) : State :=
  let here := s.cc.filter fun l => l.pa / 65536 * 65536 == frame
  let s := here.foldl (fun s l => s.writeBack l.clu l.pa) s
  { s with cc := s.cc.filter fun l => l.pa / 65536 * 65536 != frame, l1 := s.l1.filter fun l => l.pa / 65536 * 65536 != frame }

/-! ## KVSEAL (R269, R270) -/

/-- The stack of a frame, by its address (R47): each stack's engine has its own seal list (R272). -/
def stackOf (frame : Nat) : Nat := frame / 65536 % 6 + (if frame / 65536 < 6291456 then 0 else 6)

/-- A started `KVSEAL`. It goes on when its page's earlier stores are at home, and when the list has room. -/
def State.runSeal (s : State) (o : Op) : State :=
  let w := (o.args.headD 0#32).toNat
  match s.kvPage o true with
  | .halted s => s
  | .wait s => s
  | .bad => s.finishOp o.id .poison 0x51#8
  | .ok t _ =>
    let pw := s.pageWord t.pa
    let frame := t.pa / 65536 * 65536
    if !pwValid pw then s.finishOp o.id .poison 0x51#8
    else if pwState pw ≠ 0 ∨ 61440 < bitsOf w 0 16 * kvHdim s t.pa ∨ w / 2 ^ 16 ≠ 0 then s.finishOp o.id .poison 0x52#8
    else if s.frameBusy frame ∨ 32768 ≤ (s.seals.filter fun x => stackOf x.frame == stackOf frame).length then s
    else
      let s := s.dropFrame frame
      let s := s.homeWrite o.asid (t.pa + 8) (natLe 8 (putField (getLe s.mem (t.pa + 8) 8) 32 16 (bitsOf w 0 16)))
      let s := s.homeWrite o.asid (t.pa + 0x20) (natLe 8 (putField (getLe s.mem (t.pa + 0x20) 8) 0 9 o.asid))
      let s := (s.homeWrite o.asid t.pa (natLe 8 (putField pw 48 2 1))).shoot o.asid t.va t.span
      let s := s.homeWrite o.asid (t.pa + 0x10) (natLe 8 s.timeNs)
      (State.relFor { s with seals := s.seals ++ [{ frame := frame, half := (t.pa - frame) / 0x8000 }] } o).finishOp o.id .done 0#8

/-! ## KVHDR (R280) -/

/-- Step 3 of `KVHDR`, once its page stands in a frame of its own. -/
def State.openPage (s : State) (o : Op) (t : Tlb) : State :=
  let w := (o.args.headD 0#32).toNat
  let pw := s.pageWord t.pa
  let frame := t.pa / 65536 * 65536
  let half := (t.pa - frame) / 0x8000
  let ver := if pwValid pw then (pwVer pw + 2) % 2 ^ 32 else 0
  let s := { s.dropFrame frame with seals := s.seals.filter fun x => !(x.frame == frame && x.half == half) }
  let s := s.homeWrite o.asid (t.pa + 8) (natLe 8 (bitsOf w 0 12) ++ natLe 8 0)
  let s := s.homeWrite o.asid (t.pa + 0x20) (natLe 8 (bitsOf w 12 4 * 2 ^ 12))
  (((s.homeWrite o.asid t.pa (natLe 8 (0x4B * 2 ^ 56 + 3 * 2 ^ 44 + ver))).shoot o.asid t.va t.span).relFor o).finishOp o.id .done 0#8

/-- A started `KVHDR`. A page in MXFP4 waits for `KVHDR_REFILL` first (stage 1). -/
def State.runHdr (s : State) (o : Op) : State :=
  let w := (o.args.headD 0#32).toNat
  let hd := bitsOf w 0 12
  match s.kvPage o true with
  | .halted s => s
  | .wait s => s
  | .bad => s.finishOp o.id .poison 0x51#8
  | .ok t _ =>
    let pw := s.pageWord t.pa
    if hd % 32 ≠ 0 ∨ hd < 32 ∨ 2048 < hd ∨ w / 2 ^ 16 ≠ 0 then s.finishOp o.id .poison 0x53#8
    else if pwValid pw && pwState pw == 2 then s
    else if s.migrating.any fun m => m.2 / 65536 * 65536 == t.pa / 65536 * 65536 then s
    else if pwValid pw && pwFmt pw == 7 && o.stage != 2 then s.modOp o.id fun o => { o with stage := 1 }
    else if s.frameBusy (t.pa / 65536 * 65536) then s
    else s.openPage o t

/-- The pins of a page in one half of a frame moved with it. -/
def movePins (base new span : Nat) (s : State) : State :=
  let move := fun (p : Pin) => if p.dev == s.devid && p.frame == base then ({ p with frame := new, span := span } : Pin) else p
  { s with launches := s.launches.map fun (l : Launch) => ({ l with pins := l.pins.map move } : Launch) }

/-- A converted page moved into a whole frame of the refill pool: the end of a migration (R61, R276, R280). Its upper half is zero there, its partner stays,
and a frame with neither half in use is freed, to the freed-frame ring too (log entry 198). -/
def State.unpair (s : State) (asid : Nat) (t : Tlb) (place new : Nat) : State :=
  let old := t.pa / 65536 * 65536
  let upper := t.pa != old
  let pair := getLe s.mem (old + 0x18) 8
  let paired := bitOf pair 63
  let s := moveMarks t.pa new 0x8000 { s with mem := copyRange (clearRange s.mem new 65536) t.pa new 0x8000 }
  let s := s.homeWrite 0x200 (new + 0x18) (natLe 8 0)
  let s := if upper then s.homeWrite 0x200 (old + 0x18) (natLe 8 (putField pair 63 1 0)) else s
  let s := ((s.putEntry place (migEntry (getLe s.mem place 8) false new)).shoot asid t.va t.span).acquireAll
  let s := releaseWaiting old new { movePins t.pa new 65536 s with migrating := s.migrating.filter fun m => m.1 != old }
  let s := retireFrames s.toRetire s
  if paired || upper then s else s.freeFrame old

/-- Step `KVHDR_REFILL` (R280): the page of a waiting `KVHDR` takes a frame from the refill pool, as a migration (R61). The step occurs twice: first it sets
MIG, so that every access of the page waits; then the page moves. -/
def execKvhdrRefill (id : Nat) (s : State) : Host.Outcome State Fault Refusal :=
  match s.op? id with
  | none => .next s
  | some o =>
    match o.kind, s.walk o.asid o.va with
    | .kvhdr, .leaf t place =>
      let pw := s.pageWord t.pa
      let old := t.pa / 65536 * 65536
      if o.stage != 1 || !t.kv || t.span != 65536 || !pwValid pw || pwFmt pw != 7 then .next s
      else match t.mig, s.migrating.find? (fun m => m.1 == old), s.refill with
        | true, some m, _ => .next ((s.unpair o.asid t place m.2).modOp id fun o => { o with stage := 2 })
        | false, none, new :: rest => if s.frameBusy old then .next s else .next (State.migBegin { s with refill := rest } o.asid place old new t)
        | _, _, _ => .next s
    | _, _ => .next s

/-! ## KVLD (R277 to R279) -/

/-- Operands of a `KVLD`. -/
structure KvldArgs where
  nrow : Nat
  row0 : Nat
  win  : Bool
  soff : Nat
  dst  : Nat
  e4m3 : Bool
  deriving DecidableEq, Repr

/-- The operands that the operation holds. -/
def kvldArgs (o : Op) : KvldArgs :=
  let a := fun i => (o.args.getD i 0#32).toNat
  { nrow := bitsOf (a 0) 16 16, row0 := bitsOf (a 0) 0 16, win := a 5 == 1, soff := a 1, dst := if a 5 == 1 then a 2 + 2 ^ 32 * a 3 else a 1, e4m3 := a 4 == 1 }

/-- One element of a page decoded (R278): its bytes in the output format. -/
def kvElem (s : State) (base fmt hdim r i : Nat) (e4m3 : Bool) : Bytes :=
  if fmt = 3 then
    let c := byteAt s (base + 0x40 + r * hdim + i)
    if e4m3 then natLe 1 c else natLe 2 (fmtBf16.arith .rne (fmtE4m3.decode c)).1
  else
    let b := r * (hdim / 32) + i / 32
    let x := byteAt s (base + 0x40 + 16 * b + i % 32 / 2)
    let code := if i % 2 = 0 then x % 16 else x / 16
    let c := byteAt s (base + 0x7840 + b)
    let v := fmtE2m1.decode code
    if e4m3 then natLe 1 (if c = 0xFF then 0x7F else (fmtE4m3.narrow .rne false (v.scale ((c : Int) - 127))).1)
    else natLe 2 (foldElem .rne false v c).1

/-- The rows of a `KVLD` decoded, and padded to whole chunks with zeros. -/
def kvRowsOut (s : State) (base fmt hdim : Nat) (a : KvldArgs) : Bytes :=
  let bs := (List.range a.nrow).flatMap fun k => (List.range hdim).flatMap fun i => kvElem s base fmt hdim (a.row0 + k) i a.e4m3
  bs ++ List.replicate ((bs.length + 511) / 512 * 512 - bs.length) 0#8

/-- The destination bytes of a `KVLD` on a page. -/
def kvldDl (hdim : Nat) (a : KvldArgs) : Nat := (a.nrow * hdim * (if a.e4m3 then 1 else 2) + 511) / 512 * 512

/-- The buffer of a `KVLD`'s decoded rows. -/
def kvldKey : Nat := 2 ^ 65

/-- Does a `KVLD` read a byte of a lost line: of its rows, or of their scales (R265, R397)? -/
def State.kvLost (s : State) (base fmt hdim : Nat) (a : KvldArgs) : Bool :=
  if fmt = 3 then s.lostIn (base + 0x40 + a.row0 * hdim) (a.nrow * hdim)
  else s.lostIn (base + 0x40 + a.row0 * hdim / 2) (a.nrow * hdim / 2) || s.lostIn (base + 0x7840 + a.row0 * hdim / 32) (a.nrow * hdim / 32)

/-- A started `KVLD` reads its page word and, when it is even, its rows, all at one instant (R279; log entry 199): stage 2 holds them; stage 1 waits on an odd
word. -/
def State.kvldRead (s : State) (o : Op) : State :=
  let a := kvldArgs o
  if a.dst % 512 ≠ 0 then s.finishOp o.id .poison 0x53#8
  else match s.kvPage o false with
    | .halted s => s
    | .wait s => s
    | .bad => s.finishOp o.id .poison 0x51#8
    | .ok t _ =>
      let pw := s.pageWord t.pa
      let hdim := kvHdim s t.pa
      if !pwValid pw then s.finishOp o.id .poison 0x51#8
      else if bitOf pw 0 then s.modOp o.id fun o => { o with stage := 1, ordn := pw }
      else if a.nrow = 0 ∨ (a.win ∧ a.soff ≠ 0) ∨ kvRows s t.pa < a.row0 + a.nrow ∨ !kvGeomOk s t.pa then s.finishOp o.id .poison 0x53#8
      else if !a.win && !dstIn (s.opTeam o) 1 0 a.dst (kvldDl hdim a)
        then s.finishOp o.id .poison 0x43#8
      else if s.kvLost t.pa (pwFmt pw) hdim a then s.engineEnds o 0x31 o.va
      else (s.putBuf o.id kvldKey 0 (kvRowsOut s t.pa (pwFmt pw) hdim a)).modOp o.id fun o => { o with stage := 2, ordn := pw }

/-- The window pieces of a `KVLD`'s output, each of 512 bytes, with the bytes that have landed; a piece that finds no window is dropped (R77), and one that
must wait makes the whole wait. -/
def kvldWindow (o : Op) : Nat → Nat → Nat → Bytes → State → Put × Nat
  | 0, k, _, _, s => (.ok s, k)
  | n + 1, k, va, bs, s => match s.putWindow o 0 10 va (bs.take 512) with
    | .ok s => kvldWindow o n (k + 512) (va + 512) (bs.drop 512) s
    | .fail c => kvldWindow o n k (va + 512) (bs.drop 512) (s.failOp o.id c)
    | r => (r, k)

/-- A `KVLD` has written its destination: its chunks and bytes that landed are counted, and PROG shows them when all did (R230, R347, R416). -/
def State.kvldDone (s : State) (o : Op) (core landed all : Nat) : State :=
  let s := if o.bound && landed == all then s.putToken o.grp o.kd { st := .pend, prog := progAll, op := o.id } else s
  let s := s.count core o.asid o.team 0x031 (landed / 512)
  (countBytes landed o.asid (s.opUnit o) o.exprts s).modOp o.id fun o => { o with stage := 4 }

/-- An accepted `KVLD` writes its destination, and every presence and PROG bit at once (R278). -/
def State.kvldAccept (s : State) (o : Op) (bs : Bytes) : State :=
  let a := kvldArgs o
  let t := s.opTeam o
  if a.win then match kvldWindow o (bs.length / 512) 0 a.dst bs s with
    | (.ok s, n) => s.kvldDone o t.core n bs.length
    | (.wait s, _) => s
    | (.halted s, _) => s
    | (.fail _, _) => s
  else
    State.kvldDone { s with mem := putBytes s.mem (spadAddr t.core (t.spBase * 512 + a.dst)) bs
                            absent := s.absent.filter fun (x : Nat × Nat × Nat) => x.2.2 != o.id } o t.core bs.length bs.length

/-- A started `KVLD` reads its page word again (R278): accepted when it is the same. -/
def State.kvldLand (s : State) (o : Op) : State :=
  if o.stage ≠ 2 then s
  else match s.kvPage o false, o.buf kvldKey with
    | .halted s, _ => s
    | .wait s, _ => s
    | .bad, _ => s.finishOp o.id .poison 0x51#8
    | .ok t _, some (_, bs) => if s.pageWord t.pa = o.ordn then s.kvldAccept o bs else s.modOp o.id fun o => { o with stage := 3 }
    | .ok _ _, none => s

/-- Step `KVLD_RETRY` (R278): a `KVLD` that found the version odd goes on once the page word has changed; one whose word changed under it reads again. -/
def execKvldRetry (id : Nat) (s : State) : Host.Outcome State Fault Refusal :=
  match s.op? id with
  | none => .next s
  | some o => match o.kind, o.stage with
    | .kvld, 3 => .next (s.kvldRead o)
    | .kvld, 1 => match s.kvPage o false with
      | .ok t _ => if s.pageWord t.pa = o.ordn then .next s else .next (s.kvldRead o)
      | .halted s => .next s
      | _ => .next s
    | _, _ => .next s

/-! ## Conversion (R271 to R273) -/

/-- The 16 bytes and the scale of one MXFP4 block (R164, R265). -/
def convertBlock (s : State) (base b : Nat) : Bytes × Nat :=
  let xs := (List.range 32).map fun i => fmtE4m3.decode (byteAt s (base + 0x40 + 32 * b + i))
  let (c, codes, _) := quantiseBlock 7 xs
  ((List.range 16).map fun j => BitVec.ofNat 8 (codes.getD (2 * j) 0 + 16 * codes.getD (2 * j + 1) 0), c)

/-- The page's bytes from 0x40 on, converted (R265, R273). -/
def convertPage (s : State) (base : Nat) : Bytes :=
  let nb := min 1920 (kvRows s base * kvHdim s base / 32)
  let blocks := (List.range nb).map (convertBlock s base)
  let els := (blocks.map (·.1)).flatten
  let scs := blocks.map fun b => BitVec.ofNat 8 b.2
  sliceBytes els 0 0x7800 ++ sliceBytes scs 0 (0x10000 - 0x7840)

/-- Has a listed page's age passed (R272)? -/
def State.aged (s : State) (base : Nat) : Bool :=
  let own := getLe s.mem (base + 0x20) 8
  match s.ctx? (bitsOf own 0 9) with
  | some c =>
    let at_ := (c.ages.getD (bitsOf own 12 4) 0xFFFFFFFF#32).toNat
    at_ != 0xFFFFFFFF && decide (getLe s.mem (base + 0x10) 8 + 1000 * at_ < s.timeNs)
  | none => false

/-- Step `KV_CONVERSION` (R272, R273). The step occurs twice: first the page word becomes CONVERTING, or the entry is dropped; then the blocks are written
and the page word becomes SEALED in MXFP4. -/
def execKvConversion (frame half : Nat) (s : State) : Host.Outcome State Fault Refusal :=
  let base := frame + half * 0x8000
  let pw := s.pageWord base
  let listed := s.seals.any fun x => x.frame == frame && x.half == half
  let drop := { s with seals := s.seals.filter fun x => !(x.frame == frame && x.half == half) }
  if !listed || s.migrating.any (fun m => m.1 == frame) || half > 1 then .next s
  else if pwValid pw && pwState pw == 2 then
    let s := drop.homeWrite 0x200 (base + 0x40) (convertPage s base)
    .next (s.homeWrite 0x200 base (natLe 8 (putField (putField (putField pw 48 2 1) 44 4 7) 0 32 (pwVer pw + 1))))
  else if !s.aged base then .next s
  else if pwValid pw && pwState pw == 1 && pwFmt pw == 3 && half == 0 then
    .next (s.homeWrite 0x200 base (natLe 8 (putField (putField pw 48 2 2) 0 32 (pwVer pw + 1))))
  else .next drop

/-! ## Pairing (R275) -/

/-- A page that may be paired: converted, in the lower half of a frame of its own; its move begins, or is under way. -/
def State.pairable (s : State) (asid va : Nat) (moving : Bool) : Option (Tlb × Nat) :=
  match s.walk asid va with
  | .leaf t place =>
    let pw := s.pageWord t.pa
    if t.kv && t.dev == s.devid && t.mig == moving && t.span == 65536 && t.pa % 65536 == 0 && pwValid pw && pwState pw == 1 && pwFmt pw == 7 &&
        !bitOf (getLe s.mem (t.pa + 0x18) 8) 63 then some (t, place) else none
  | _ => none

/-- Page Q, its copy made, joins P's frame: PAIR and Q's leaf are written, both pages are shot down, and Q's pins go with it (R275 steps 2 to 5). -/
def State.pairEnd (s : State) (asid : Nat) (p q : Tlb) (place : Nat) : State :=
  let s := s.dropFrame p.pa
  let s := moveMarks q.pa (p.pa + 0x8000) 0x8000 { s with mem := copyRange s.mem q.pa (p.pa + 0x8000) 0x8000 }
  let s := s.homeWrite 0x200 (p.pa + 0x18) (natLe 8 (2 ^ 63 + bitsOf q.va 16 41))
  let s := s.putEntry place (migEntry (getLe s.mem place 8) false p.pa)
  let s := ((s.shoot asid q.va q.span).shoot asid p.va p.span).acquireAll
  let s := releaseWaiting q.pa p.pa { movePins q.pa (p.pa + 0x8000) 0x8000 s with migrating := s.migrating.filter fun m => m.1 != q.pa }
  (retireFrames s.toRetire s).freeFrame q.pa

/-- A pairing whose page P is no longer what it was: Q stays where it stands. -/
def State.pairDrop (s : State) (asid : Nat) (q : Tlb) (place : Nat) : State :=
  let s := (s.putEntry place (migEntry (getLe s.mem place 8) false q.pa)).shoot asid q.va q.span
  releaseWaiting q.pa q.pa { s with migrating := s.migrating.filter fun m => m.1 != q.pa }

/-- Step `KV_PAIRING` (R275): page Q moves into the upper half of P's frame, and its own frame is freed. The step occurs twice, as a migration's does: first
MIG is set in Q's leaf; then Q moves. -/
def execKvPairing (asid vp vq : Nat) (s : State) : Host.Outcome State Fault Refusal :=
  match s.pairable asid vq true with
  | some (q, place) => match s.migrating.find? (fun m => m.1 == q.pa), s.pairable asid vp false with
    | some m, some (p, _) =>
      if m.2 != p.pa + 0x8000 then .next s else if s.frameBusy p.pa then .next s else .next (s.pairEnd asid p q place)
    | some m, none => if m.2 % 65536 == 0x8000 then .next (s.pairDrop asid q place) else .next s
    | none, _ => .next s
  | none => match s.pairable asid vp false, s.pairable asid vq false with
    | some (p, _), some (q, place) =>
      if p.pa = q.pa ∨ s.frameBusy q.pa ∨ s.frameBusy p.pa ∨ (s.migrating.any fun m => m.1 = p.pa ∨ m.2 / 65536 * 65536 = p.pa) then .next s
      else .next (s.migBegin asid place q.pa (p.pa + 0x8000) q)
    | _, _ => .next s

end Sys2Proof.Machine
end

