-- ==== Sys2Proof/Machine/PlaceEvents.lean ====
section
/-!
DEFINITION. How work is placed (R12 to R14, R64 to R73, R386, R391): the room of a core, the placing of a team, a distributor's decision, reservations
between distributors, and pre-emption for starved launches.
-/
namespace Sys2Proof.Machine
open Sys2Proof

/-! ## Room on a core (R67, R68) -/

/-- What is taken on a core. -/
structure Occ where
  teams : Nat := 0
  slots : List (Nat × Nat) := []
  lines : List (Nat × Nat) := []
  tiles : List (Nat × Nat × Nat) := []
  wbuf  : List (Nat × Nat × Nat) := []
  pats  : List (Nat × Bytes) := []
  deriving DecidableEq, Repr

/-- The partitions in the order that breaks ties (R68). -/
def partOrder : List Nat := [0, 4, 8, 12, 1, 5, 9, 13, 2, 6, 10, 14, 3, 7, 11, 15]

/-- The partition with the fewest groups. -/
def pickPart (slots : List (Nat × Nat)) : Nat :=
  let count := fun p => (slots.filter fun x => x.1 == p).length
  partOrder.foldl (fun b p => if count p < count b then p else b) 0

/-- The seats of a number of groups, in order; none when a partition is full. -/
def seatGroups : Nat → List (Nat × Nat) → Option (List (Nat × Nat))
  | 0, _ => some []
  | n + 1, slots =>
    let p := pickPart slots
    match (List.range 8).find? fun i => !slots.contains (p, i) with
    | none => none
    | some i => (seatGroups n (slots ++ [(p, i)])).map fun r => (p, i) :: r

/-- The runs taken in one array. -/
def inArray (a : Nat) (l : List (Nat × Nat × Nat)) : List (Nat × Nat) := (l.filter fun x => x.1 == a).map (·.2)

/-- The runs of tiles and weight buffer in each of some arrays. -/
def arrayRuns (occ : Occ) (img : Image) : List Nat → Option (List (Nat × Nat × Nat))
  | [] => some []
  | a :: rest => match freeRun 0 32 img.acct (inArray a occ.tiles), freeRun 0 128 img.wbk (inArray a occ.wbuf), arrayRuns occ img rest with
    | some t, some w, some r => some ((a, t, w) :: r)
    | _, _, _ => none

/-- The assignment of R68, when it succeeds in full. -/
def fitOn (occ : Occ) (img : Image) : Option Fit :=
  let ok := img.pats.all fun p => occ.pats.all fun q => q.1 != p.1 || q.2 == p.2
  if 16 ≤ occ.teams || !ok then none
  else match seatGroups img.groupCount occ.slots, freeRun 0 2048 (img.spad / 512) occ.lines with
    | some seats, some base =>
      let used := (List.range 4).filter fun a => seats.any fun x => x.1 / 4 == a
      (arrayRuns occ img used).map fun arrays => { seats := seats, spBase := base, arrays := arrays }
    | _, _ => none

/-- A core with an assignment taken too. -/
def Occ.take (o : Occ) (img : Image) (f : Fit) : Occ :=
  { teams := o.teams + 1, slots := o.slots ++ f.seats, lines := o.lines ++ [(f.spBase, img.spad / 512)]
    tiles := o.tiles ++ f.arrays.map (fun x => (x.1, x.2.1, img.acct)), wbuf := o.wbuf ++ f.arrays.map (fun x => (x.1, x.2.2, img.wbk))
    pats := o.pats ++ img.pats }

/-- What the resident teams of a core take, but for some of them. A finished group has released its slot (R399). -/
def State.occOf (s : State) (core : Nat) (but : List Nat) : Occ :=
  let ts := s.teams.filter fun t => t.phase == .resident && t.core == core && !but.contains t.uid
  let gs := s.groups.filter fun g => g.resident && !g.finished && ts.any fun t => t.uid == g.team
  { teams := ts.length, slots := gs.map fun g => (g.part, g.slot), lines := ts.map fun t => (t.spBase, t.spLines)
    tiles := ts.flatMap fun t => t.arrays.map fun x => (x.1, x.2.1, t.acct)
    wbuf := ts.flatMap fun t => t.arrays.map fun x => (x.1, x.2.2, t.wbk), pats := ts.flatMap fun t => (s.teamImage t).pats }

/-- A core, but for some of its teams, with what distributors have reserved on it: reservations granted and not yet used, and the room that a pre-emption
makes (R66, R71). -/
def State.claimed (s : State) (core : Nat) (but : List Nat) : Occ :=
  ((s.dists.flatMap Distributor.claims).filter fun c => c.core == core).foldl (fun o c => o.take c.img c.fit) (s.occOf core but)

/-! ## Placing a team (R13, R14, R20, R67 to R69, R391) -/

/-- The words of a group's `s` registers at its start (R13). -/
def startWords (l : Launch) (index role inRole g : Nat) (count : Nat) : List Word :=
  let x := if l.gx = 0 then 0 else index % l.gx
  let y := if l.gx * l.gy = 0 then 0 else index / l.gx % l.gy
  let z := if l.gx * l.gy = 0 then 0 else index / l.gx / l.gy
  [index, x, y, z, role, inRole, g, count, l.largs.toNat % 2 ^ 32, l.largs.toNat / 2 ^ 32].map (BitVec.ofNat 32) ++ List.replicate 182 0#32

/-- A thread at its start (R13). -/
def startThread (entry lane : Nat) : Thread := { pc := BitVec.ofNat 32 entry, v := BitVec.ofNat 32 lane :: List.replicate 127 0#32 }

/-- The roles of an image's groups, in team group index: role, index within it, and the role's entry and count. -/
def roleOrder : Nat → List Role → List (Nat × Nat × Nat × Nat)
  | _, [] => []
  | r, x :: xs => (List.range x.groups).map (fun i => (r, i, x.entry, x.groups)) ++ roleOrder (r + 1) xs

/-- The groups of a team at their start, as the clock of their die stands at `now`. -/
def startGroups (l : Launch) (img : Image) (team index core uid now : Nat) (seats : List (Nat × Nat)) : List Group :=
  ((roleOrder 0 img.roles).zip seats).zipIdx.map fun (x, g) =>
    let (r, i, entry, n) := x.1
    { uid := uid + g, team := team, launch := l.uid, asid := l.asid, idx := g, role := r, core := core, part := x.2.1, slot := x.2.2
      threads := laneList.map (startThread entry), s := startWords l index r i g n, q := 0#4, k := List.replicate 16 {}, lastIssue := now }

/-- The tiles of a team at their start (R14). -/
def startTiles (img : Image) (arrays : List (Nat × Nat × Nat)) : List Tile :=
  arrays.flatMap fun a => (List.range img.acct).map fun i => { arr := a.1, idx := i }

/-- The storage of an assignment cleared (R14). -/
def clearStorage (m : Memory) (core : Nat) (img : Image) (f : Fit) : Memory :=
  let m := clearRange m (spadAddr core (f.spBase * 512)) img.spad
  f.arrays.foldl (fun m a => clearRange (clearRange m (tileAddr core a.1 a.2.1 0) (img.acct * 0x1000)) (wbufAddr core a.1 (a.2.2 * 1024)) (img.wbk * 1024)) m

/-- The pattern tables of a core with an image's loaded (R20). -/
def loadPats (core : Nat) (ps : List (Nat × Bytes)) (l : List (Nat × Nat × Bytes)) : List (Nat × Nat × Bytes) :=
  ps.foldl (fun l p => (core, p.1, p.2) :: l.filter fun x => !(x.1 == core && x.2.1 == p.1)) l

/-! ### The image that a team reads (R23) -/

/-- The pieces of a launch's image, in order. -/
def State.imagePieces (s : State) (l : Launch) : List (Phys × Nat) := match piecesOf s l.asid {} false (pageRuns l.img.va l.raw.length) with
  | .ok segs => cutPieces segs
  | _ => []

/-- Has a piece been read for the launch's next new team: is it here, or has its read on another device been answered? -/
def State.pieceHere (s : State) (l : Launch) : Phys → Bool
  | .remote d pa => (s.barRead l.uid (recordKey d pa)).any fun r => r.1.isSome || r.2 != 0#8
  | _ => true

/-- Has the image of a launch's next new team been read, as far as it lies on other devices? -/
def State.imageHere (s : State) (l : Launch) : Bool := (s.imagePieces l).all fun x => s.pieceHere l x.1

/-- The pieces on other devices asked for, those that have not been. -/
def State.askImage (s : State) (l : Launch) : State := (s.imagePieces l).foldl (fun s x => match x.1 with
  | .remote d pa => if (s.barRead l.uid (recordKey d pa)).isSome then s else s.askAway l.uid l.asid d pa x.2
  | _ => s) s

/-- The bytes of a piece as they stand, or as they were validated when its read has failed (log entry 154). -/
def State.pieceNow (s : State) (l : Launch) (old : Bytes) : Phys × Nat → Bytes
  | (.remote d pa, n) => match s.barRead l.uid (recordKey d pa) with
    | some (some bs, _) => sliceBytes bs 0 n
    | _ => old.take n
  | (.host _, n) => old.take n
  | x => s.readNear [x]

/-- Bytes of an image as they stand, piece by piece. -/
def readOr (s : State) (l : Launch) : List (Phys × Nat) → Bytes → Bytes
  | [], _ => []
  | x :: rest, old => s.pieceNow l old x ++ readOr s l rest (old.drop x.2)

/-- Each 8-byte unit old or new. -/
def mixUnits (new? : Nat → Bool) : Nat → Nat → Bytes → Bytes → Bytes
  | 0, _, _, _ => []
  | n + 1, i, old, new => (if new? i then new else old).take 8 ++ mixUnits new? n (i + 1) (old.drop 8) (new.drop 8)

/-- The image that the team of an index reads as it is placed (R23): the one that was validated, or, where software has changed it since, a mix by units that
is an image still (log entry 154). -/
def State.freshImage (s : State) (l : Launch) (index : Nat) : Image :=
  if l.raw.isEmpty then l.img
  else
    let now := match s.imagePieces l with
      | [] => l.raw
      | ps => readOr s l ps l.raw
    let mixed := mixUnits (Config.imageUnit l.uid index) (l.raw.length / 8 + 1) 0 l.raw now
    let roleg := fieldLe l.recd 0x1C 4
    if now != l.raw && headerOk mixed && imageCause mixed roleg == 0 && decide (imageEnd mixed ≤ l.raw.length) then imageOf l.img.va mixed roleg else l.img

/-- A new team placed. -/
def State.placeNew (s : State) (l : Launch) (index core : Nat) (img : Image) (f : Fit) (save : Nat) : State :=
  let uid := s.nextId
  let t : Team := { uid := uid, launch := l.uid, asid := l.asid, index := index, core := core, spBase := f.spBase, spLines := img.spad / 512, arrays := f.arrays
                    acct := img.acct, wbk := img.wbk, queues := img.queues, tiles := startTiles img f.arrays, save := save, placedAt := uid
                    img := if img = l.img then none else some img }
  let m := clearStorage s.mem core img f
  tagAll 0x200 (if save = 0 then [] else [(save, 0x100)]) { s with
    nextId := uid + 1 + img.groupCount, teams := s.teams ++ [t]
    groups := s.groups ++ startGroups l img uid index core (uid + 1) (s.die (dieOf core)).cycles f.seats
    mem := if save = 0 then m else putBytes m save (headerBytes index l.va img (f.arrays.map (·.1)) 0 0), pats := loadPats core img.pats s.pats }

/-- The array of a saved team whose contents a new array takes: that of its first group there. -/
def oldArray (gs : List Group) (seats : List (Nat × Nat)) (a : Nat) : Nat :=
  match (gs.zip seats).find? fun x => x.2.1 / 4 == a with
  | some (g, _) => g.part / 4
  | none => a

/-- The tiles and shares of a saved team brought into their new arrays. -/
def bringArrays (t : Team) (img : Image) (core : Nat) (gs : List Group) (f : Fit) (m : Memory) : Memory :=
  f.arrays.foldl (fun m a =>
    match t.numbered.find? fun x => x.2 == oldArray gs f.seats a.1 with
    | none => m
    | some (k, _) =>
      let m := if t.tilesKept then (List.range img.acct).foldl (fun m i =>
          copyRange m (t.save + img.to_ + (k * img.acct + i) * 0x1040) (tileAddr core a.1 (a.2.1 + i) 0) 0x1000) m else m
      copyRange m (t.save + img.wo t.arrays.length + k * img.wbk * 1024) (wbufAddr core a.1 (a.2.2 * 1024)) (img.wbk * 1024)) m

/-- The saved words of a tile that re-enter its order on a new array: those of the groups seated there, in the order that they had (R260). -/
def heldWords (s : State) (t : Team) (gs : List Group) (f : Fit) (x : Tile) : List Nat :=
  (t.tiles.filter fun o => o.idx == x.idx).flatMap fun o => o.ord.filter fun id => match s.op? id with
    | some p => (gs.zip f.seats).any fun y => y.1.uid == p.grp && y.2.1 / 4 == x.arr
    | none => false

/-- The tiles' states in their new arrays, and the words that re-enter their orders (R260, R391). -/
def bringTiles (s : State) (t : Team) (img : Image) (gs : List Group) (f : Fit) : List Tile :=
  (startTiles img f.arrays).map fun x => match t.tile? (oldArray gs f.seats x.arr) x.idx with
    | some o => if t.tilesKept then { o with arr := x.arr, ord := heldWords s t gs f x } else x
    | none => x

/-- A saved group seated again. One that has finished keeps a seat, by which its words that are still held find their array (R260). -/
def reseat (core now : Nat) (seats : List (Nat × Nat)) (g : Group) : Group :=
  let x := seats.getD g.idx (0, 0)
  if g.finished then { g with core := core, part := x.1, slot := x.2 } else g.resumed core x.1 x.2 now

/-- The groups of a team, in team group index. -/
def State.groupsOf (s : State) (team : Nat) : List Group :=
  (List.range 32).filterMap fun i => s.groups.find? fun g => g.team == team && g.idx == i

/-- `RCV` releases what a save had held, group by group. -/
def releaseRcv : List Nat → State → State
  | [], s => s
  | u :: us, s => releaseRcv us (match s.group? u with
    | some g => s.rcvRelease (s.issueOf g [])
    | none => s)

/-- A team's header written to the area that it resumes with, and its trap frames brought there, when that is not the area that it was saved in. -/
def moveArea (t : Team) (l : Launch) (img : Image) (f : Fit) (gs : List Group) (save : Nat) (s : State) : State :=
  if save = t.save then s
  else
    let at_ := fun (a : Nat) (g : Group) => a + 0x100 + g.idx * 0x5800 + 0x840
    let m := putBytes s.mem save (headerBytes t.index l.va img (f.arrays.map (·.1)) 0 0)
    tagAll 0x200 ((save, 0x100) :: gs.map fun g => (at_ save g, 0x800)) { s with mem := gs.foldl (fun m g => copyRange m (at_ t.save g) (at_ save g) 0x800) m }

/-- A saved team placed again (R391), with a save area that may be a larger one than it had (log entry 78). Its new cluster keeps no copy from before, so that
its threads read there what the operations that they have seen finish wrote (R342, R431; log entry 196). -/
def State.placeSaved (s : State) (t : Team) (l : Launch) (core : Nat) (f : Fit) (save : Nat) : State :=
  let img := s.teamImage t
  let gs := s.groupsOf t.uid
  let m := clearStorage s.mem core img f
  let m := copyRange m (t.save + img.spo) (spadAddr core (f.spBase * 512)) img.spad
  let m := bringArrays t img core gs f m
  let t' : Team := { t with phase := .resident, core := core, spBase := f.spBase, arrays := f.arrays, tiles := bringTiles s t img gs f, stop := none, tilesKept := true
                            placedAt := s.nextId, save := save, away := [] }
  let s := { (moveArea t l img f gs save { s with mem := m }).bump with
    absent := moveAbsent t.lineKey (core, f.spBase) t.spLines s.absent
    teams := mapIf (fun x => x.uid == t.uid) (fun _ => t') s.teams
    groups := mapIf (fun g => g.team == t.uid) (reseat core (s.die (dieOf core)).cycles f.seats) s.groups
    pats := loadPats core img.pats s.pats }
  releaseRcv (gs.map (·.uid)) (s.acquire core 5)

/-! ## The next team (R65, R386) -/

/-- The teams of a launch's grid. -/
def Launch.total (l : Launch) : Nat := l.gx * l.gy * l.gz

/-- A launch's saved team of lowest index. -/
def State.savedTeam? (s : State) (l : Nat) : Option Team :=
  s.teams.foldl (fun b t => if t.launch == l && t.isSaved then (match b with
    | some x => if t.index < x.index then some t else b
    | none => some t) else b) none

/-- Is a context's work placed: neither descheduled nor being torn down? -/
def State.placesFor (s : State) (asid : Nat) : Bool := match s.ctx? asid with
  | some c => !c.descheduled && !c.tearing
  | none => false

/-- Is a launch eligible (R65)? -/
def State.eligible (s : State) (l : Launch) : Bool :=
  l.phase == .ready && !l.isCtrl && l.ended.isNone && s.placesFor l.asid && (decide (l.next < l.total) || (s.savedTeam? l.uid).isSome)

/-- Does a launch's next team wait for the end of the migration out of whose way it was swapped (R62)? -/
def State.awaitsMove (s : State) (l : Nat) : Bool := (s.savedTeam? l).any fun t => t.away.any fun f => s.migrating.any fun m => m.1 == f

/-- The image of a launch's next team. -/
def State.nextImage (s : State) (y : Launch) : Image := match s.savedTeam? y.uid with
  | some t => s.teamImage t
  | none => s.freshImage y y.next

/-- A save area of a size for a launch's next team (R386): its own where that is large enough, else one from the pool. -/
def State.areaFor (s : State) (y : Launch) (n : Nat) : Option Nat := match s.savedTeam? y.uid with
  | some t => if y.saves.any fun a => a.1 == t.save && decide (n ≤ a.2) then some t.save else s.saveRoom y.asid n
  | none => s.saveRoom y.asid n

/-- The room of a core for a launch's next team, beside every claim and but for some of the core's teams: its assignment (R68) and its save area. -/
def State.claimOn (s : State) (y : Launch) (core : Nat) (but : List Nat) : Option Claim :=
  (fitOn (s.claimed core but) (s.nextImage y)).bind fun f => (s.areaFor y ((s.nextImage y).saveSize f.arrays.length)).map fun a =>
    { launch := y.uid, team := ((s.savedTeam? y.uid).map (·.uid)).getD 0, core := core, img := s.nextImage y, fit := f, save := a }

/-- May what a claim is for be placed still: its launch runs, its context's work is placed, and its team is still to be? -/
def State.claimStands (s : State) (c : Claim) : Bool := (s.launch? c.launch).any fun y =>
  y.ended.isNone && (y.isCtrl || s.placesFor y.asid) && (if c.team = 0 then decide (y.next < y.total) else (s.team? c.team).any Team.isSaved)

/-- The team of a claim placed. -/
def State.placeNext (s : State) (c : Claim) : State :=
  match s.launch? c.launch with
  | none => s
  | some y =>
    let saves := if c.save = 0 || y.saves.any fun a => a.1 == c.save then y.saves else y.saves ++ [(c.save, c.img.saveSize c.fit.arrays.length)]
    let put := fun (s : State) (n : Nat) => s.modLaunch y.uid fun y => { y with next := n, starvedAt := none, unplaceable := 0, saves := saves }
    if c.team = 0 then
      let s := s.placeNew y y.next c.core c.img c.fit c.save
      put { s with barReads := s.barReads.filter fun r => r.1 != y.uid } (y.next + 1)
    else match s.team? c.team with
      | some t => put (s.placeSaved t y c.core c.fit c.save) y.next
      | none => s

/-! ## A decision (R70) -/

/-- A distributor. -/
def State.dist (s : State) (d : Nat) : Distributor := s.dists.getD d {}
/-- The state with a distributor changed. -/
def State.modDist (s : State) (d : Nat) (f : Distributor → Distributor) : State :=
  { s with dists := s.dists.zipIdx.map fun (x : Distributor × Nat) => if x.2 = d then f x.1 else x.1 }

/-- The cores in the order of a distributor's rotation (R70). -/
def rotationCores (rot : Nat) : List Nat :=
  (List.range 48).flatMap fun i =>
    let j := (rot + i) % 48
    (List.range 4).map fun c => (j % 2 * 24 + j / 2) * 4 + c

/-- The rotation position of a core's cluster. -/
def rotationOf (core : Nat) : Nat := clusterOf core % 24 * 2 + clusterOf core / 24

/-- The first core with room for a launch's next team that has not refused it (R68, R70). -/
def State.findCore (s : State) (d : Nat) (l : Launch) : Option Claim :=
  (rotationCores (s.dist d).rotation).findSome? fun c => if (s.dist d).refused.contains c then none else s.claimOn l c []

/-- The deficit of a context at a distributor and priority. -/
def Context.deficitAt (c : Context) (d prio : Nat) : Nat := ((c.deficit.find? fun x => x.1 == d && x.2.1 == prio).map (·.2.2)).getD 0
/-- The deficit set. -/
def Context.putDeficit (c : Context) (d prio v : Nat) : Context := { c with deficit := (d, prio, v) :: c.deficit.filter fun x => !(x.1 == d && x.2.1 == prio) }

/-- The eligible launches of a context at a priority that a distributor holds, oldest entry first. -/
def State.eligibles (s : State) (d asid prio : Nat) : List Nat :=
  let ls := s.launches.filter fun l => s.eligible l && l.asid == asid && l.prio == prio && l.die == d
  (ls.foldl (fun (acc : List Launch) l => (acc.takeWhile fun x => decide (x.entered < l.entered)) ++ l :: (acc.dropWhile fun x => decide (x.entered < l.entered))) []).map (·.uid)

/-- The contexts in the round order of a priority (R70). -/
def State.roundOrder (s : State) (d prio : Nat) : List Nat :=
  let p := (s.dist d).rounds.getD prio 0
  ((List.range 512).map fun i => (p + i) % 512).filter fun a => (s.ctx? a).isSome

/-- A launch found without room is starved from then on (R71). -/
def State.markStarved (s : State) (l : Nat) : State :=
  s.modLaunch l fun y => { y with starvedAt := match y.starvedAt with
    | some t => some t
    | none => some s.timeNs }

/-- Is a launch starved (R71): eligible, with no core that has room for its next team? -/
def State.stillStarved (s : State) (y : Launch) : Bool :=
  s.eligible y && !s.awaitsMove y.uid && (List.range 192).all fun c => (s.claimOn y c []).isNone

/-- Starvations that have ended are forgotten, before anything takes the room that ended them. -/
def State.restStarved (s : State) : State :=
  { s with launches := mapIf (fun y => y.starvedAt.isSome && !s.stillStarved y) (fun y => { y with starvedAt := none, unplaceable := 0 }) s.launches }

/-- A claim's team placed by a distributor: its deficit and its rotation pointer move. -/
def State.placeFor (s : State) (d : Nat) (l : Launch) (c : Claim) : State :=
  let s := s.placeNext c
  let s := s.modCtx l.asid fun x => x.putDeficit d l.prio (x.deficitAt d l.prio - c.img.groupCount)
  s.modDist d fun x => { x with rotation := (rotationOf c.core + 1) % 48, refused := [] }

/-- Does a team of an image take what a team of another takes? -/
def Image.sameNeeds (a b : Image) : Bool := a.groupCount == b.groupCount && a.spad == b.spad && a.acct == b.acct && a.wbk == b.wbk && a.pats == b.pats

/-- Whom a claim is used for: a saved team of the launch goes before one that has not been placed, for which the room was reserved (R62, R65). -/
def State.claimFor (s : State) (c : Claim) : Claim := match s.launch? c.launch, s.savedTeam? c.launch with
  | some y, some t =>
    if c.team = 0 && c.img.sameNeeds (s.teamImage t) then
      { c with team := t.uid, img := s.teamImage t
               save := if y.saves.any fun a => a.1 == t.save && decide (c.img.saveSize c.fit.arrays.length ≤ a.2) then t.save else c.save }
    else c
  | _, _ => c

/-- Does what a claim is used for wait for the end of a migration (R62)? -/
def State.claimWaits (s : State) (c : Claim) : Bool :=
  (s.team? (s.claimFor c).team).any fun t => t.isSaved && t.away.any fun f => s.migrating.any fun m => m.1 == f

/-- A claim used, while it stands. The result says whether a team was placed. -/
def State.useClaim (s : State) (d : Nat) (c : Claim) : State × Bool :=
  match s.launch? c.launch with
  | some y => if s.claimStands (s.claimFor c) then (s.placeFor d y (s.claimFor c), true) else (s, false)
  | none => (s, false)

/-- One move of a decision: it goes on with a launch, a context, a priority, or ends. It ends after a context for which a team was placed. -/
def State.decideStep (s : State) (d prio : Nat) (ctxs ls : List Nat) (placed : Bool) : State :=
  let at_ := fun (s : State) (x : Option (Nat × List Nat × List Nat × Bool)) => s.modDist d fun y => { y with todo := x }
  match ls, ctxs with
  | l :: rest, _ => match s.launch? l with
    | none => at_ s (some (prio, ctxs, rest, placed))
    | some y =>
      let c := (s.ctx? y.asid).getD { asid := 0, root := 0 }
      let next := at_ (s.modDist d fun x => { x with refused := [] }) (some (prio, ctxs, rest, placed))
      if !s.eligible y || s.awaitsMove l || decide (c.deficitAt d prio < (s.nextImage y).groupCount) then next
      else if (s.savedTeam? l).isNone && !s.imageHere y then next.askImage y
      else match s.findCore d y with
        | none => next.markStarved l
        | some c =>
          if dieOf c.core = d then at_ (s.placeFor d y c) (some (prio, ctxs, ls, true))
          else at_ (s.modDist d fun x => { x with asked := some (l, c.core, none) }) (some (prio, ctxs, ls, placed))
  | [], x :: rest =>
    let s := if x = 512 then s else s.modDist d fun y => { y with rounds := y.rounds.set prio ((x + 1) % 512) }
    if placed then at_ s none
    else match rest with
    | [] => if prio = 0 then at_ s none else at_ s (some (prio - 1, 512 :: s.roundOrder d (prio - 1), [], false))
    | y :: _ =>
      let es := s.eligibles d y prio
      let s := s.modCtx y fun c => c.putDeficit d prio (if es.isEmpty then 0 else min (c.deficitAt d prio + 64 * c.weight) 65535)
      at_ s (some (prio, rest, es, false))
  | [], [] => at_ s none

/-- A decision run until it ends or waits for an answer. The list of contexts is headed by the one last visited; 512 stands before the first. -/
def runDecision (d : Nat) : Nat → State → State
  | 0, s => s
  | fuel + 1, s => match (s.dist d).todo, (s.dist d).asked with
    | some (prio, ctxs, ls, placed), none => runDecision d fuel (s.decideStep d prio ctxs ls placed)
    | _, _ => s

/-- A bound on the moves of a decision: each context at each priority, each launch, and each team that its deficit can pay for. -/
def State.decisionFuel (s : State) : Nat := 8 * (s.contexts.length + 2) + s.launches.length * 8 + 65536

/-- A starved launch's team placed in the room reserved for it, once the last victim of its pre-emption has saved (R71). -/
def State.afterPreempt (s : State) (d : Nat) : State := match (s.dist d).preempt with
  | none => s
  | some (_, _, vs) =>
    if (s.teams.any fun t => vs.contains t.uid && t.phase == .resident) || (s.dist d).kept.any s.claimWaits then s
    else
      let s' := s.modDist d fun x => { x with preempt := none, kept := none }
      match (s.dist d).kept with
      | some c => (s'.useClaim d c).1
      | none => s'

/-- Step `PLACEMENT_DECISION` (R70): a distributor takes a decision for which an occasion has come. -/
def execPlacementDecision (d : Nat) (s : State) : Host.Outcome State Fault Refusal :=
  let x := s.dist d
  if 2 ≤ d || x.wanted == 0 || x.asked.isSome || x.todo.isSome then .next s
  else
    let s := (s.restStarved.modDist d fun x => { x with wanted := x.wanted - 1 }).afterPreempt d
    .next (runDecision d s.decisionFuel (s.modDist d fun x => { x with todo := some (7, 512 :: s.roundOrder d 7, [], false) }))

/-! ## Reservations between distributors (R66) -/

/-- Step `RESERVATION` (R66): a die's distributor answers the other's reservation of one of its cores, and keeps what it has granted reserved. A team that
waits for the end of a migration is not placed before it (R62). -/
def execReservation (d : Nat) (s : State) : Host.Outcome State Fault Refusal :=
  match (s.dist (1 - d)).asked with
  | some (l, core, none) =>
    if 2 ≤ d || dieOf core != d || s.awaitsMove l then .next s
    else
      let s := s.restStarved
      let c := (s.launch? l).bind fun y => s.claimOn y core []
      .next (s.modDist (1 - d) fun x => { x with asked := some (l, core, some c.isSome), granted := c })
  | _ => .next s

/-- Step `RESERVATION_ANSWER` (R66): the asking distributor places its team as it was granted, or moves on in its rotation, and its decision goes on. -/
def execReservationAnswer (d : Nat) (s : State) : Host.Outcome State Fault Refusal :=
  match (s.dist d).asked with
  | some (_, core, some _) =>
    if 2 ≤ d || (s.dist d).granted.any s.claimWaits then .next s
    else
      let s' := s.restStarved.modDist d fun x => { x with asked := none, granted := none }
      let s' := match (s.dist d).granted with
        | some c => match s'.useClaim d c with
          | (t, true) => t.modDist d fun x => { x with todo := x.todo.map fun w => (w.1, w.2.1, w.2.2.1, true) }
          | (t, false) => t
        | none => s'.modDist d fun x => { x with refused := x.refused ++ [core] }
      .next (runDecision d s'.decisionFuel s')
  | _ => .next s

/-! ## Pre-emption (R71 to R73) -/

/-- A team ordered to stop (R382), unless it already is. A control team is saved in full (R33): its groups are under the forced full save at once (log entry
155). -/
def State.orderStop (s : State) (team : Nat) (kind : StopKind) : State :=
  match s.team? team with
  | none => s
  | some t =>
    if t.stop.isSome then s
    else
      let full := (s.launch? t.launch).any fun l => l.isCtrl
      let s := s.modTeam team fun t => { t with stop := some { kind := kind, cycle := (s.die (dieOf t.core)).cycles, ns := s.timeNs, full := full } }
      if full then { s with groups := mapIf (fun g => g.team == team) Group.freeze s.groups } else s

/-- The teams of a core that a launch of a priority may remove, lowest priority first, then latest placement first (R71). -/
def State.removable (s : State) (core prio : Nat) : List Team :=
  let ts := s.teams.filter fun t => t.core == core && t.phase == .resident && (match s.launch? t.launch with
    | some l => !l.isCtrl && decide (l.prio < prio)
    | none => false)
  let before := fun (a b : Team) =>
    let pa : Nat := ((s.launch? a.launch).map (·.prio)).getD 0
    let pb : Nat := ((s.launch? b.launch).map (·.prio)).getD 0
    decide (pa < pb) || (pa == pb && decide (b.placedAt < a.placedAt))
  ts.foldl (fun (acc : List Team) t => (acc.takeWhile fun x => before x t) ++ t :: (acc.dropWhile fun x => before x t)) []

/-- The shortest prefix whose removal gives room for a launch's next team. -/
def shortestPrefix (s : State) (core : Nat) (y : Launch) (ts : List Team) : Option (List Nat) :=
  ((List.range (ts.length + 1)).find? fun n => (s.claimOn y core ((ts.take n).map (·.uid))).isSome).map fun n => (ts.take n).map (·.uid)

/-- The core that the search of R71 finds, and the teams to remove there. -/
def State.victims (s : State) (y : Launch) : Option (Nat × List Nat) :=
  (rotationCores (s.dist y.die).rotation).findSome? fun c => (shortestPrefix s c y (s.removable c y.prio)).map fun vs => (c, vs)

/-- Is room reserved already for a launch's team? Then it pre-empts nothing more, and is not unplaceable (log entry 82). -/
def State.hasClaim (s : State) (l : Nat) : Bool := s.dists.any fun d => d.claims.any fun c => c.launch == l

/-- Step `PREEMPTION` (R71): a launch starved for longer than its threshold has lower work pre-empted, and what that frees reserved for it. -/
def execPreemption (l : Nat) (s : State) : Host.Outcome State Fault Refusal :=
  match s.launch? l with
  | none => .next s
  | some y => match y.starvedAt with
    | none => .next s
    | some at_ =>
      let thr := s.pthr.getD y.prio 0xFFFFF
      if !s.stillStarved y then .next s.restStarved
      else if y.prio == 0 || thr == 0xFFFFF || decide (s.timeNs ≤ at_ + 1000 * thr) || (s.dist y.die).preempt.isSome || s.hasClaim l then .next s
      else match s.victims y with
        | some (core, v :: vs) =>
          .next (((v :: vs).foldl (fun s v => s.orderStop v .preempted) s).modDist y.die fun d =>
            { d with preempt := some (l, core, v :: vs), kept := s.claimOn y core (v :: vs) })
        | _ => .next s

/-- Step `UNPLACEABLE_LOG` (R73): at each 100 ms of starvation, the launch is logged when no core could yield it room. -/
def execUnplaceableLog (l : Nat) (s : State) : Host.Outcome State Fault Refusal :=
  match s.launch? l with
  | none => .next s
  | some y => match y.starvedAt with
    | none => .next s
    | some at_ =>
      if !s.stillStarved y then .next s.restStarved
      else if s.timeNs < at_ + (y.unplaceable + 1) * 100000000 then .next s
      else
        let t := s.modLaunch l fun y => { y with unplaceable := y.unplaceable + 1 }
        if (s.victims y).isNone && !s.hasClaim l then .next (t.logEvent 0x0003 y.asid (natLe 8 y.ltag.toNat ++ natLe 8 0)) else .next t

end Sys2Proof.Machine
end

