-- ==== Sys2Proof/Machine/SaveEvents.lean ====
section
/-!
DEFINITION. How a team leaves its core and is kept (R77, R213, R232, R260, R382 to R394): when its threads count as stopped, the forced full save, the save
itself, the watchdog, and completions for a saved group.
-/
namespace Sys2Proof.Machine
open Sys2Proof

/-- The place of the pre-emption entry at an offset. -/
def peAt (img : Image) (pc : Word) : Option Nat := img.pe.findIdx? fun e => e.pcoff == pc.toNat

/-- A thread that counts as stopped as it stands gets its entry (R383). -/
def standAt (img : Image) (t : Thread) : Thread :=
  match t.stopped, t.st with
  | none, .rcvWait => { t with stopped := peAt img t.pc }
  | none, .parked .wait => if t.trap.isNone then { t with stopped := peAt img t.pc } else t
  | _, _ => t

/-- Does a thread count as stopped (R382 to R384)? -/
def Thread.isStopped (t : Thread) : Bool := t.st == .exited || (t.stopped.isSome && t.st != .parked .settle)

/-- Is a group ready (R384)? -/
def groupReady (img : Image) (g : Group) : Bool := g.finished || g.threads.all fun t => (standAt img t).isStopped

/-- Step `FORCED_FULL_SAVE` (R384): the groups of a team that are not ready 65,536 cycles after the order are put into the forced full save. -/
def execForcedFullSave (team : Nat) (s : State) : Host.Outcome State Fault Refusal :=
  match s.team? team with
  | none => .next s
  | some t => match t.stop with
    | none => .next s
    | some o =>
      if t.phase != .resident || decide ((s.die (dieOf t.core)).cycles < o.cycle + 65536) then .next s
      else .next { s with groups := mapIf (fun g => g.team == team && !g.full && !groupReady (s.teamImage t) g) Group.freeze s.groups }

/-! ## Pending results of stopped threads (R384) -/

/-- The first stopped thread that holds pending results: group and lane. -/
def holdsPending (gs : List Group) : Option (Nat × Nat) :=
  gs.findSome? fun g => (laneList.find? fun l => !(g.thread l).pend.isEmpty).map fun l => (g.uid, l)

/-- The segment of a stopped thread closes; the arithmetic trap that it raises is taken with the word at which the thread stopped as CPC, and the thread is
saved as it enters its handler, under the entry at which it had stopped. -/
def State.closeStopped (s : State) (u lane : Nat) : State :=
  match s.group? u with
  | none => s
  | some g =>
    if (g.thread lane).pend.all fun p => p.landed then
      match closeSegment g (g.thread lane) with
      | (g, t, none) => s.setGroup (g.setThread lane t)
      | (g, t, some a) =>
        let at_ := (standAt (s.groupCode g) t).stopped
        s.applyRes (s.issueOf g [lane]) g [(lane, .trapped { t with st := .runnable, wake := .none, stopped := none, trap := none } { arithReq a t.chainPc with hold := at_ })]
    else s

/-! ## The save (R385) -/

/-- Does an operation of a team hold its save back: one that has started and reads or writes what is to be saved (R77, R213, R232, R260)? -/
def State.holdsSave (s : State) (team : Nat) (o : Op) : Bool :=
  o.team == team && (match o.kind with
    | .ldt _ _ => true
    | .stt _ _ => true
    | .copy g => (match s.gather? g with
      | some x => x.started && (let h := shapeOf x.recd; h.skind == 1 || h.dkind == 1 || h.dkind == 2)
      | none => false)
    | .kvld => o.started
    | .mma _ _ _ _ => o.started
    | .acacq acc => o.ready && (s.atHead o acc).isSome
    | _ => false)

/-- Tokens that a save does not keep read IDLE on resume; their operations are detached (R22, R216). -/
def forgetTokens (u mask : Nat) : List Nat → State → State
  | [], s => s
  | i :: is, s => forgetTokens u mask is (if bitOf mask i then s else match s.group? u with
    | some g => (s.detach g i).modGroup u fun g => g.setToken i {}
    | none => s)

/-- The groups of a team as they stand saved. -/
def keepGroups (img : Image) : List Group → State → State
  | [], s => s
  | g :: gs, s =>
    let s := forgetTokens g.uid (groupMask img g).2.2 (List.range 16) s
    keepGroups img gs (s.modGroup g.uid (savedGroup img))

/-- The KIND of a save (R387). -/
def StopKind.code : StopKind → Nat
  | .preempted => 1 | .swapped => 2 | .descheduled => 3

/-- The window of a core leaves the page table of a context with its last team there (R75). -/
def State.leaveCore (s : State) (asid core : Nat) : State :=
  if (s.teamsOn asid core).isEmpty then s.shoot asid (windowVa + core * 0x400000) 0x400000 else s

/-- A stopped thread as it is saved: at the first word of its hint chain, its hints discarded (R90). -/
def backToChain (t : Thread) : Thread := { t with pc := t.chainPc, hints := {} }

/-- Every group of a team with the entries of threads that stand at one. -/
def settleStops (img : Image) (g : Group) : Group :=
  let mark := fun (t : Thread) => if !g.full then standAt img t else if t.st == .exited then t else { t with stopped := some 0xFFFFFFFF }
  { g with threads := g.threads.map fun t => backToChain (mark t) }

/-- A team given an area of its context's pool, with its groups' trap frames in it (R369, R386). -/
def State.newArea (s : State) (t : Team) (l : Launch) (a n : Nat) : State × Team :=
  let s := (s.modTeam t.uid fun t => { t with save := a }).modLaunch l.uid fun y => { y with saves := y.saves ++ [(a, n)] }
  ((s.groups.filter fun g => g.team == t.uid).foldl (fun s g => s.framesOut g 0 (getBytes g.frames 0 2048)) s, { t with save := a })

/-- The save area of a team: its own, or, for a control team that has none yet, one from its context's pool (R386). -/
def State.withArea (s : State) (t : Team) (l : Launch) : Option (State × Team) :=
  if t.save ≠ 0 then some (s, t)
  else
    let n := (s.teamImage t).saveSize t.arrays.length
    (s.saveRoom t.asid n).map fun a => s.newArea t l a n

/-- Requests answered DONE, in order (R409). -/
def answerAll (asid : Nat) : List Bytes → State → State
  | [], s => s
  | q :: qs, s => answerAll asid qs (s.post (fieldLe q 0 2) 0 (fieldLe q 4 4) asid [])

/-- The DESCHEDULE requests of a context are answered once none of its teams is resident (R392, R410). -/
def State.stopAnswered (s : State) (asid : Nat) : State := match s.ctx? asid with
  | none => s
  | some c =>
    if c.stopAns.isEmpty || s.teams.any fun t => t.asid == asid && t.phase == .resident then s
    else answerAll asid c.stopAns (s.modCtx asid fun c => { c with stopAns := [] })

/-- The team saved: its area written, its resources freed, and the team returned to its launch's distributor (R385). -/
def State.saveTeam (s : State) (t : Team) (l : Launch) (kind : StopKind) : State :=
  let img := s.teamImage t
  let s := { s with groups := mapIf (fun g => g.team == t.uid && !g.finished) (settleStops img) s.groups }
  let gs := (s.groupsOf t.uid).filter fun g => !g.finished
  let kept := !omitsTiles img gs t
  let s := (s.writeBackAll (clusterOf t.core)).writeArea t l gs kind.code
  let s := keepGroups img gs s
  let s := { s with absent := moveAbsent (t.core, t.spBase) (2 ^ 20 + t.uid, 0) t.spLines s.absent }
  let s := s.modTeam t.uid fun t => { t with phase := .saved kind, stop := none, tilesKept := kept, tiles := if kept then t.tiles else startTiles img t.arrays }
  (s.leaveCore t.asid t.core).wantPlacement.stopAnswered t.asid

/-- Step `TEAM_SAVE` (R385): a team ordered to stop whose groups are all ready is saved, once its queues are empty, the pending results of its threads have
settled, and the operations that must finish first have. -/
def execTeamSave (team : Nat) (s : State) : Host.Outcome State Fault Refusal :=
  match s.team? team with
  | none => .next s
  | some t => match t.stop, s.launch? t.launch with
    | some o, some l =>
      let gs := s.groupsOf team
      if t.phase != .resident || l.ended.isSome || !gs.all (groupReady (s.teamImage t)) then .next s
      else match holdsPending gs with
        | some (u, lane) => .next (match s.group? u with
          | some g => countParks g [] laneList (s.closeStopped u lane)
          | none => s)
        | none =>
          if gs.any (fun g => !g.sq.isEmpty || !g.spend.isEmpty) || s.ops.any (s.holdsSave team) then .next s
          else match s.withArea t l with
            | none => .next s
            | some (s, t) => .next (s.saveTeam t l o.kind)
    | _, _ => .next s

/-- Step `SAVE_WATCHDOG` (R394): a save that is not complete WDSAVE microseconds after its order ends the task; for the control team, the context. -/
def execSaveWatchdog (team : Nat) (s : State) : Host.Outcome State Fault Refusal :=
  match s.team? team with
  | none => .next s
  | some t => match t.stop, s.launch? t.launch with
    | some o, some l =>
      if t.phase != .resident || l.ended.isSome || s.wdsave == 0xFFFFF || decide (s.timeNs < o.ns + 1000 * s.wdsave) then .next s
      else
        let s := s.stopLaunch l.uid 0x20
        .next (if l.isCtrl then s.terminateCtx l.asid 0x40 else s)
    | _, _ => .next s

/-- Step `SAVED_COMPLETION` (R390): an access of a saved group completes, and is applied once, to the group's record. -/
def execSavedCompletion (id lane : Nat) (s : State) : Host.Outcome State Fault Refusal :=
  match s.op? id with
  | none => .next s
  | some o => match s.group? o.grp with
    | some g => if g.resident || g.finished then .next s else .next (s.replyPart id lane)
    | none => .next s

end Sys2Proof.Machine
end

