-- ==== Sys2Proof/Machine/RetireEvents.lean ====
section
/-!
DEFINITION. How work retires (R55, R397, R401 to R405): a team frees its core, a launch reports its completion and ends its lease, and a torn-down context is
released.
-/
namespace Sys2Proof.Machine
open Sys2Proof

/-! ## Teams (R401) -/

/-- Does an operation read or write a team's scratchpad, weight-buffer share or tiles (R401)? -/
def State.usesTeam (s : State) (team : Nat) (o : Op) : Bool :=
  let spad := let h := shapeOf o.recd; h.skind == 1 || h.dkind == 1
  o.team == team && (match o.kind with
    | .ldt _ _ => true
    | .stt _ _ => true
    | .copy g => (match s.gather? g with
      | some x => let h := shapeOf x.recd; h.skind == 1 || h.dkind == 1 || h.dkind == 2
      | none => false)
    | .kvld => !(kvldArgs o).win
    | .mma _ _ _ _ => true
    | .acacq _ => true
    | .coll => spad
    | .mcst => spad
    | .rte => spad
    | .rtc => spad
    | _ => false)

/-- The array words of an ended launch that have not started end POISON 0x90. -/
def State.dropHeld (s : State) (team : Nat) : State :=
  let ids := (s.ops.filter fun o => o.team == team && !o.started && (match o.kind with
    | .mma _ _ _ _ => true
    | .acacq _ => true
    | _ => false)).map (·.id)
  ids.foldl (fun s id => s.finishOp id .poison 0x90#8) s

/-- A team's resources freed (R401). -/
def State.freeTeam (s : State) (t : Team) : State :=
  let s := { s with
    teams := mapIf (fun x => x.uid == t.uid) (fun x => { x with phase := .retired, stop := none }) s.teams
    groups := mapIf (fun g => g.team == t.uid) (fun g => { g with resident := false, finished := true }) s.groups
    absent := s.absent.filter fun (a : Nat × Nat × Nat) => !(a.1 == t.core && decide (t.spBase ≤ a.2.1 ∧ a.2.1 < t.spBase + t.spLines)) }
  (s.leaveCore t.asid t.core).wantPlacement.stopAnswered t.asid

/-- Step `TEAM_RETIRE` (R377, R401): a team whose groups are finished, or whose task has ended and whose queues are empty, retires once nothing still uses
its resources. -/
def execTeamRetire (team : Nat) (s : State) : Host.Outcome State Fault Refusal :=
  match s.team? team with
  | none => .next s
  | some t => match s.launch? t.launch with
    | none => .next s
    | some l =>
      let gs := s.groupsOf team
      let gone := if l.ended.isSome then gs.all fun g => g.sq.isEmpty else gs.all fun g => g.finished
      if t.phase != .resident || !gone then .next s
      else
        let s := if l.ended.isSome then s.dropHeld team else s
        if s.ops.any (s.usesTeam team) then .next s else .next (s.freeTeam t)

/-! ## Launches (R402, R403) -/

/-- Have all of a launch's teams retired, with none unplaced? -/
def State.teamsDone (s : State) (l : Launch) : Bool :=
  (l.ended.isSome || decide (l.total ≤ l.next)) && s.teams.all fun t => t.launch != l.uid || t.phase == .retired

/-- Have a launch's commands and remote accesses finished? A `LAUNCH` counts once its record is entered, and a `DRAIN` is no command. -/
def State.workDone (s : State) (l : Nat) : Bool :=
  (s.ops.all fun o => o.launch != l || (match o.kind with
    | .launch c => (match s.launch? c with
      | some y => y.phase != .queued && y.phase != .reading
      | none => true)
    | .drain _ => true
    | _ => false)) &&
  s.rtx.all fun r => !(s.groups.any fun g => g.launch == l && g.uid == r.grp)

/-- A launch retires: its completion release, and its arrival on DONEB (R402 steps 1 and 2). -/
def State.completeLaunch (s : State) (l : Launch) : State :=
  let s := s.releaseAll
  let s := if l.doneb = 0 ∨ l.doneb % 32 ≠ 0 then s
    else (s.sendUpdate l.doneb { arr := 1, cause := if l.ended.isSome then some 0x90#8 else none, asid := l.asid } 0).1
  let s := if l.phase == .ready then s else s.tellToken l 0x90
  s.modLaunch l.uid fun y => { y with phase := .retired }

/-- Is a launch's arrival still on its way? -/
def State.arrivalOut (s : State) (asid : Nat) : Bool :=
  let out := fun (u : BUpdate) => u.asid == asid && u.grp == 0
  s.updates.any out || s.rtx.any fun r => match r.owner with
    | .update u => out u
    | _ => false

/-- A retired launch's lease ends and its save areas and entry are free (R402 steps 3 to 5). -/
def State.endLease (s : State) (l : Launch) : State :=
  let s := s.releasePins l
  let us := (s.groups.filter fun g => g.launch == l.uid).map (·.uid)
  let s := State.dropLaunch { s with groups := s.groups.filter fun g => g.launch != l.uid, teams := s.teams.filter fun t => t.launch != l.uid
                                     barReads := s.barReads.filter fun r => !(l.uid :: us).contains r.1 } l.uid
  retireFrames s.toRetire s.wantPlacement

/-- Is a context being torn down? -/
def State.tearing (s : State) (asid : Nat) : Bool := (s.ctx? asid).any fun c => c.tearing

/-- Step `LAUNCH_RETIRE` (R402, R403). The step occurs twice: first the launch releases and arrives on DONEB; then, the arrival made, its lease ends. While
its context is being torn down the lease stands until the context is quiescent, and `TEARDOWN_RELEASE` ends it (R405 step 5). -/
def execLaunchRetire (l : Nat) (s : State) : Host.Outcome State Fault Refusal :=
  match s.launch? l with
  | none => .next s
  | some y =>
    if y.phase == .retired then (if s.arrivalOut y.asid || s.tearing y.asid then .next s else .next (s.endLease y))
    else if y.phase == .failed || y.phase == .queued || (y.phase != .ready && y.ended.isNone) then .next s
    else if s.teamsDone y && s.workDone l then .next (s.completeLaunch y)
    else .next s

/-! ## Teardown (R405) -/

/-- The seal-list entries of a context dropped; conversions already begun run to their end (R405). -/
def State.dropSeals (s : State) (asid : Nat) : State :=
  { s with seals := s.seals.filter fun x =>
      let base := x.frame + x.half * 0x8000
      bitsOf (getLe s.mem (base + 0x20) 8) 0 9 != asid || pwState (s.pageWord base) == 2 }

/-- The grants to other devices' launches that end with a context: those of frames of this device that it maps (R405 step 5, R406; log entry 195). -/
def State.grantsLeft (s : State) (c : Context) : List Grant :=
  s.grants.filter fun g => !((c.maps s fun _ => true).any fun x => decide (x.1 < g.frame + g.span ∧ g.frame < x.1 + x.2))

/-- The leases of a context's retired launches end (R405 step 5). -/
def endLeases : List Launch → State → State
  | [], s => s
  | l :: ls, s => endLeases ls (s.endLease l)

/-- Does the context hold grants or unanswered requests on other devices? -/
def State.holdsAway (s : State) (asid : Nat) : Bool :=
  s.unanswered asid || s.launches.any fun l => l.asid == asid && l.pins.any fun p => p.gid != 0

/-- Step `TEARDOWN_RELEASE` (R32, R405 steps 4 to 7): once the launches of a context that is being torn down have retired and the context is quiescent, at
`pod` scope while they hold grants elsewhere, every lease, grant and pin is released, its ASID is invalidated and the request is answered. What other members
have sent is kept for the commands of the contexts that remain (R322). -/
def execTeardownRelease (asid : Nat) (s : State) : Host.Outcome State Fault Refusal :=
  match s.ctx? asid with
  | none => .next s
  | some c =>
    let ns := if s.holdsAway asid then max 2000 (1000 * s.tpod) else 2000
    if !c.tearing || s.launches.any (fun l => l.asid == asid && l.phase != .retired) || s.arrivalOut asid || !s.quietFor asid ns then .next s
    else
      let s := endLeases (s.launches.filter fun l => l.asid == asid) s
      let s := s.dropSeals asid
      let s := { s with
        grants := s.grantsLeft c
        contexts := s.contexts.filter fun x => x.asid != asid
        tlb := s.tlb.filter fun t => t.asid != asid
        l1 := s.l1.filter fun l => l.asid != asid
        walkReqs := s.walkReqs.filter fun w => w.2.1 != asid
        lightReqs := s.lightReqs.filter fun w => w.1 != asid
        ordinals := s.ordinals.filter fun o => o.1 != asid
        ops := s.ops.filter fun o => o.asid != asid
        served := s.served.filter fun o => o.asid != asid
        inbox := s.inbox.filter fun x => (s.op? x.1).any fun o => o.asid != asid
        held := if s.contexts.any (fun x => x.asid != asid) then s.held else []
        descs := if s.contexts.any (fun x => x.asid != asid) then s.descs else [] }
      let s := retireFrames s.toRetire s
      let s := match c.creating with
        | some q => s.post (fieldLe q 0 2) 1 (fieldLe q 4 4) (fieldLe q 8 2) []
        | none => s
      .next (answerAll asid (c.stopAns ++ c.answer) s)

end Sys2Proof.Machine
end

