-- ==== Sys2Proof/Machine/AnswerEvents.lean ====
section
/-!
DEFINITION. Chunks and counts that arrive (R309, R313, R327), the answers to this device's own requests (R287, R299 to R305), requests that go unanswered
(R302), and the management packets of collectives and dispatch (R288, R297, R318, R332).
-/
namespace Sys2Proof.Machine
open Sys2Proof

/-! ## Requests that fail (R303) -/

/-- A part of an operation fails; a denied one ends its task. -/
def State.failPart (s : State) (o : Op) (p : Part) (c : BitVec 8) : State :=
  let s := if c == 0x60#8 then s.opEnds o 4 p.lane p.size p.va else s
  match o.kind with
  | .ldt _ _ => s.endTile o p c
  | .stt _ _ => s.endTile o p c
  | _ => s.finishPart o.id p.lane c

/-- An engine command fails through one of its requests. One that was skipped, and asked only for its members, ends with its precondition's poison (R318). A
denied one ends its task, and its own token is poisoned with 0x90 (R303, R377); that of an `RTE` or
`RTC`, and its cancel, carry 0x60 (R332). -/
def State.failCommand (s : State) (o : Op) (c : BitVec 8) : State :=
  let denied := c == 0x60#8
  match (if o.started then none else o.skipCause) with
  | some p => s.failPod o p
  | none => match o.kind with
  | .coll => if denied then s.engineEnds o 4 o.va else s.failPod o c
  | .mcst => if denied then s.engineEnds o 4 o.va else s.failPod o c
  | .rte => if denied then (s.failPod o c).opEnds o 4 0xFF 0 o.va else s.failPod o c
  | .rtc => if denied then (s.failPod o c).opEnds o 4 0xFF 0 o.va else s.failPod o c
  | _ => if denied then s.engineEnds o 4 o.va else s.failOp o.id c

/-- A request fails with a cause (R303). -/
def State.reqFails (s : State) (r : Req) (c : BitVec 8) : State :=
  let s := s.answered r.pkt.txid
  match r.owner with
  | .part op lane => match s.op? op with
    | some o => match o.parts.find? fun p => p.lane == lane with
      | some p => s.failPart o p c
      | none => s
    | none => s
  | .tile op lane _ => match s.op? op with
    | some o => match o.parts.find? fun p => p.lane == lane && p.fin.isNone with
      | some p => s.failPart o p c
      | none => s
    | none => s
  | .chunk op _ => match s.op? op with
    | some o => s.failCommand o c
    | none => s
  | .update u => match s.op? u.op with
    | some o => (if c == 0x60#8 then s.opEnds o 4 0 32 o.va else s).finishOp u.op .poison c
    | none => if c == 0x60#8 then s.exportEnds u 4 else s
  | .barRead grp key => s.gotRead grp key none c
  | .mcast op => match s.op? op with
    | some o => s.failPod o c
    | none => s

/-- Step `RETRANSMIT_TIMEOUT` (R292, R302): a request that has gone RTO without its answer is sent again, over a non-minimal path where there is one, and
fails with 0x67 after its fourth send. No answer to a multicast is due before its last chunk has been sent. -/
def execRetransmitTimeout (txid : Nat) (s : State) : Host.Outcome State Fault Refusal :=
  match s.rtx.find? fun r => r.pkt.txid.toNat == txid with
  | none => .next s
  | some r =>
    let vc := vcOf r.pkt.ty.toNat
    if s.mcOpen r then .next s
    else if r.sends = 0 then .next (if s.fabricOpen && (s.inject r.pkt.dst.toNat vc none).isNone then s.reqFails r 0x61#8 else s)
    else if s.timeNs < r.sentAt + s.rto then .next s
    else if 4 ≤ r.sends then .next (s.reqFails r 0x67#8)
    else
      let s := s.count 0xFFFF r.asid 0 0x103 1
      if toGroup r.pkt then
        .next (State.injectCopies { s with rtx := mapIf (fun x => x.pkt.txid == r.pkt.txid) (fun x => { x with sends := x.sends + 1, sentAt := s.timeNs }) s.rtx } r.pkt)
      else match s.inject r.pkt.dst.toNat vc (some (if bitOf r.pkt.rf.toNat 2 then r.pkt.via.toNat else 1024)) with
        | some (nm, via) => .next (s.sendReq r nm via)
        | none => .next (s.reqFails r 0x61#8)

/-! ## Answers (R287, R299) -/

/-- A step of an answer's type: its request is found, and the answer's epoch learnt (R305). An answer to no request is dropped. -/
def onAnswer (s : State) (ty : Nat) (f : Req → Packet → State → State) : Host.Outcome State Fault Refusal :=
  onPacket s (forMe s ty) fun p s =>
    let s := if toGroup p then s else s.learnEpoch p.src.toNat p.sqf
    match s.rtx.find? fun r => r.pkt.txid == p.txid && (toGroup r.pkt || r.pkt.dst == p.src) with
    | some r => f r p s
    | none => s

/-- The group, operation and unfinished part of a lane. -/
def State.lanePart (s : State) (op lane : Nat) : Option (Group × Op × Part) := match s.op? op with
  | some o => match s.group? o.grp, o.parts.find? fun p => p.lane == lane && p.fin.isNone with
    | some g, some p => some (g, o, p)
    | _, _ => none
  | none => none

/-- A lane's remote access gives its data, and acquires where it is to (R199, R299). -/
def State.givePart (s : State) (op lane : Nat) (bs : Bytes) : State := match s.lanePart op lane with
  | some (g, o, p) =>
    let s := if o.acquires then s.acquire g.core o.semScope else s
    (s.modPart op p.lane fun p => { p with data := bs }).finishPart op lane 0#8
  | none => s

/-- Data for a tile operation (R212, R213): its tile word, or a piece of its tile. -/
def State.giveTile (s : State) (op lane off : Nat) (bs : Bytes) : State := match s.lanePart op lane with
  | some (g, o, p) => match o.kind with
    | .ldt _ _ =>
      if off ≠ 0 then
        let (base, _) := spadRun s g
        { s with mem := putBytes s.mem (spadAddr g.core (base * 512 + fieldLe p.data 0 4) + off - 64) bs }
      else if p.stage = 0 then s.ldtFirst g o p (leNat bs)
      else s.ldtEnd g o p (leNat bs)
    | .stt _ _ => if p.stage = 0 then s.sttTake g o p (leNat bs) else s
    | _ => s
  | none => s

/-- Step `KARIC_RDRSP` (R299): load data arrives. -/
def execKaricRdrsp (s : State) : Host.Outcome State Fault Refusal :=
  onAnswer s 4 fun r p s =>
    let s := s.answered p.txid
    match r.owner with
    | .part op lane => s.givePart op lane p.data
    | .tile op lane off => s.giveTile op lane off p.data
    | .chunk op key => s.putBuf op key 0 p.data
    | .barRead grp key => s.gotRead grp key (some p.data) 0#8
    | _ => s

/-- An `STT` has made its tile even again (R212). -/
def State.sttDone (s : State) (op lane : Nat) : State := match s.lanePart op lane with
  | some (g, o, p) =>
    if p.stage = 3 then
      let s := s.endTile o p 0#8
      if o.acquires then s.acquire g.core o.semScope else s
    else s
  | none => s

/-- Step `KARIC_WRACK` (R299, R304): a store, a barrier update or an initialisation has been performed at its home. -/
def execKaricWrack (s : State) : Host.Outcome State Fault Refusal :=
  onAnswer s 5 fun r p s =>
    let s := s.answered p.txid
    match r.owner with
    | .part op lane => s.finishPart op lane 0#8
    | .tile op lane off => if off = 0 then s.sttDone op lane else s
    | .update u => if u.op = 0 then s else s.finishOp u.op .done 0#8
    | _ => s

/-- Step `KARIC_ATRSP` (R299): an atomic's old value arrives. -/
def execKaricAtrsp (s : State) : Host.Outcome State Fault Refusal :=
  onAnswer s 6 fun r p s =>
    let s := s.answered p.txid
    match r.owner with
    | .part op lane => s.givePart op lane p.data
    | .tile op lane _ => s.modPart op lane fun q => { q with stage := if leNat p.data = q.tile then 1 else 0 }
    | .chunk op key => s.putBuf op key 1 p.data
    | _ => s

/-- A chunk of a copy that landed as zeros at its destination (R287, R313). -/
def markZeroed (i : Nat) (o : Op) : Op :=
  { o with got := mapIf (fun (x : Nat × Nat × List Nat) => x.1 == i && x.2.1 == 0) (fun x => (x.1, 0x10, x.2.2)) o.got }

/-- Step `KARIC_CHACK` (R287, R321): a chunk, count packet or multicast member is done. -/
def execKaricChack (s : State) : Host.Outcome State Fault Refusal :=
  onAnswer s 7 fun r p s =>
    match r.owner with
    | .mcast op => match s.op? op with
      | some o => s.mcReply o r p
      | none => s.answered p.txid
    | .chunk op key =>
      let s := s.answered p.txid
      match s.op? op with
      | some o => match o.kind with
        | .copy _ => if p.aux.toNat % 256 = 1 then s.modOp op (markZeroed (key / 2 ^ 30)) else s
        | _ => s
      | none => s
    | _ => s.answered p.txid

/-! ## NACKs and epochs (R303 to R305) -/

/-- Bytes of a FLAG with another DEP. -/
def withDep (data : Bytes) (epoch : Word) : Bytes := overlay data 4 (natLe 4 epoch.toNat)

/-- FLAGs of a destination numbered anew from 1 and sent again (R305), but one that has been sent four times (R302). -/
def renumber (dev : Nat) (epoch : Word) : Nat → List Req → State → Nat × State
  | n, [], s => (n, s)
  | n, r :: rest, s =>
    if r.pkt.ty == 11#8 && r.pkt.dst.toNat == dev then
      let p := { r.pkt with data := withDep r.pkt.data epoch, sqf := BitVec.ofNat 32 n }
      let s := { s with rtx := mapIf (fun x => x.pkt.txid == p.txid) (fun x => { x with pkt := p }) s.rtx }
      let s := if r.sends = 0 ∨ 4 ≤ r.sends then s else match s.inject dev (vcOf 11) none with
        | some (nm, via) => (s.count 0xFFFF r.asid 0 0x103 1).sendReq { r with pkt := p } nm via
        | none => s
      renumber dev epoch (n + 1) rest s
    else renumber dev epoch n rest s

/-- A NACK that asks for a retry (R304, R305): a FLAG that knew no epoch takes the answer's and is numbered anew; any other is re-sent after RTO. -/
def State.retry (s : State) (r : Req) (p : Packet) : State :=
  let dev := p.src.toNat
  if r.pkt.ty == 11#8 && fieldLe r.pkt.data 4 4 == 0 then
    let (n, s) := renumber dev p.sqf 1 s.rtx s
    { s with flagsOut := { dev := dev, epoch := p.sqf, next := BitVec.ofNat 32 n } :: s.flagsOut.filter fun x => x.dev != dev }
  else { s with rtx := mapIf (fun x => x.pkt.txid == p.txid) (fun x => { x with sentAt := s.timeNs }) s.rtx }

/-- Requests that fail, one after another. -/
def failAll (c : BitVec 8) : List Req → State → State
  | [], s => s
  | r :: rest, s => failAll c rest (s.reqFails r c)

/-- A destination has been reset (R305): every FLAG sent to its former epoch fails, and its new epoch is taken. -/
def State.destReset (s : State) (r : Req) (p : Packet) : State :=
  let dev := p.src.toNat
  let old := fieldLe r.pkt.data 4 4
  let s := failAll 0x68#8 (s.rtx.filter fun x => x.pkt.ty == 11#8 && x.pkt.dst == p.src && fieldLe x.pkt.data 4 4 == old) s
  { s with flagsOut := { dev := dev, epoch := p.sqf } :: s.flagsOut.filter fun x => x.dev != dev }

/-- A NACK to a gather request (R335): the requesting `RTC` fails with its cause. -/
def State.gatherNack (s : State) (p : Packet) : State :=
  match s.ops.find? fun o => o.kind == .rtc && o.got.any fun x => x.2.1 == 1 && x.2.2 == [p.src.toNat, p.txid.toNat] with
  | some o => s.failCommand o (BitVec.ofNat 8 p.aux.toNat)
  | none => s

/-- Step `KARIC_NACK` (R303, R304, R305, R335): a failure, or a request to retry. -/
def execKaricNack (s : State) : Host.Outcome State Fault Refusal :=
  onPacket s (forMe s 8) fun p s =>
    let s := s.learnEpoch p.src.toNat p.sqf
    match s.rtx.find? fun r => r.pkt.txid == p.txid && r.pkt.dst == p.src with
    | none => s.gatherNack p
    | some r => match p.aux.toNat % 256 with
      | 0x69 => s.retry r p
      | 0x68 => if r.pkt.ty == 11#8 then s.destReset r p else s.reqFails r 0x68#8
      | c => s.reqFails r (BitVec.ofNat 8 c)

/-! ## Chunks and counts that arrive -/

/-- A chunk at a device-local address: performed at its home, as its bytes or as zeros, and answered (R297, R299, R309, R313). -/
def State.takeChunk (s : State) (p : Packet) : State :=
  s.admitted p (paOf p) p.data.length rightsWr true fun s =>
    let s := ((s.rowNear (paOf p) p.src.toNat).homeWrite 0x200 (paOf p) (landedBytes p)).rowLanded (paOf p) p.src.toNat p.txid.toNat
      (if chunkBad p then p.sqf.toNat else 0)
    s.answerKept p 7 (if chunkBad p then 1 else 0) []

/-- The request for a source piece that a chunk answers (R307; log entry 63). -/
def State.sourceReq (s : State) (p : Packet) : Option Req :=
  s.rtx.find? fun r => sourceAsk r.pkt && r.pkt.txid == p.txid && r.pkt.dst == p.src && r.pkt.addr == p.addr

/-- A source piece of a command arrives as a chunk: kept as its bytes, or as zeros with the tag of a bad one. A copy, whose chunk it spoils, records it in the
event log here; any other command sends it on as it is (R309, R313). -/
def State.takeSource (s : State) (r : Req) (p : Packet) : State :=
  let s := s.answered p.txid
  match r.owner with
  | .chunk id key =>
    let s := s.putBuf id key (if chunkBad p then badTag p.sqf.toNat p.src.toNat else 0) (landedBytes p)
    match s.op? id with
    | some o => if chunkBad p && (match o.kind with
        | .copy _ => true
        | _ => false) then
        s.logError o.asid (errRecord 0 (shapeOf (s.opRecord o)).xtag p.src.toNat (key / 2 ^ 30) p.sqf.toNat)
      else s
    | none => s
  | _ => s

/-- A chunk for this device, verified as it leaves towards its die (R309): for a collective, a combine, a source or an address. One that answers a source
request is no request itself, and its transaction is this device's own: the completion cache does not know it (R302). -/
def State.arriveChunk (s : State) (p : Packet) : State :=
  match s.sourceReq p with
  | some r =>
    let (s, p) := s.egress p
    s.takeSource r p
  | none => if s.lateSource p then s else match s.kept? p with
    | some a => s.answerAgain a
    | none =>
      let (s, p) := s.egress p
      match s.collFor p with
      | some o => s.takeColl o p
      | none => match s.gatheredFor p with
        | some (o, r) => s.takeGather o r p
        | none => s.takeChunk p

/-- Step `KARIC_CHUNK` (R296, R309, R313, R316, R321, R330, R335): a chunk is verified and lands, or is combined. -/
def execKaricChunk (s : State) : Host.Outcome State Fault Refusal :=
  onPacket s (forMe s 9) fun p s => if toGroup p then s.takeMc p else s.arriveChunk p

/-- Step `KARIC_DISP` (R326, R327): counts of a member's `RTE`, taken once. -/
def execKaricDisp (s : State) : Host.Outcome State Fault Refusal :=
  onPacket s (forMe s 10) fun p s =>
    match s.kept? p with
    | some a => s.answerAgain a
    | none =>
      let i := bitsOf p.addr.toNat 32 20
      match (preferOf p.sasid.toNat (s.ops.filter fun o => o.kind == .rte && o.started && decide (1 ≤ o.stage) && o.cid == p.addr.toNat % 2 ^ 32 &&
          o.ordn == p.sqf.toNat && o.peers.contains p.src.toNat)).head? with
      | none => s
      | some o =>
        let m := min 128 (dispNexp o.recd - 128 * i)
        if p.data.length ≠ 4 * m ∨ m = 0 then s
        else
          let counts := (List.range m).map fun q => fieldLe p.data (4 * q) 4
          let s := if o.got.any fun x => x.1 == p.src.toNat && x.2.1 == i then s
            else s.modOp o.id fun o => { o with got := o.got ++ [(p.src.toNat, i, counts)] }
          s.answerKept p 7 0 []

/-! ## Descriptors, cancels and grants (R288, R297, R318, R331, R332) -/

/-- Has the context to which a packet belongs issued a command with an identifier and ordinal: the context here with the sender's ASID, where there is one,
else every context here, since the packet may belong to any (R322; log entry 160)? -/
def State.wasIssued (s : State) (asid kind cid n : Nat) : Bool :=
  let issued := fun (a : Nat) => s.ordinals.any fun o => o.1 == a && o.2.1 == kind && o.2.2.1 == cid && decide (n ≤ o.2.2.2)
  if (s.ctx? asid).isSome then issued asid else s.contexts.all fun c => issued c.asid

/-- The command of a kind, identifier and ordinal here (R318, R322). -/
def State.podOp (s : State) (asid kind cid n : Nat) : Option Op :=
  (preferOf asid (s.ops.filter fun o => o.kind.cancelKind == some kind && o.cid == cid && o.ordn == n)).head?

/-- A member's descriptor is kept until the command here compares it; one for a command that has ended goes. -/
def State.keepDesc (s : State) (p : Packet) (kind : Nat) : State :=
  let cid := fieldLe p.data 0 4
  let n := fieldLe p.data 4 4
  if s.descs.contains p || (s.wasIssued p.sasid.toNat kind cid n && (s.podOp p.sasid.toNat kind cid n).isNone) then s else { s with descs := s.descs ++ [p] }

/-- Step `MGMT_CDESC` (R288, R318): a collective's descriptor arrives; the command here compares it as it goes on. -/
def execMgmtCdesc (s : State) : Host.Outcome State Fault Refusal := onPacket s (mgmtFor s 5) fun p s => s.keepDesc p 0

/-- Step `MGMT_DDESC` (R288, R331): a dispatch's descriptor arrives. -/
def execMgmtDdesc (s : State) : Host.Outcome State Fault Refusal := onPacket s (mgmtFor s 6) fun p s => s.keepDesc p (if fieldLe p.data 14 1 = 0 then 1 else 2)

/-- Step `MGMT_CANCEL` (R318, R332): the member's token is poisoned with the cause; a command not yet issued is poisoned when it issues. -/
def execMgmtCancel (s : State) : Host.Outcome State Fault Refusal :=
  onPacket s (mgmtFor s 7) fun p s =>
    let cid := fieldLe p.data 0 4
    let n := fieldLe p.data 4 4
    let kind := fieldLe p.data 8 1
    match s.podOp p.sasid.toNat kind cid n with
    | some o => s.finishOp o.id .poison (BitVec.ofNat 8 (fieldLe p.data 9 1))
    | none => if s.wasIssued p.sasid.toNat kind cid n || s.descs.contains p then s else { s with descs := s.descs ++ [p] }

/-- Step `MGMT_UNPIN` (R55, R288, R297): a grant ends, and the frames that it held may retire. -/
def execMgmtUnpin (s : State) : Host.Outcome State Fault Refusal :=
  onPacket s (mgmtFor s 4) fun p s =>
    let s := { s with grants := s.grants.filter fun g => !(g.dev == p.src.toNat && g.gid == fieldLe p.data 0 4) }
    retireFrames s.toRetire s

end Sys2Proof.Machine
end

