-- ==== Sys2Proof/Machine/Control.lean ====
section
/-!
DEFINITION. The meanings of the control words: `NOP`, `TRAP`, the branches, `CALL`, `RET`, `LOOP`, `BRK`, `BRX`, `RCV`, `YIELD` and `EXIT`
(R139 to R149, R372).
-/
namespace Sys2Proof.Machine
open Sys2Proof

/-- The target of a C word: PC + 4·sext(off, 23), modulo 2^32 (R139). -/
def branchTarget (pc : Word) (o : BitVec 23) : Word := pc + 4#32 * o.signExtend 32

/-- Is a code address before CODE_LEN (R99, detail 0x09)? -/
def inCode (x : Issue) (a : Word) : Bool := decide (a.toNat < x.codeLen)

/-- `NOP` (R149). -/
def execNop (st : Bool) (s : State) : Host.Outcome State Fault Refusal :=
  runWord s 0x05 st (fun _ => {}) fun x s => s.commit x (allGo x)

/-- `TRAP` (R372): every thread of the issue set takes TCODE 0x4000_0000 + CODE. -/
def execTrap (st : Bool) (c : BitVec 16) (s : State) : Host.Outcome State Fault Refusal :=
  runWord s 0x06 st (fun _ => {}) fun x s => s.commit x (allTrap x (0x40000000#32 + c.setWidth 32))

/-- A branch: each lane for which the condition holds continues at the target, every other at the next word (R140). -/
def branchWord (s : State) (op : Nat) (st : Bool) (o : BitVec 23) (cond : Issue → Thread → Bool) : Host.Outcome State Fault Refusal :=
  runWord s op st (fun x => { target := inCode x (branchTarget x.pc o) }) fun x s =>
    s.commit x (eachLane x fun _ t => .go t (if cond x t then .jump (branchTarget x.pc o) else .fall x.pc))

/-- `BRA` (R140): taken by every thread. -/
def execBra (st : Bool) (o : BitVec 23) (s : State) : Host.Outcome State Fault Refusal := branchWord s 0x10 st o fun _ _ => true
/-- `?q0 bra` (R140). -/
def execBraQ0 (st : Bool) (o : BitVec 23) (s : State) : Host.Outcome State Fault Refusal := branchWord s 0x11 st o fun x _ => x.g.qget 0
/-- `?!q0 bra` (R140). -/
def execBraNotQ0 (st : Bool) (o : BitVec 23) (s : State) : Host.Outcome State Fault Refusal := branchWord s 0x12 st o fun x _ => !x.g.qget 0
/-- `?q1 bra` (R140). -/
def execBraQ1 (st : Bool) (o : BitVec 23) (s : State) : Host.Outcome State Fault Refusal := branchWord s 0x13 st o fun x _ => x.g.qget 1
/-- `?!q1 bra` (R140). -/
def execBraNotQ1 (st : Bool) (o : BitVec 23) (s : State) : Host.Outcome State Fault Refusal := branchWord s 0x14 st o fun x _ => !x.g.qget 1
/-- `?q2 bra` (R140). -/
def execBraQ2 (st : Bool) (o : BitVec 23) (s : State) : Host.Outcome State Fault Refusal := branchWord s 0x15 st o fun x _ => x.g.qget 2
/-- `?!q2 bra` (R140). -/
def execBraNotQ2 (st : Bool) (o : BitVec 23) (s : State) : Host.Outcome State Fault Refusal := branchWord s 0x16 st o fun x _ => !x.g.qget 2
/-- `?q3 bra` (R140). -/
def execBraQ3 (st : Bool) (o : BitVec 23) (s : State) : Host.Outcome State Fault Refusal := branchWord s 0x17 st o fun x _ => x.g.qget 3
/-- `?!q3 bra` (R140). -/
def execBraNotQ3 (st : Bool) (o : BitVec 23) (s : State) : Host.Outcome State Fault Refusal := branchWord s 0x18 st o fun x _ => !x.g.qget 3
/-- `?p0 bra` (R140): GEN replaces the tested predicate. -/
def execBraP0 (st : Bool) (o : BitVec 23) (s : State) : Host.Outcome State Fault Refusal :=
  branchWord s 0x19 st o fun x t => genGuard x.hints (t.pget 0) t
/-- `?!p0 bra` (R140): GEN replaces the tested predicate. -/
def execBraNotP0 (st : Bool) (o : BitVec 23) (s : State) : Host.Outcome State Fault Refusal :=
  branchWord s 0x1A st o fun x t => genGuard x.hints (!t.pget 0) t
/-- `?p1 bra` (R140): GEN replaces the tested predicate. -/
def execBraP1 (st : Bool) (o : BitVec 23) (s : State) : Host.Outcome State Fault Refusal :=
  branchWord s 0x1B st o fun x t => genGuard x.hints (t.pget 1) t

/-- The TRAP-class code of R142 with its low bits. -/
def stackTrap (c : Nat) : Out := .trap (0x40020000#32 + BitVec.ofNat 32 c) 0#64 0

/-- Does the thread's top entry end at the word (R142, code 0x2_0004)? -/
def atLoopEnd (t : Thread) (pc : Word) : Bool := match t.stack with
  | e :: _ => e.isLoop && e.fin == pc
  | [] => false

/-- `CALL` for a lane (R143); in the handler it is a nested trap (R370). Where several causes of R142 hold at once the model raises the full stack, or the
missing `CALL` entry, before the loop's end (log entry 150). -/
def callLane (x : Issue) (target : Word) (t : Thread) : Out :=
  if t.hnd then stackTrap 5
  else if 4 ≤ t.stack.length then stackTrap 1
  else if atLoopEnd t x.pc then stackTrap 4
  else .go { t with stack := { isLoop := false, start := x.pc + 4#32 } :: t.stack } (.jump target)

/-- `CALL` (R143). -/
def execCall (st : Bool) (o : BitVec 23) (s : State) : Host.Outcome State Fault Refusal :=
  runWord s 0x1C st (fun x => { target := inCode x (branchTarget x.pc o) }) fun x s =>
    s.commit x (eachLane x fun _ t => callLane x (branchTarget x.pc o) t)

/-- The return PC of the topmost CALL entry, and the stack below it. -/
def popCall : List LoopEntry → Option (Word × List LoopEntry)
  | [] => none
  | e :: es => if e.isLoop then popCall es else some (e.start, es)

/-- `RET` for a lane (R143). -/
def retLane (x : Issue) (t : Thread) : Out :=
  if t.hnd then stackTrap 5
  else match popCall t.stack with
    | none => stackTrap 2
    | some (pc, st) => if atLoopEnd t x.pc then stackTrap 4 else .go { t with stack := st } (.jump pc)

/-- `RET` (R143). -/
def execRet (st : Bool) (s : State) : Host.Outcome State Fault Refusal :=
  runWord s 0x1D st (fun _ => {}) fun x s => s.commit x (eachLane x fun _ t => retLane x t)

/-- The last word of a `LOOP` body (R144). -/
def loopEnd (pc : Word) (i : BitVec 9) : Word := pc + 4#32 * (i.setWidth 32 + 1#32)

/-- `LOOP` for a lane (R144): a count of 0 skips the body. -/
def loopLane (x : Issue) (a : Nat) (i : BitVec 9) (t : Thread) : Out :=
  if t.hnd then stackTrap 5
  else if t.vget a != 0#32 && 4 ≤ t.stack.length then stackTrap 1
  else if atLoopEnd t x.pc then stackTrap 4
  else if t.vget a == 0#32 then .go t (.plain (loopEnd x.pc i + 4#32))
  else .go { t with stack := { isLoop := true, start := x.pc + 4#32, fin := loopEnd x.pc i, left := t.vget a } :: t.stack } (.plain (x.pc + 4#32))

/-- `LOOP` (R144): an END at or beyond CODE_LEN raises detail 0x09. -/
def execLoop (st : Bool) (a : BitVec 7) (i : BitVec 9) (s : State) : Host.Outcome State Fault Refusal :=
  runWord s 0x1E st (fun x => { vregs := [(a.toNat, 1)], target := inCode x (loopEnd x.pc i) }) fun x s =>
    s.commit x (eachLane x fun l t => whenFree s x l [a.toNat] (loopLane x a.toNat i t))

/-- `BRK` for a guard-true lane (R145). -/
def brkLane (t : Thread) : Out :=
  if t.hnd then stackTrap 5
  else match t.stack with
    | e :: es => if e.isLoop then .go { t with stack := es } (.fall e.fin) else stackTrap 3
    | [] => stackTrap 3

/-- `BRK` (R145). -/
def execBrk (st : Bool) (g : BitVec 2) (s : State) : Host.Outcome State Fault Refusal :=
  runWord s 0x1F st (fun _ => {}) fun x s =>
    s.commit x (eachLane x fun _ t => if takesPart x.hints g.toNat t then brkLane t else skipLane x t)

/-- Is the content of a register a branch target of R141: not negative, a multiple of 4, before CODE_LEN? -/
def brxOk (x : Issue) (w : Word) : Bool := !w.msb && w.toNat % 4 == 0 && inCode x w

/-- `BRX` for a guard-true lane: a taken branch; the first one in the handler leaves handler mode, with no loop decision (R141, R370). -/
def brxLane (target : Word) (t : Thread) : Out :=
  if t.hnd then .go { t with hnd := false } (.plain target) else .go t (.jump target)

/-- `BRX` (R141): the target check covers the whole issue set; a lane whose register is a token target parks first (R118). -/
def execBrx (st : Bool) (a : BitVec 7) (g : BitVec 2) (s : State) : Host.Outcome State Fault Refusal :=
  runWord s 0x20 st (fun _ => { vregs := [(a.toNat, 1)] }) fun x s =>
    if x.lanes.any fun l => takesPart x.hints g.toNat (x.g.thread l) && (trackers s x.g.uid l a.toNat).isEmpty &&
        !brxOk x ((x.g.thread l).vget a.toNat) then s.illegal x 9
    else s.commit x (eachLane x fun l t =>
      if takesPart x.hints g.toNat t then whenFree s x l [a.toNat] (brxLane (t.vget a.toNat) t) else skipLane x t)

/-- `RCV` (R125, R146): each thread waits until every thread that has not exited does; in the handler it is a nested trap (R370). -/
def execRcv (st : Bool) (s : State) : Host.Outcome State Fault Refusal :=
  runWord s 0x21 st (fun _ => {}) fun x s => s.commit x (eachLane x fun _ t => if t.hnd then stackTrap 5 else .rcv t)

/-- `YIELD` (R148): only the order of issue changes. -/
def execYield (st : Bool) (s : State) : Host.Outcome State Fault Refusal :=
  runWord s 0x22 st (fun _ => {}) fun x s =>
    (s.modGroup x.g.uid fun g => { g with yielded := true, leftOut := x.lanes }).commit x (allGo x)

/-- `EXIT` (R147): guard-true threads end; the others go on. -/
def execExit (st : Bool) (g : BitVec 2) (s : State) : Host.Outcome State Fault Refusal :=
  runWord s 0x23 st (fun _ => {}) fun x s =>
    s.commit x (eachLane x fun _ t => if takesPart x.hints g.toNat t then .exit t else skipLane x t)

end Sys2Proof.Machine
end

