-- ==== Sys2Proof/Machine/Convert.lean ====
section
/-!
DEFINITION. The meanings of the conversion and quantisation words (R176 to R180): `CVT`, `PACK`, `UNPK`, `QNT` and `DQNT`.
-/
namespace Sys2Proof.Machine
open Sys2Proof

/-- The formats of `CVT` (R177). -/
def cvtFormat (f : Nat) : Bool := f == 0 || f == 1 || f == 2 || f == 9

/-- The exact value of a register in a format of `CVT`: a half format reads bits [15:0] (R177). -/
def cvtSource (f : Nat) (a : Word) : Val := elemVal f (bitsOf a.toNat 0 (fmtWidth f)) false

/-- `CVT`'s result (R177): NV of a signalling NaN, and the rounding into the target format. -/
def cvtResult (mode : RMode) (ovf : Bool) (df sf : Nat) (a : Word) : Word × FFlags :=
  let v := cvtSource sf a
  let r := encodeElem df mode ovf v
  (BitVec.ofNat 32 r.1, r.2 ||| v.snan)

/-- `CVT` (R177): the formats must be two different ones of the four. -/
def execCvt (st : Bool) (d a : BitVec 7) (e f : BitVec 4) (s : State) : Host.Outcome State Fault Refusal :=
  runWord s 0x70 st (fun _ => { codeOk := cvtFormat e.toNat && cvtFormat f.toNat && e != f, vregs := [(d.toNat, 1), (a.toNat, 1)] }) fun x s =>
    longWord s x 0 [d.toNat, a.toNat] d.toNat fun _ t => cvtResult (modeOf x.hints) (modOf x.hints).ovf e.toNat f.toNat (t.vget a.toNat)

/-- Element `n` of a register replaced (R150). -/
def putElem (w : Word) (width n code : Nat) : Word :=
  let lo := width * n
  BitVec.ofNat 32 (w.toNat - bitsOf w.toNat lo width * 2 ^ lo + code % 2 ^ width * 2 ^ lo)

/-- `PACK`'s result (R178). -/
def packResult (mode : RMode) (ovf : Bool) (f n : Nat) (a d : Word) : Word × FFlags :=
  let v := fmtF32.decode a.toNat
  let r := encodeElem f mode ovf v
  (putElem d (fmtWidth f) n r.1, r.2 ||| v.snan)

/-- `PACK` (R178): any element format but f32 and i32, and a position inside the register. -/
def execPack (st : Bool) (d a : BitVec 7) (f : BitVec 4) (n : BitVec 5) (s : State) : Host.Outcome State Fault Refusal :=
  runWord s 0x71 st (fun _ => { codeOk := decide (f.toNat < 12 ∧ f.toNat ≠ 0 ∧ f.toNat ≠ 9 ∧ n.toNat < fmtCount f.toNat),
                                vregs := [(d.toNat, 1), (a.toNat, 1)] }) fun x s =>
    longWord s x 0 [d.toNat, a.toNat] d.toNat fun _ t =>
      packResult (modeOf x.hints) (modOf x.hints).ovf f.toNat n.toNat (t.vget a.toNat) (t.vget d.toNat)

/-- `UNPK`'s result (R178): the FP32 value of an element, exact; NV of a signalling NaN. -/
def unpkResult (f n : Nat) (a : Word) : Word × FFlags :=
  let v := elemVal f (bitsOf a.toNat (fmtWidth f * n) (fmtWidth f)) false
  (BitVec.ofNat 32 (fmtF32.arith .rne v).1, v.snan)

/-- `UNPK` (R178): any element format but f32, i32 and sx4. -/
def execUnpk (st : Bool) (d a : BitVec 7) (f : BitVec 4) (n : BitVec 5) (s : State) : Host.Outcome State Fault Refusal :=
  runWord s 0x72 st (fun _ => { codeOk := decide (f.toNat < 12 ∧ f.toNat ≠ 0 ∧ f.toNat ≠ 8 ∧ f.toNat ≠ 9 ∧ n.toNat < fmtCount f.toNat),
                                vregs := [(d.toNat, 1), (a.toNat, 1)] }) fun x s =>
    longWord s x 0 [d.toNat, a.toNat] d.toNat fun _ t => unpkResult f.toNat n.toNat (t.vget a.toNat)

/-- `QNT`'s result (R179): the block scale of a magnitude in one byte of vd. -/
def qntResult (f b : Nat) (a d : Word) : Word × FFlags :=
  let v := fmtF32.decode a.toNat
  let c : Nat := if v.isNan then 0xFF else (scaleExpVal f v + 127).toNat
  (putElem d 8 b c, v.snan)

/-- `QNT` (R179): the formats of R164. -/
def execQnt (st : Bool) (d a : BitVec 7) (f : BitVec 4) (b : BitVec 2) (s : State) : Host.Outcome State Fault Refusal :=
  runWord s 0x73 st (fun _ => { codeOk := (decide (3 ≤ f.toNat ∧ f.toNat ≤ 8)) || f == 10#4, vregs := [(d.toNat, 1), (a.toNat, 1)] }) fun x s =>
    longWord s x 0 [d.toNat, a.toNat] d.toNat fun _ t => qntResult f.toNat b.toNat (t.vget a.toNat) (t.vget d.toNat)

/-- Element `i` of a `DQNT` source, folded (R180). -/
def dqntElem (mode : RMode) (ovf : Bool) (f : Nat) (a : Word) (c extra i : Nat) : Nat × FFlags :=
  let code := bitsOf a.toNat (fmtWidth f * i) (fmtWidth f)
  foldElem mode ovf (if f = 8 && code == 8 then fmtE4m3.decode extra else elemVal f code true) c

/-- The word of halves `2j` and `2j+1` of a `DQNT` destination (R180). -/
def dqntWord (mode : RMode) (ovf : Bool) (f : Nat) (a : Word) (c extra j : Nat) : Word × FFlags :=
  let lo := dqntElem mode ovf f a c extra (2 * j)
  let hi := dqntElem mode ovf f a c extra (2 * j + 1)
  (BitVec.ofNat 32 (lo.1 + hi.1 * 2 ^ 16), lo.2 ||| hi.2)

/-- The pending results of a `DQNT` for one thread, the flags of all on each (R160, R180). -/
def dqntPend (t : Thread) (x : Issue) (wid d : Nat) (rs : List (Word × FFlags)) : Thread :=
  let fl := rs.foldl (fun f r => f ||| r.2) 0#5
  rs.zipIdx.foldl (fun t (r, j) => t.long x wid (trapEnables x.g) (.v (d + j)) r.1 fl) t

/-- A `DQNT` word (R180): no guard; a pair of registers for 4 elements, a quad for 8; `.sx4` reads the extra bytes in vb + 1. -/
def dqntExec (s : State) (op : Nat) (st : Bool) (f : Nat) (d a b : BitVec 7) (c : BitVec 2) : Host.Outcome State Fault Refusal :=
  let n := if f = 7 || f = 8 then 4 else 2
  let nb := if f = 8 then 2 else 1
  runWord s op st (fun _ => { vregs := [(d.toNat, n), (a.toNat, 1), (b.toNat, nb)] }) fun x s =>
    vectorWord s.bump x 0 (regRun d.toNat n ++ [a.toNat] ++ regRun b.toNat nb) fun _ t =>
      let sc := bitsOf (t.vget b.toNat).toNat (8 * c.toNat) 8
      let ex := bitsOf (t.vget (b.toNat + 1)).toNat (8 * c.toNat) 8
      dqntPend t x s.nextId d.toNat
        ((List.range n).map fun j => dqntWord (modeOf x.hints) (modOf x.hints).ovf f (t.vget a.toNat) sc ex j)

/-- `DQNT.E4M3` (R180). -/
def execDqntE4m3 (st : Bool) (d a b : BitVec 7) (c : BitVec 2) (s : State) : Host.Outcome State Fault Refusal := dqntExec s 0x78 st 3 d a b c
/-- `DQNT.E5M2` (R180). -/
def execDqntE5m2 (st : Bool) (d a b : BitVec 7) (c : BitVec 2) (s : State) : Host.Outcome State Fault Refusal := dqntExec s 0x79 st 4 d a b c
/-- `DQNT.E2M3` (R180). -/
def execDqntE2m3 (st : Bool) (d a b : BitVec 7) (c : BitVec 2) (s : State) : Host.Outcome State Fault Refusal := dqntExec s 0x7A st 5 d a b c
/-- `DQNT.E3M2` (R180). -/
def execDqntE3m2 (st : Bool) (d a b : BitVec 7) (c : BitVec 2) (s : State) : Host.Outcome State Fault Refusal := dqntExec s 0x7B st 6 d a b c
/-- `DQNT.E2M1` (R180). -/
def execDqntE2m1 (st : Bool) (d a b : BitVec 7) (c : BitVec 2) (s : State) : Host.Outcome State Fault Refusal := dqntExec s 0x7C st 7 d a b c
/-- `DQNT.SX4` (R180). -/
def execDqntSx4 (st : Bool) (d a b : BitVec 7) (c : BitVec 2) (s : State) : Host.Outcome State Fault Refusal := dqntExec s 0x7D st 8 d a b c
/-- `DQNT.I8` (R180). -/
def execDqntI8 (st : Bool) (d a b : BitVec 7) (c : BitVec 2) (s : State) : Host.Outcome State Fault Refusal := dqntExec s 0x7E st 10 d a b c

end Sys2Proof.Machine
end

