-- ==== Sys2Proof/Machine/Crossbar.lean ====
section
/-!
DEFINITION. The meanings of the crossbar words (R181 to R185): `XPAT`, `XPERM`, `SHFL`, `SCAN` and `RDX`.
-/
namespace Sys2Proof.Machine
open Sys2Proof

/-- A crossbar word (R181): while a source lane's register is a token target every thread of the set parks; else the lanes that write take their
results, long-class. `own` are the registers a writing lane reads or writes of its own. -/
def crossWord (s : State) (x : Issue) (guard a d : Nat) (own : List Nat) (sources : List Nat) (f : Nat → Word × FFlags) : State :=
  match sources.flatMap fun l => trackers s x.g.uid l a with
  | [] => longWord s x guard own d fun l _ => f l
  | ids => s.commit x (allPark x .tokenTarget (.ops ids))

/-- What lane entry bits give of a source word (R182). -/
def applyEntry (g : Group) (a entry : Nat) : Word :=
  if bitOf entry 15 then 0#32
  else
    let y := ((g.thread (bitsOf entry 8 5)).vget a).toNat
    BitVec.ofNat 32 ((List.range 4).foldl (fun r j => r + bitsOf y (8 * bitsOf entry (2 * j) 2) 8 * 2 ^ (8 * j)) 0)

/-- Entry `lane` of a core's pattern table; a table nothing has loaded has Z set (R183). -/
def State.patEntry (s : State) (core n lane : Nat) : Nat := match s.pats.find? fun p => p.1 == core && p.2.1 == n with
  | some p => fieldLe p.2.2 (2 * lane) 2
  | none => 0x8000

/-- The source lanes of permutation entries: those whose Z is clear. -/
def entrySources (ls : List Nat) (e : Nat → Nat) : List Nat := (ls.filter fun l => !bitOf (e l) 15).map fun l => bitsOf (e l) 8 5

/-- `XPAT` (R183). -/
def execXpat (st : Bool) (d a : BitVec 7) (n : BitVec 4) (s : State) : Host.Outcome State Fault Refusal :=
  runWord s 0x80 st (fun _ => { vregs := [(d.toNat, 1), (a.toNat, 1)] }) fun x s =>
    let e := fun l => s.patEntry x.g.core n.toNat l
    crossWord s x 0 a.toNat d.toNat [d.toNat] (entrySources (partLanes s x 0 [d.toNat]) e) fun l => (applyEntry x.g a.toNat (e l), 0#5)

/-- `XPERM` (R183): each lane's pattern is bits [15:0] of its own vb. -/
def execXperm (st : Bool) (d a b : BitVec 7) (g : BitVec 2) (s : State) : Host.Outcome State Fault Refusal :=
  runWord s 0x81 st (fun _ => { vregs := [(d.toNat, 1), (a.toNat, 1), (b.toNat, 1)] }) fun x s =>
    let e := fun l => bitsOf ((x.g.thread l).vget b.toNat).toNat 0 16
    crossWord s x g.toNat a.toNat d.toNat [d.toNat, b.toNat] (entrySources (partLanes s x g.toNat [d.toNat, b.toNat]) e) fun l =>
      (applyEntry x.g a.toNat (e l), 0#5)

/-- The lane that `SHFL` reads for a lane (R184). -/
def shflSource (m n l : Nat) : Nat :=
  let src := match m with
    | 0 => n
    | 1 => if n ≤ l then l - n else 32
    | 2 => l + n
    | _ => Nat.xor l n
  if src < 32 then src else l

/-- `SHFL` (R184). -/
def execShfl (st : Bool) (d a : BitVec 7) (m : BitVec 2) (n : BitVec 5) (s : State) : Host.Outcome State Fault Refusal :=
  runWord s 0x82 st (fun _ => { vregs := [(d.toNat, 1), (a.toNat, 1)] }) fun x s =>
    crossWord s x 0 a.toNat d.toNat [d.toNat] ((partLanes s x 0 [d.toNat]).map (shflSource m.toNat n.toNat)) fun l =>
      ((x.g.thread (shflSource m.toNat n.toNat l)).vget a.toNat, 0#5)

/-- Is the operator and format pair of `SCAN` and `RDX` one that R185 gives? -/
def foldOk (o f : Nat) : Bool := (f == 9 && decide (o < 8)) || (f == 0 && decide (o < 3))

/-- The FP32 operators of `SCAN` and `RDX` (R185). -/
def foldF32 (o : Nat) (a b : Word) : Word × FFlags :=
  let r := match o with
    | 0 => fmtF32.fadd .rne a.toNat b.toNat
    | 1 => fminmax false a.toNat b.toNat
    | _ => fminmax true a.toNat b.toNat
  (BitVec.ofNat 32 r.1, r.2)

/-- The integer operators of `SCAN` and `RDX` (R185). -/
def foldI32 (o : Nat) (a b : Word) : Word :=
  match o with
  | 0 => a + b
  | 1 => if a.slt b then a else b
  | 2 => if b.slt a then a else b
  | 3 => if a.ult b then a else b
  | 4 => if b.ult a then a else b
  | 5 => a &&& b
  | 6 => a ||| b
  | _ => a ^^^ b

/-- The operator of `SCAN` and `RDX` (R185). -/
def foldOp (o f : Nat) (a b : Word) : Word × FFlags := if f = 0 then foldF32 o a b else (foldI32 o a b, 0#5)

/-- The identity of an exclusive `SCAN` (R185). -/
def foldIdentity (o f : Nat) : Word :=
  if f = 0 then (match o with
    | 0 => 0#32
    | 1 => 0x7F800000#32
    | _ => 0xFF800000#32)
  else match o with
    | 1 => 0x7FFFFFFF#32
    | 2 => 0x80000000#32
    | 3 => 0xFFFFFFFF#32
    | 5 => 0xFFFFFFFF#32
    | _ => 0#32

/-- The left fold of the operator over values in lane order, with the flags of every step. -/
def scanFold (o f : Nat) : Word × FFlags → List Word → Word × FFlags
  | acc, [] => acc
  | (v, fl), y :: ys => let (r, fl') := foldOp o f v y; scanFold o f (r, fl ||| fl') ys

/-- `SCAN`'s result for a lane over the lanes that take part (R185). -/
def scanResult (g : Group) (a o f : Nat) (ex : Bool) (ls : List Nat) (lane : Nat) : Word × FFlags :=
  match (ls.filter fun u => if ex then decide (u < lane) else decide (u ≤ lane)).map fun u => (g.thread u).vget a with
  | [] => (foldIdentity o f, 0#5)
  | v :: vs => scanFold o f (v, 0#5) vs

/-- Two halves of a reduction tree combined (R185). -/
def combine (o f : Nat) : Option (Word × FFlags) → Option (Word × FFlags) → Option (Word × FFlags)
  | none, y => y
  | some x, none => some x
  | some x, some y => let (r, fl) := foldOp o f x.1 y.1; some (r, x.2 ||| y.2 ||| fl)

/-- The reduction tree over 2^k lanes from a lane (R185). -/
def rdxTree (g : Group) (a o f : Nat) (ls : List Nat) : Nat → Nat → Option (Word × FFlags)
  | 0, lo => if ls.contains lo then some ((g.thread lo).vget a, 0#5) else none
  | k + 1, lo => combine o f (rdxTree g a o f ls k lo) (rdxTree g a o f ls k (lo + 2 ^ k))

/-- `SCAN` (R185). -/
def execScan (st : Bool) (d a : BitVec 7) (o f : BitVec 4) (e : BitVec 1) (s : State) : Host.Outcome State Fault Refusal :=
  runWord s 0x83 st (fun _ => { codeOk := foldOk o.toNat f.toNat, vregs := [(d.toNat, 1), (a.toNat, 1)] }) fun x s =>
    let ls := partLanes s x 0 [d.toNat]
    crossWord s x 0 a.toNat d.toNat [d.toNat] ls (scanResult x.g a.toNat o.toNat f.toNat (e == 1#1) ls)

/-- `RDX` (R185): every lane that takes part receives the value, and the flags. -/
def execRdx (st : Bool) (d a : BitVec 7) (o f : BitVec 4) (s : State) : Host.Outcome State Fault Refusal :=
  runWord s 0x84 st (fun _ => { codeOk := foldOk o.toNat f.toNat, vregs := [(d.toNat, 1), (a.toNat, 1)] }) fun x s =>
    let ls := partLanes s x 0 [d.toNat]
    crossWord s x 0 a.toNat d.toNat [d.toNat] ls fun _ => (rdxTree x.g a.toNat o.toNat f.toNat ls 5 0).getD (0#32, 0#5)

end Sys2Proof.Machine
end

