-- ==== Sys2Proof/Machine/EngineEvents.lean ====
section
/-!
DEFINITION. The steps of engine commands (R218 to R220, R227, R230, R310, R318, R326, R332, R335, R336): a command starts, its chunks land, its reductions
and combinations are made, and it finishes. Each step is given to the engine that its operation's kind names.
-/
namespace Sys2Proof.Machine
open Sys2Proof

/-! ## The start (R92, R219, R220, R392) -/

/-- Is a context's control team away, so that its commands stay in the engine queue (R392)? -/
def State.controlAway (s : State) (asid : Nat) : Bool :=
  match s.ctx? asid with
  | none => true
  | some c => c.descheduled || s.teams.any fun t => t.asid == asid && t.isSaved && (s.launch? t.launch).any fun l => l.isCtrl

/-- Does a command read or write the scratchpad or the weight buffers of its team's core by its own engine, so that it starts only while the team is there? -/
def Op.needsCore (o : Op) (recd : Bytes) : Bool := match o.kind with
  | .copy _ => (shapeOf recd).skind == 1 || (shapeOf recd).dkind == 1 || (shapeOf recd).dkind == 2
  | .kvld => !(kvldArgs o).win
  | _ => false

/-- Is an operation's team saved? -/
def State.teamSaved (s : State) (o : Op) : Bool := (s.team? o.team).any Team.isSaved

/-- A `COLL`, `RTE` or `RTC` that is skipped sends its cancel to the members that its lists name, and its token is poisoned; the precondition's poison takes the
place of any fault in those lists, and where they cannot be read there is no member to send to (R318, R332). -/
def State.skipPod (s : State) (o : Op) (c : BitVec 8) : State :=
  let n := if o.kind == .coll then collRanks o.recd else dispNdev o.recd
  match s.engineGet o (podKey 0 0) (fieldLe o.recd 0x88 8) (2 * n) with
  | .ok bs =>
    let (s, o) := s.knowPeers o bs
    s.failPod o c
  | .wait s => s
  | .halted _ => s.failPod o c
  | .fail _ => s.failPod o c

/-- A command that is skipped has no effect but its poison (R92, R219). -/
def State.skipCommand (s : State) (o : Op) (c : BitVec 8) : State := match o.kind with
  | .launch l => (s.finishOp o.id .poison c).dropLaunch l
  | .coll => s.skipPod o c
  | .rte => s.skipPod o c
  | .rtc => s.skipPod o c
  | _ => s.finishOp o.id .poison c

/-- The first thing that a started key-value command does, or the next when it has been held. -/
def State.runKv (s : State) (o : Op) : State := match o.kind with
  | .kvld => if o.stage = 0 then s.kvldRead o else s
  | .kvseal => s.runSeal o
  | .kvhdr => s.runHdr o
  | _ => s

/-- An engine command other than a copy or a launch leaves the queue, with its acquire (R218 to R220). -/
def State.beginCommand (s : State) (o : Op) : State :=
  if !s.acqReady o then s else (((s.acqFor o).leaveQueue o.asid [o.id]).markStarted [o.id]).runKv o

/-- A command that has not started, once its conditions hold. -/
def State.startCommand (s : State) (o : Op) : State :=
  if s.controlAway o.asid then s
  else match o.kind with
    | .copy gid => match s.gather? gid with
      | some g => if s.teamSaved o && o.needsCore g.recd then s else s.startCopy g
      | none => s
    | k =>
      if !k.isEngine || !o.ready || (s.teamSaved o && o.needsCore []) then s
      else match o.skipCause with
        | some c => s.skipCommand o c
        | none => match k with
          | .launch l => s.startLaunch o l
          | _ => s.beginCommand o

/-- Step `ENGINE_COMMAND_START` (R219): a command of the engine queue starts, or is skipped. A key-value command that found its page held goes on by another
occurrence of the step. -/
def execEngineCommandStart (op : Nat) (s : State) : Host.Outcome State Fault Refusal :=
  match s.op? op with
  | none => .next s
  | some o => .next (if o.started then s.runKv o else s.startCommand o)

/-! ## Chunks and finishes -/

/-- Step `CHUNK_LAND` (R227, R278, R316, R321): the next thing that chunk `i` of a started command needs. -/
def execChunkLand (op i : Nat) (s : State) : Host.Outcome State Fault Refusal :=
  match s.op? op with
  | none => .next s
  | some o => match o.kind with
    | .copy gid => match s.leadOf gid with
      | some (g, o) => .next (s.landCopy g o i)
      | none => .next s
    | .kvld => .next (if o.started then s.kvldLand o else s)
    | .coll => .next (s.landColl o i)
    | .mcst => .next (s.landMcst o i)
    | _ => .next s

/-- An accepted `KVLD` finishes (R278), or fails for a window that has gone (R77). -/
def State.finishKvld (s : State) (o : Op) : State :=
  if o.stage != 4 || s.opWaits o.id then s
  else if o.fail != 0#8 then s.finishOp o.id .poison o.fail
  else (s.relFor o).finishOp o.id .done 0#8

/-- Step `COPY_FINISH` (R230, R231). -/
def execCopyFinish (op : Nat) (s : State) : Host.Outcome State Fault Refusal :=
  match s.op? op with
  | none => .next s
  | some o => match o.kind with
    | .copy gid => match s.leadOf gid with
      | some (g, o) => .next (s.finishCopy g o)
      | none => .next s
    | .kvld => .next (s.finishKvld o)
    | _ => .next s

/-- Step `REDUCTION_STEP` (R310, R316, R317): a slot whose home is here is reduced. -/
def execReductionStep (op slot : Nat) (s : State) : Host.Outcome State Fault Refusal :=
  match s.op? op with
  | none => .next s
  | some o => .next (if o.kind == .coll && o.started && o.fail == 0#8 then s.reduce o slot else s)

/-- Step `COMBINE_STEP` (R335, R336): the next thing that an `RTC` needs for chunk `i` of its rows. -/
def execCombineStep (op i : Nat) (s : State) : Host.Outcome State Fault Refusal :=
  match s.op? op with
  | none => .next s
  | some o => .next (if o.kind == .rtc then s.runRtc o i else s)

/-- Step `GATHER_SERVE` (R335): the `n`-th gather request that an `RTC` holds is served. -/
def execGatherServe (op n : Nat) (s : State) : Host.Outcome State Fault Refusal :=
  let mine := s.held.filterMap fun p => match s.serverOf p with
    | some o => if o.id == op then some (p, o) else none
    | none => none
  match mine[n]? with
  | some (p, o) => .next (s.serveGather p o)
  | none => .next s

/-- Step `DISPATCH_PLACEMENT` (R326 to R331): the next part of an `RTE`'s work. -/
def execDispatchPlacement (op : Nat) (s : State) : Host.Outcome State Fault Refusal :=
  match s.op? op with
  | none => .next s
  | some o => .next (if o.kind == .rte then s.runRte o else s)

/-- Step `COLLECTIVE_FINISH` (R318, R321). -/
def execCollectiveFinish (op : Nat) (s : State) : Host.Outcome State Fault Refusal :=
  match s.op? op with
  | none => .next s
  | some o => match o.kind with
    | .coll => .next (s.finishColl o)
    | .mcst => .next (s.finishMcst o)
    | _ => .next s

/-- Step `DISPATCH_FINISH` (R332, R336). -/
def execDispatchFinish (op : Nat) (s : State) : Host.Outcome State Fault Refusal :=
  match s.op? op with
  | none => .next s
  | some o => match o.kind with
    | .rte => .next (s.finishRte o)
    | .rtc => .next (s.finishRtc o)
    | _ => .next s

end Sys2Proof.Machine
end

