-- ==== Sys2Proof/Machine/ErrorEvents.lean ====
section
/-!
DEFINITION. Errors that the device meets by itself (R395 to R398): an uncorrectable error in a dirty L2 line or in HBM, an error in a clean line, and a
corrected soft error.
-/
namespace Sys2Proof.Machine
open Sys2Proof

/-- A line marked lost: nothing of it is kept, and its frame is to be retired (R396, R397). -/
def State.loseLine (s : State) (line : Nat) : State :=
  let frame := line / 65536 * 65536
  let s := { s with lost := s.lost ++ [line], l2 := s.l2.filter fun x => x.pa != line, mem := clearRange s.mem line 256
                    toRetire := if s.toRetire.contains frame || s.retired.contains frame then s.toRetire else s.toRetire ++ [frame] }
  retireFrames s.toRetire s

/-- Ochre reports a device error (R396, R397, R410). -/
def State.deviceError (s : State) (line kind : Nat) : State := s.post 0x0082 0 0 0xFFFF (natLe 8 (s.physOf line) ++ natLe 2 kind)

/-- What an uncorrectable error does to the owner of the line: its context is terminated with one fault record that names the line; without an owner, Ochre
reports a device error (R396). -/
def State.blameLine (s : State) (line tag : Nat) : State :=
  if (s.ctx? tag).isSome then
    let ls := (s.launches.filter fun l => l.asid == tag && l.phase != .retired && l.phase != .failed && l.ended.isNone).map (·.uid)
    let s := ls.foldl (fun s l => s.stopLaunch l 0x30) s
    (s.ringAppend tag 1 (faultBytes s { asid := tag } { cause := 0x30, addr := line })).terminateCtx tag 0x30
  else s.deviceError line 1

/-- The way of a line's slice quarantined (R398): its other dirty lines are written back, and the way is disabled, at most four of a slice. -/
def State.quarantine (s : State) (line way : Nat) : State :=
  let slice := homeSlice line
  if s.ways.contains (slice, way) then s
  else if 4 ≤ (s.ways.filter fun x => x.1 == slice).length then s.logEvent 0x0008 0xFFFF (natLe 1 (slice / 96) ++ natLe 1 (slice % 96))
  else { s with ways := s.ways ++ [(slice, way)], l2 := s.l2.filter fun x => !(homeSlice x.pa == slice && x.way == way) }

/-- Step `L2_UNCORRECTABLE_ERROR` (R396): a dirty line is lost. -/
def execL2UncorrectableError (line : Nat) (s : State) : Host.Outcome State Fault Refusal :=
  match s.l2.find? fun x => x.pa == line with
  | none => .next s
  | some x => .next (((s.loseLine line).blameLine line x.tag).quarantine line x.way)

/-- Step `CLEAN_LINE_ERROR` (R395): a clean line is read again from HBM, with no effect but a count. -/
def execCleanLineError (line : Nat) (s : State) : Host.Outcome State Fault Refusal :=
  if line % 256 ≠ 0 ∨ hbmEnd ≤ line ∨ s.l2.any fun x => x.pa == line then .next s else .next (s.count 0xFFFF 0x200 0 0x108 1)

/-- Step `HBM_UNCORRECTABLE_ERROR` (R397): uncorrectable data in HBM, under no dirty line, is a lost line without an owner. -/
def execHbmUncorrectableError (line : Nat) (s : State) : Host.Outcome State Fault Refusal :=
  if line % 256 ≠ 0 ∨ hbmEnd ≤ line ∨ s.lost.contains line ∨ s.l2.any fun x => x.pa == line then .next s
  else .next ((s.loseLine line).deviceError line 2)

/-- Step `CORRECTED_SOFT_ERROR` (R395, R416): counted in its core, or for the device: 192 is Umber, and from 193 on its links, which retry. -/
def execCorrectedSoftError (unit : Nat) (s : State) : Host.Outcome State Fault Refusal :=
  if unit < 192 then .next (s.count unit 0x200 0 0x50 1)
  else
    let s := s.count 0xFFFF 0x200 0 0x108 1
    .next (if 193 ≤ unit then s.count 0xFFFF 0x200 0 0x102 1 else s)

end Sys2Proof.Machine
end

