-- ==== Sys2Proof/Machine/Float.lean ====
section
/-!
DEFINITION. The meanings of the floating-point and packed-half words and of `SCLX` (R168 to R175): long-class results with their flags.
-/
namespace Sys2Proof.Machine
open Sys2Proof

/-- A code and flags as a register word. -/
def wordFl (r : Nat × FFlags) : Word × FFlags := (BitVec.ofNat 32 r.1, r.2)

/-- A V3 word `vd := f mode a b d` of the floating pipe (R168). -/
def floatWord3 (s : State) (op : Nat) (st : Bool) (d a b : BitVec 7) (g : BitVec 2) (f : Issue → Word → Word → Word → Word × FFlags) :
    Host.Outcome State Fault Refusal :=
  runWord s op st (fun _ => { vregs := [(d.toNat, 1), (a.toNat, 1), (b.toNat, 1)] }) fun x s =>
    longWord s x g.toNat [d.toNat, a.toNat, b.toNat] d.toNat fun _ t => f x (t.vget a.toNat) (t.vget b.toNat) (t.vget d.toNat)

/-- A V3 word `vd := f mode a` of the floating pipe (R168, R171). -/
def floatWord1 (s : State) (op : Nat) (st : Bool) (d a : BitVec 7) (g : BitVec 2) (f : Issue → Word → Word × FFlags) :
    Host.Outcome State Fault Refusal :=
  runWord s op st (fun _ => { vregs := [(d.toNat, 1), (a.toNat, 1)] }) fun x s =>
    longWord s x g.toNat [d.toNat, a.toNat] d.toNat fun _ t => f x (t.vget a.toNat)

/-- `FADD` (R169). -/
def execFadd (st : Bool) (d a b : BitVec 7) (g : BitVec 2) (s : State) : Host.Outcome State Fault Refusal :=
  floatWord3 s 0x60 st d a b g fun x a b _ => wordFl (fmtF32.fadd (modeOf x.hints) a.toNat b.toNat)

/-- `FSUB` (R169). -/
def execFsub (st : Bool) (d a b : BitVec 7) (g : BitVec 2) (s : State) : Host.Outcome State Fault Refusal :=
  floatWord3 s 0x61 st d a b g fun x a b _ => wordFl (fmtF32.fsub (modeOf x.hints) a.toNat b.toNat)

/-- `FMUL` (R169). -/
def execFmul (st : Bool) (d a b : BitVec 7) (g : BitVec 2) (s : State) : Host.Outcome State Fault Refusal :=
  floatWord3 s 0x62 st d a b g fun x a b _ => wordFl (fmtF32.fmul (modeOf x.hints) a.toNat b.toNat)

/-- `FFMA` (R169). -/
def execFfma (st : Bool) (d a b : BitVec 7) (g : BitVec 2) (s : State) : Host.Outcome State Fault Refusal :=
  floatWord3 s 0x63 st d a b g fun x a b d => wordFl (fmtF32.ffma (modeOf x.hints) a.toNat b.toNat d.toNat)

/-- `FMIN` (R169). -/
def execFmin (st : Bool) (d a b : BitVec 7) (g : BitVec 2) (s : State) : Host.Outcome State Fault Refusal :=
  floatWord3 s 0x64 st d a b g fun _ a b _ => wordFl (fminmax false a.toNat b.toNat)

/-- `FMAX` (R169). -/
def execFmax (st : Bool) (d a b : BitVec 7) (g : BitVec 2) (s : State) : Host.Outcome State Fault Refusal :=
  floatWord3 s 0x65 st d a b g fun _ a b _ => wordFl (fminmax true a.toNat b.toNat)

/-- The predicate of `FCMP` as a pending value, and NV of a signalling NaN (R170). -/
def fcmpResult (c : Nat) (a b : Word) : Word × FFlags :=
  let x := fmtF32.decode a.toNat
  let y := fmtF32.decode b.toNat
  (if (fpCond c x y).getD false then 1#32 else 0#32, x.snan ||| y.snan)

/-- `FCMP` (R170): the codes 0xC to 0xF are reserved; the predicate is a long-class result. -/
def execFcmp (st : Bool) (c : BitVec 4) (p : BitVec 3) (a b : BitVec 7) (g : BitVec 2) (s : State) : Host.Outcome State Fault Refusal :=
  runWord s 0x66 st (fun _ => { codeOk := decide (c.toNat < 12), vregs := [(a.toNat, 1), (b.toNat, 1)] }) fun x s =>
    vectorWord s.bump x g.toNat [a.toNat, b.toNat] fun _ t =>
      let r := fcmpResult c.toNat (t.vget a.toNat) (t.vget b.toNat)
      t.long x s.nextId (trapEnables x.g) (.p p.toNat) r.1 r.2

/-- `FRCP` (R171). -/
def execFrcp (st : Bool) (d a : BitVec 7) (g : BitVec 2) (s : State) : Host.Outcome State Fault Refusal :=
  floatWord1 s 0x67 st d a g fun x a => wordFl (frcpVal (modeOf x.hints) (fmtF32.decode a.toNat))

/-- `FRSQ` (R171). -/
def execFrsq (st : Bool) (d a : BitVec 7) (g : BitVec 2) (s : State) : Host.Outcome State Fault Refusal :=
  floatWord1 s 0x68 st d a g fun x a => wordFl (frsqVal (modeOf x.hints) (fmtF32.decode a.toNat))

/-- `FEX2` (R171). -/
def execFex2 (st : Bool) (d a : BitVec 7) (g : BitVec 2) (s : State) : Host.Outcome State Fault Refusal :=
  floatWord1 s 0x69 st d a g fun x a => wordFl (fex2Val (modeOf x.hints) (fmtF32.decode a.toNat))

/-- `FLG2` (R171). -/
def execFlg2 (st : Bool) (d a : BitVec 7) (g : BitVec 2) (s : State) : Host.Outcome State Fault Refusal :=
  floatWord1 s 0x6A st d a g fun x a => wordFl (flg2Val (modeOf x.hints) (fmtF32.decode a.toNat))

/-- `FCLS` (R172). -/
def execFcls (st : Bool) (d a : BitVec 7) (g : BitVec 2) (s : State) : Host.Outcome State Fault Refusal :=
  floatWord1 s 0x6B st d a g fun _ a => (BitVec.ofNat 32 (fclsCode a.toNat), 0#5)

/-- `FRND` (R173). -/
def execFrnd (st : Bool) (d a : BitVec 7) (g : BitVec 2) (s : State) : Host.Outcome State Fault Refusal :=
  floatWord1 s 0x6C st d a g fun x a => wordFl (frndCode (modeOf x.hints) a.toNat)

/-- The packed-half format of an issue: FPST.HF as the word issues (R175). -/
def halfOf (x : Issue) : Fmt := halfFmt (x.g.fpst.getLsbD 15)

/-- `HADD2` (R175). -/
def execHadd2 (st : Bool) (d a b : BitVec 7) (g : BitVec 2) (s : State) : Host.Outcome State Fault Refusal :=
  floatWord3 s 0x6D st d a b g fun x a b d => halves (fun a b _ => (halfOf x).fadd (modeOf x.hints) a b) a b d

/-- `HMUL2` (R175). -/
def execHmul2 (st : Bool) (d a b : BitVec 7) (g : BitVec 2) (s : State) : Host.Outcome State Fault Refusal :=
  floatWord3 s 0x6E st d a b g fun x a b d => halves (fun a b _ => (halfOf x).fmul (modeOf x.hints) a b) a b d

/-- `HFMA2` (R175). -/
def execHfma2 (st : Bool) (d a b : BitVec 7) (g : BitVec 2) (s : State) : Host.Outcome State Fault Refusal :=
  floatWord3 s 0x6F st d a b g fun x a b d => halves ((halfOf x).ffma (modeOf x.hints)) a b d

/-- `a · 2^k` rounded once (R174); the magnitude is cut to the range where every further scale rounds alike. -/
def sclxCode (mode : RMode) (a b : Nat) : Nat × FFlags :=
  let v := fmtF32.decode a
  let k := max (-1024) (min 1024 (sextNat b 32))
  withFlags v.snan (fmtF32.arith mode (v.scale k))

/-- `SCLX` (R174). -/
def execSclx (st : Bool) (d a b : BitVec 7) (g : BitVec 2) (s : State) : Host.Outcome State Fault Refusal :=
  floatWord3 s 0x74 st d a b g fun x a b _ => wordFl (sclxCode (modeOf x.hints) a.toNat b.toNat)

end Sys2Proof.Machine
end

