-- ==== Sys2Proof/Machine/Hint.lean ====
section
/-!
DEFINITION. The meanings of the four hint words (R88 to R94): each adds its kind and payload to the pending hints of every thread of the issue set.
-/
namespace Sys2Proof.Machine
open Sys2Proof

/-- A hint word: a kind already pending raises detail 0x03, a reserved code 0x05 (R88, R99); otherwise every thread of the set holds the hint. -/
def hintWord (s : State) (op : Nat) (codeOk : Bool) (f : Hints → Hints) : Host.Outcome State Fault Refusal :=
  match s.issue? op false with
  | none => .fault .noIssueSet
  | some x =>
    if x.hints.holds op then .next (s.illegal x 3)
    else if !codeOk then .next (s.illegal x 5)
    else .next (s.commit x (eachLane x fun _ t => .hint (f t.hints)))

/-- `HIMM` (R91). -/
def execHimm (i : BitVec 23) (s : State) : Host.Outcome State Fault Refusal :=
  hintWord s 0x01 true fun h => { h with imm := some i }

/-- `HDEP` (R92): POL 0b11 is reserved. -/
def execHdep (k : BitVec 16) (p : BitVec 2) (b : BitVec 1) (s : State) : Host.Outcome State Fault Refusal :=
  hintWord s 0x02 (p != 3#2) fun h => { h with dep := some { mask := k, pol := p, badp := b == 1#1 } }

/-- `HMOD` (R93): the RND codes from 0b100, the CP codes from 0b101 and the SCP code 0b111 are reserved. -/
def execHmod (r : BitVec 3) (o : BitVec 1) (c : BitVec 3) (e : BitVec 3) (m : BitVec 2) (g : BitVec 1) (n : BitVec 1) (p : BitVec 3) (s : State) :
    Host.Outcome State Fault Refusal :=
  hintWord s 0x03 (decide (r.toNat < 4 ∧ c.toNat < 5 ∧ e.toNat < 7)) fun h =>
    { h with mod := some { rnd := r, ovf := o == 1#1, cp := c, scp := e, sem := m, gen := g == 1#1, gneg := n == 1#1, gp := p } }

/-- `HSCH` (R94). -/
def execHsch (p : BitVec 3) (y : BitVec 1) (s : State) : Host.Outcome State Fault Refusal :=
  hintWord s 0x04 true fun h => { h with sch := some { pri := p, yld := y == 1#1 } }

end Sys2Proof.Machine
end

