-- ==== Sys2Proof/Machine/HostEvents.lean ====
section
/-!
DEFINITION. The host's part (R36 to R43, R407, R408, R413): doorbells, the BAR2 window, MSI-X, completions of reads through the host aperture, and the host's
writes of BAR0.
-/
namespace Sys2Proof.Machine
open Sys2Proof

/-! ## Doorbells (R36 to R38) -/

/-- A doorbell dropped: logged with its slot and reason, and counted (R36, R413, R416). -/
def State.dropDoorbell (s : State) (asid slot reason : Nat) : State :=
  (s.logEvent 0x0001 asid (natLe 1 slot ++ natLe 1 reason)).count 0xFFFF asid 0 0x10A 1

/-- The reason that a write to a doorbell page is dropped as it arrives, 0 for none, in the order of R36. -/
def doorbellReason (s : State) (page off : Nat) (data : Bytes) : Nat :=
  let w := leNat data
  if data.length ≠ 8 ∨ off ≠ 0 then 3
  else match s.ctx? page with
    | none => 4
    | some c => if bitsOf w 9 7 ≠ 0 then 2 else if c.hacnt ≤ bitsOf w 0 8 then 1 else 0

/-- Step `DOORBELL` (R36): a host write to a doorbell page is checked, and queued behind the BAR2 writes before it. -/
def execDoorbell (page off : Nat) (data : Bytes) (s : State) : Host.Outcome State Fault Refusal :=
  if 512 ≤ page then .next s
  else
    let w := leNat data
    match doorbellReason s page off data with
    | 0 => .next { s with doorbells := s.doorbells ++ [{ asid := page, slot := bitsOf w 0 8, arr := bitsOf w 16 16,
                                                          byt := if bitOf w 8 then (bitsOf w 32 32 : Int) else -(bitsOf w 32 32 : Int) }] }
    | r => .next (s.dropDoorbell page (w % 256) r)

/-- The barrier that a host-arrival slot names, when its entry is valid (R37). -/
def State.slotBarrier (s : State) (c : Context) (slot : Nat) : Option Nat :=
  let w := getLe s.mem (c.hat + 16 * slot) 8
  let bar := bitsOf w 5 51 * 32
  if bitOf w 0 && bitsOf w 56 8 == 0 && bitsOf w 1 4 == 0 && getLe s.mem (c.hat + 16 * slot + 8) 8 == 0 && bar / 2 ^ 46 == s.devid && decide (bar % 2 ^ 46 < hbmEnd)
  then some (bar % 2 ^ 46) else none

/-- Step `DOORBELL_APPLY` (R37, R38): the `n`-th queued doorbell updates the barrier that its slot's entry names. BAR2 writes are performed as they occur, so
every earlier one has been. -/
def execDoorbellApply (n : Nat) (s : State) : Host.Outcome State Fault Refusal :=
  match s.doorbells[n]? with
  | none => .next s
  | some d =>
    let s := { s with doorbells := s.doorbells.eraseIdx n }
    match s.ctx? d.asid with
    | none => .next (s.dropDoorbell d.asid d.slot 4)
    | some c => match s.slotBarrier c d.slot with
      | none => .next (s.dropDoorbell d.asid d.slot 5)
      | some pa => .next ((s.applyUpdate pa { pa := pa, arr := d.arr, byt := d.byt, asid := 0x200 }).1.count 0xFFFF d.asid 0 0x109 1)

/-! ## BAR2 (R38, R41) -/

/-- The device-local address of a BAR2 offset, by the window base of the driver record, which is aligned to BAR2's size (R41). -/
def State.bar2Addr (s : State) (off : Nat) : Nat := s.box 0x1008 8 / 2 ^ s.bar2Bits * 2 ^ s.bar2Bits + off

/-- Is an extent one of BAR2 at its size (R41)? -/
def State.inBar2 (s : State) (off n : Nat) : Bool := decide (off + n ≤ 2 ^ s.bar2Bits)

/-- Step `BAR2_WRITE` (R41, R418): until the firmware runs the host link has BAR0 only. A posted write of at most 512 bytes, performed at its home; outside installed HBM it is dropped, and a lost line holds it
(R396). A write of the freed-frame ring's CONS makes room there (R412). -/
def execBar2Write (off : Nat) (data : Bytes) (s : State) : Host.Outcome State Fault Refusal :=
  let pa := s.bar2Addr off
  if s.boot != .running || data.isEmpty || decide (512 < data.length) || !s.inBar2 off data.length || decide (hbmEnd < pa + data.length) || s.lostIn pa data.length then .next s
  else .next (let s := s.homeWrite 0x200 pa data; appendFreed (s.freed.length + 1) s)

/-- Step `BAR2_READ` (R41, R418): the bytes at their homes; outside installed HBM all ones. -/
def execBar2Read (off len : Nat) (s : State) : Host.Outcome State Fault Refusal :=
  let pa := s.bar2Addr off
  if s.boot ≠ .running ∨ len = 0 ∨ 4096 < len ∨ !s.inBar2 off len ∨ s.lostIn pa len then .next s
  else .next { s with hostOut := s.hostOut ++ [.bar2 off (if hbmEnd < pa + len then List.replicate len 0xFF#8 else getBytes s.mem pa len)] }

/-! ## MSI-X (R39) -/

/-- A vector unmasked: one message when it is pending. -/
def State.unmask (s : State) (vec : Nat) : State :=
  if s.msixOpen.contains vec then s
  else
    let s := { s with msixOpen := s.msixOpen ++ [vec] }
    if s.msixPend.contains vec then State.msix { s with msixPend := s.msixPend.filter fun v => v != vec } vec else s

/-- Step `MSIX_UNMASK` (R39). -/
def execMsixUnmask (vec : Nat) (s : State) : Host.Outcome State Fault Refusal := .next (if vec < 2048 then s.unmask vec else s)

/-! ## Reads through the aperture (R43) -/

/-- An aperture read gives its bytes to the record, lane or command that asked. -/
def State.hostGives (s : State) (r : HostRead) (data : Bytes) : State :=
  if r.op = 0 then
    s.gotRead r.lane (recordKey s.devid r.pa) (some data) 0#8
  else match s.op? r.op with
    | none => s
    | some o => match o.kind with
      | .load _ _ => s.givePart r.op r.lane data
      | _ => s.putBuf r.op r.lane 0 data

/-- An aperture read that failed (R43): the lane's part or the command fails with 0x34, and the event is logged with the PCIe status. -/
def State.hostFails (s : State) (r : HostRead) (status : Nat) : State :=
  let asid := if r.op = 0 then ((s.group? r.lane).map (·.asid)).getD 0xFFFF else ((s.op? r.op).map (·.asid)).getD 0xFFFF
  let s := s.logEvent 0x000A asid (natLe 1 r.win ++ natLe 1 status)
  if r.op = 0 then
    s.gotRead r.lane (recordKey s.devid r.pa) none 0x34#8
  else match s.op? r.op with
    | none => s
    | some o => match o.kind with
      | .load _ _ => s.finishPart r.op r.lane 0x34#8
      | _ => s.failOp r.op 0x34#8

/-- Step `HOST_READ_COMPLETION` (R43): status 0 brings the data; 1 Unsupported Request, 2 Completer Abort, 3 poisoned. A completion that comes too late finds
no read. -/
def execHostReadCompletion (rid status : Nat) (data : Bytes) (s : State) : Host.Outcome State Fault Refusal :=
  match s.hostReads.find? fun r => r.rid == rid with
  | none => .next s
  | some r =>
    if 3 < status ∨ (status = 0 ∧ data.length ≠ r.len) then .next s
    else
      let s := { s with hostReads := s.hostReads.filter fun x => x.rid != rid }
      .next (if status = 0 then s.hostGives r data else s.hostFails r status)

/-- Step `HOST_READ_TIMEOUT` (R43): a read uncompleted for 10 ms fails. -/
def execHostReadTimeout (rid : Nat) (s : State) : Host.Outcome State Fault Refusal :=
  match s.hostReads.find? fun r => r.rid == rid with
  | none => .next s
  | some r =>
    if s.timeNs < r.at0 + 10000000 then .next s
    else .next (State.hostFails { s with hostReads := s.hostReads.filter fun x => x.rid != rid } r 4)

/-! ## BAR0 (R407, R408, R413, R414) -/

/-- Has system software chosen a mailbox version that Ochre accepts (R414)? -/
def State.versionOk (s : State) : Bool := s.box 0x1000 2 == 0x0100

/-- Is a request at the head of the ring, with room for its answer (R408)? -/
def State.requestHeld (s : State) : Bool := s.boot == .running && s.replies.isEmpty && s.box 0x2000 4 != s.box 0x2004 4 &&
  decide ((s.box 0x2008 4 + 2 ^ 32 - s.box 0x200C 4) % 2 ^ 32 < 1024)

/-- The request at the head of the ring. -/
def State.headRequest (s : State) : Bytes := getBytes s.mbox (0x10000 + 128 * (s.box 0x2004 4 % 1024)) 128

/-- The request at the head consumed. -/
def State.consume (s : State) : State := s.putBox 0x2004 4 ((s.box 0x2004 4 + 1) % 2 ^ 32)

/-- A request answered. -/
def State.reply (s : State) (q : Bytes) (status : Nat) (payload : Bytes) : State := s.post (fieldLe q 0 2) status (fieldLe q 4 4) (fieldLe q 8 2) payload

/-- Requests whose code is not assigned, answered as they come to the head (R409, R414). -/
def answerUnknown : Nat → State → State
  | 0, s => s
  | fuel + 1, s =>
    let q := s.headRequest
    if s.requestHeld && (fieldLe q 0 2 == 0 || decide (0x0012 < fieldLe q 0 2)) then
      answerUnknown fuel (s.consume.reply q (if s.versionOk then 5 else 4) [])
    else s

/-- May the host write a byte of BAR0: the driver record, RQP and RPC, the request ring and the MSI-X table? Every other byte of the mailbox is Ochre's or
reserved. -/
def hostWrites (a : Nat) : Bool :=
  decide ((0x1000 ≤ a ∧ a < 0x1004) ∨ (0x1008 ≤ a ∧ a < 0x1010) ∨ (0x2000 ≤ a ∧ a < 0x2004) ∨ (0x200C ≤ a ∧ a < 0x2010) ∨ (0x10000 ≤ a ∧ a < 0x30000) ∨
    (0x800000 ≤ a ∧ a < 0x808000 ∧ a % 16 < 12))

/-- One byte of a host write to BAR0: to the mailbox, to a vector's mask in the MSI-X table, or to the recovery window. -/
def State.hostByte (s : State) (a : Nat) (b : Byte) : State :=
  if 0x02000000 ≤ a ∧ a < 0x04000000 then { s with recWin := memPut s.recWin (a - 0x02000000) b }
  else if 0x800000 ≤ a ∧ a < 0x808000 ∧ a % 16 = 12 then
    let vec := (a - 0x800000) / 16
    if b.getLsbD 0 then { s with msixOpen := s.msixOpen.filter fun v => v != vec } else s.unmask vec
  else if hostWrites a then { s with mbox := memPut s.mbox a b }
  else s

/-- One byte that a host read of BAR0 gives: of the mailbox, of a vector's mask or pending bit, or of the recovery window; a doorbell page and every reserved
offset read zero (R36, R39, R41, R407; log entry 111). -/
def State.bar0Byte (s : State) (a : Nat) : Byte :=
  if 0x02000000 ≤ a ∧ a < 0x04000000 then (memGet s.recWin (a - 0x02000000))
  else if 0x800000 ≤ a ∧ a < 0x808000 ∧ a % 16 = 12 then (if s.msixOpen.contains ((a - 0x800000) / 16) then 0#8 else 1#8)
  else if 0x808000 ≤ a ∧ a < 0x808100 then
    BitVec.ofNat 8 (((List.range 8).filter fun i => s.msixPend.contains ((a - 0x808000) * 8 + i)).foldl (fun m i => m + 2 ^ i) 0)
  else if a < 0x01000000 then memGet s.mbox a
  else 0#8

/-- A host read of BAR0 (R36, R40, R41): at most 4,096 bytes. -/
def State.readBar0 (s : State) (off n : Nat) : State :=
  if n = 0 ∨ 4096 < n then s else { s with hostOut := s.hostOut ++ [.bar0 off ((List.range n).map fun i => s.bar0Byte (off + i))] }

/-- BAR2 given a size from 1 GiB to 1 TiB (R41). -/
def State.sizeBar2 (s : State) (bits : Nat) : State := if 30 ≤ bits ∧ bits ≤ 40 then { s with bar2Bits := bits } else s

/-- The bytes of a host write, in ascending address. -/
def State.hostBytes (s : State) (a : Nat) : Bytes → State
  | [] => s
  | b :: bs => (s.hostByte a b).hostBytes (a + 1) bs

/-- Step `REGISTER_WRITE` (R407, R408): a host write of BAR0 outside the doorbell pages. A raise of RPC makes room for replies. -/
def execRegisterWrite (off : Nat) (data : Bytes) (s : State) : Host.Outcome State Fault Refusal :=
  if 512 < data.length then .next s
  else
    let s := s.hostBytes off data
    .next (answerUnknown 1024 (postReplies (s.replies.length + 1) s))

end Sys2Proof.Machine
end

