-- ==== Sys2Proof/Machine/IntOps.lean ====
section
/-!
DEFINITION. The meanings of the vector integer and logic words (R126 to R132) and of the predicate words `PLOP`, `VOTE` and `VTOS` (R133 to R135).
-/
namespace Sys2Proof.Machine
open Sys2Proof

/-! ## The functions of R127 to R129 -/

/-- The high word of the signed product (R127). -/
def mulHigh (a b : Word) : Word := ((a.signExtend 64 * b.signExtend 64).extractLsb' 32 32)
/-- Left shift; a count from 32 gives 0. -/
def shlW (a b : Word) : Word := if b.toNat < 32 then a <<< b.toNat else 0#32
/-- Logical right shift; a count from 32 gives 0. -/
def shrW (a b : Word) : Word := if b.toNat < 32 then a >>> b.toNat else 0#32
/-- Arithmetic right shift; a count above 31 acts as 31. -/
def sarW (a b : Word) : Word := a.sshiftRight (min b.toNat 31)
/-- The number of 1 bits of the low `n` bits. -/
def countOnes (a : Word) : Nat → Nat
  | 0 => 0
  | n + 1 => (if a.getLsbD n then 1 else 0) + countOnes a n
/-- The number of 0 bits above the highest 1 bit of the low `n` bits. -/
def countLead (a : Word) : Nat → Nat
  | 0 => 0
  | n + 1 => if a.getLsbD n then 0 else 1 + countLead a n
/-- The bits in reverse order. -/
def revBits (a : Word) : Word := a.reverse
/-- `BFE` (R128). -/
def bfeW (a b : Word) : Word :=
  let pos := bitsOf b.toNat 0 5
  let len := min (bitsOf b.toNat 8 6) 32
  let f := a.toNat / 2 ^ pos % 2 ^ len
  if len = 0 then 0#32 else if b.getLsbD 16 then sextW f len else BitVec.ofNat 32 f
/-- `BFI` (R128). -/
def bfiW (a b d : Word) : Word :=
  let pos := bitsOf b.toNat 0 5
  let len := min (bitsOf b.toNat 8 6) 32
  let m : Word := BitVec.ofNat 32 ((2 ^ len - 1) * 2 ^ pos)
  (d &&& ~~~m) ||| (BitVec.ofNat 32 (a.toNat * 2 ^ pos) &&& m)

/-- A V3 word `vd := f a b d` of the short class (R126). -/
def intWord3 (s : State) (op : Nat) (st : Bool) (d a b : BitVec 7) (g : BitVec 2) (f : Word → Word → Word → Word) : Host.Outcome State Fault Refusal :=
  runWord s op st (fun _ => { vregs := [(d.toNat, 1), (a.toNat, 1), (b.toNat, 1)] }) fun x s =>
    vectorWord s x g.toNat [d.toNat, a.toNat, b.toNat] fun _ t => t.vset d.toNat (f (t.vget a.toNat) (t.vget b.toNat) (t.vget d.toNat))

/-- A V3 word `vd := f a` of the short class (R126). -/
def intWord1 (s : State) (op : Nat) (st : Bool) (d a : BitVec 7) (g : BitVec 2) (f : Word → Word) : Host.Outcome State Fault Refusal :=
  runWord s op st (fun _ => { vregs := [(d.toNat, 1), (a.toNat, 1)] }) fun x s =>
    vectorWord s x g.toNat [d.toNat, a.toNat] fun _ t => t.vset d.toNat (f (t.vget a.toNat))

/-- A V3 word `vd := f a b d` of the long class (R119, R127); it raises no flag. -/
def intLong3 (s : State) (op : Nat) (st : Bool) (d a b : BitVec 7) (g : BitVec 2) (f : Word → Word → Word → Word) : Host.Outcome State Fault Refusal :=
  runWord s op st (fun _ => { vregs := [(d.toNat, 1), (a.toNat, 1), (b.toNat, 1)] }) fun x s =>
    longWord s x g.toNat [d.toNat, a.toNat, b.toNat] d.toNat fun _ t => (f (t.vget a.toNat) (t.vget b.toNat) (t.vget d.toNat), 0#5)

/-- `IADD` (R127). -/
def execIadd (st : Bool) (d a b : BitVec 7) (g : BitVec 2) (s : State) : Host.Outcome State Fault Refusal :=
  intWord3 s 0x30 st d a b g fun a b _ => a + b

/-- `ISUB` (R127). -/
def execIsub (st : Bool) (d a b : BitVec 7) (g : BitVec 2) (s : State) : Host.Outcome State Fault Refusal :=
  intWord3 s 0x31 st d a b g fun a b _ => a - b

/-- `IMUL` (R127). -/
def execImul (st : Bool) (d a b : BitVec 7) (g : BitVec 2) (s : State) : Host.Outcome State Fault Refusal :=
  intLong3 s 0x32 st d a b g fun a b _ => a * b

/-- `IMULH` (R127). -/
def execImulh (st : Bool) (d a b : BitVec 7) (g : BitVec 2) (s : State) : Host.Outcome State Fault Refusal :=
  intLong3 s 0x33 st d a b g fun a b _ => mulHigh a b

/-- `IMAD` (R127). -/
def execImad (st : Bool) (d a b : BitVec 7) (g : BitVec 2) (s : State) : Host.Outcome State Fault Refusal :=
  intLong3 s 0x34 st d a b g fun a b d => a * b + d

/-- `IMIN` (R127). -/
def execImin (st : Bool) (d a b : BitVec 7) (g : BitVec 2) (s : State) : Host.Outcome State Fault Refusal :=
  intWord3 s 0x35 st d a b g fun a b _ => if a.slt b then a else b

/-- `IMAX` (R127). -/
def execImax (st : Bool) (d a b : BitVec 7) (g : BitVec 2) (s : State) : Host.Outcome State Fault Refusal :=
  intWord3 s 0x36 st d a b g fun a b _ => if b.slt a then a else b

/-- `IABS` (R127). -/
def execIabs (st : Bool) (d a : BitVec 7) (g : BitVec 2) (s : State) : Host.Outcome State Fault Refusal :=
  intWord1 s 0x37 st d a g fun a => if a.msb then -a else a

/-- `INEG` (R127). -/
def execIneg (st : Bool) (d a : BitVec 7) (g : BitVec 2) (s : State) : Host.Outcome State Fault Refusal :=
  intWord1 s 0x38 st d a g fun a => -a

/-- `AND` (R127). -/
def execAnd (st : Bool) (d a b : BitVec 7) (g : BitVec 2) (s : State) : Host.Outcome State Fault Refusal :=
  intWord3 s 0x39 st d a b g fun a b _ => a &&& b

/-- `OR` (R127). -/
def execOr (st : Bool) (d a b : BitVec 7) (g : BitVec 2) (s : State) : Host.Outcome State Fault Refusal :=
  intWord3 s 0x3A st d a b g fun a b _ => a ||| b

/-- `XOR` (R127). -/
def execXor (st : Bool) (d a b : BitVec 7) (g : BitVec 2) (s : State) : Host.Outcome State Fault Refusal :=
  intWord3 s 0x3B st d a b g fun a b _ => a ^^^ b

/-- `NOT` (R127). -/
def execNot (st : Bool) (d a : BitVec 7) (g : BitVec 2) (s : State) : Host.Outcome State Fault Refusal :=
  intWord1 s 0x3C st d a g fun a => ~~~a

/-- `SHL` (R127). -/
def execShl (st : Bool) (d a b : BitVec 7) (g : BitVec 2) (s : State) : Host.Outcome State Fault Refusal :=
  intWord3 s 0x3D st d a b g fun a b _ => shlW a b

/-- `SHR` (R127). -/
def execShr (st : Bool) (d a b : BitVec 7) (g : BitVec 2) (s : State) : Host.Outcome State Fault Refusal :=
  intWord3 s 0x3E st d a b g fun a b _ => shrW a b

/-- `SAR` (R127). -/
def execSar (st : Bool) (d a b : BitVec 7) (g : BitVec 2) (s : State) : Host.Outcome State Fault Refusal :=
  intWord3 s 0x3F st d a b g fun a b _ => sarW a b

/-- `POPC` (R127). -/
def execPopc (st : Bool) (d a : BitVec 7) (g : BitVec 2) (s : State) : Host.Outcome State Fault Refusal :=
  intWord1 s 0x40 st d a g fun a => BitVec.ofNat 32 (countOnes a 32)

/-- `CLZ` (R127). -/
def execClz (st : Bool) (d a : BitVec 7) (g : BitVec 2) (s : State) : Host.Outcome State Fault Refusal :=
  intWord1 s 0x41 st d a g fun a => BitVec.ofNat 32 (countLead a 32)

/-- `BREV` (R127). -/
def execBrev (st : Bool) (d a : BitVec 7) (g : BitVec 2) (s : State) : Host.Outcome State Fault Refusal :=
  intWord1 s 0x42 st d a g fun a => revBits a

/-- `BFE` (R128). -/
def execBfe (st : Bool) (d a b : BitVec 7) (g : BitVec 2) (s : State) : Host.Outcome State Fault Refusal :=
  intWord3 s 0x43 st d a b g fun a b _ => bfeW a b

/-- `BFI` (R128). -/
def execBfi (st : Bool) (d a b : BitVec 7) (g : BitVec 2) (s : State) : Host.Outcome State Fault Refusal :=
  intWord3 s 0x44 st d a b g fun a b d => bfiW a b d

/-- `MOV` (R127). -/
def execMov (st : Bool) (d a : BitVec 7) (g : BitVec 2) (s : State) : Host.Outcome State Fault Refusal :=
  intWord1 s 0x46 st d a g fun a => a

/-- `SEL` (R130): selector code 0b00 is reserved unless GEN replaces the selector; every thread of the issue set writes. -/
def execSel (st : Bool) (d a b : BitVec 7) (p : BitVec 2) (s : State) : Host.Outcome State Fault Refusal :=
  runWord s 0x45 st (fun x => { codeOk := p != 0#2 || (modOf x.hints).gen, vregs := [(d.toNat, 1), (a.toNat, 1), (b.toNat, 1)] }) fun x s =>
    s.commit x (eachLane x fun l t => whenFree s x l [d.toNat, a.toNat, b.toNat]
      (.go (t.vset d.toNat (if takesPart x.hints p.toNat t then t.vget a.toNat else t.vget b.toNat)) (.fall x.pc)))

/-- A compare's predicate write (R132): pd takes the condition; a reserved condition has none. -/
def setCond (t : Thread) (p : Nat) (c : Option Bool) : Thread := t.pset p (c.getD false)

/-- `ICMP` (R132): the codes from 0xA are reserved. -/
def execIcmp (st : Bool) (c : BitVec 4) (p : BitVec 3) (a b : BitVec 7) (g : BitVec 2) (s : State) : Host.Outcome State Fault Refusal :=
  runWord s 0x47 st (fun _ => { codeOk := decide (c.toNat < 10), vregs := [(a.toNat, 1), (b.toNat, 1)] }) fun x s =>
    vectorWord s x g.toNat [a.toNat, b.toNat] fun _ t => setCond t p.toNat (intCond c.toNat (t.vget a.toNat) (t.vget b.toNat))

/-- `LEA` (R129): the pair at vd takes the pair at va plus the sign-extended vb. -/
def execLea (st : Bool) (d a b : BitVec 7) (g : BitVec 2) (s : State) : Host.Outcome State Fault Refusal :=
  runWord s 0x48 st (fun _ => { vregs := [(d.toNat, 2), (a.toNat, 2), (b.toNat, 1)] }) fun x s =>
    vectorWord s x g.toNat (regRun d.toNat 2 ++ regRun a.toNat 2 ++ [b.toNat]) fun _ t =>
      let r : DWord := BitVec.ofNat 64 (t.vpair a.toNat) + (t.vget b.toNat).signExtend 64
      (t.vset d.toNat (r.setWidth 32)).vset (d.toNat + 1) (r.extractLsb' 32 32)

/-- `IADD` with an immediate (R131). -/
def execIaddImm (st : Bool) (d a : BitVec 7) (i : BitVec 9) (s : State) : Host.Outcome State Fault Refusal :=
  runWord s 0x49 st (fun _ => { vregs := [(d.toNat, 1), (a.toNat, 1)] }) fun x s =>
    vectorWord s x 0 [d.toNat, a.toNat] fun _ t => t.vset d.toNat (t.vget a.toNat + imm9Of x.hints i)

/-- `SHL` with an immediate (R131). -/
def execShlImm (st : Bool) (d a : BitVec 7) (n : BitVec 5) (s : State) : Host.Outcome State Fault Refusal :=
  runWord s 0x4A st (fun _ => { vregs := [(d.toNat, 1), (a.toNat, 1)] }) fun x s =>
    vectorWord s x 0 [d.toNat, a.toNat] fun _ t => t.vset d.toNat (t.vget a.toNat <<< n.toNat)

/-- `ICMP` with an immediate (R132). -/
def execIcmpImm (st : Bool) (c : BitVec 4) (p : BitVec 3) (a : BitVec 7) (i : BitVec 9) (s : State) : Host.Outcome State Fault Refusal :=
  runWord s 0x4B st (fun _ => { codeOk := decide (c.toNat < 10), vregs := [(a.toNat, 1)] }) fun x s =>
    vectorWord s x 0 [a.toNat] fun _ t => setCond t p.toNat (intCond c.toNat (t.vget a.toNat) (imm9Of x.hints i))

/-- `MOVI` (R131): under `HIMM`, IMM[22:16] must be zero (R91). -/
def execMovi (st : Bool) (d : BitVec 7) (i : BitVec 16) (s : State) : Host.Outcome State Fault Refusal :=
  runWord s 0x4C st (fun x => { codeOk := (x.hints.imm.map fun m => decide (m.toNat < 2 ^ 16)).getD true, vregs := [(d.toNat, 1)] }) fun x s =>
    vectorWord s x 0 [d.toNat] fun _ t => t.vset d.toNat (imm16Of x.hints i)

/-- `IADD` with a scalar operand (R131). -/
def execIaddScalar (st : Bool) (d a : BitVec 7) (b : BitVec 8) (g : BitVec 1) (s : State) : Host.Outcome State Fault Refusal :=
  runWord s 0x4D st (fun _ => { sregs := [(b.toNat, 1)], vregs := [(d.toNat, 1), (a.toNat, 1)] }) fun x s =>
    vectorWord s x g.toNat [d.toNat, a.toNat] fun _ t => t.vset d.toNat (t.vget a.toNat + x.g.sget b.toNat)

/-- `MOV` of a scalar operand (R131). -/
def execMovScalar (st : Bool) (d : BitVec 7) (b : BitVec 8) (g : BitVec 1) (s : State) : Host.Outcome State Fault Refusal :=
  runWord s 0x4E st (fun _ => { sregs := [(b.toNat, 1)], vregs := [(d.toNat, 1)] }) fun x s =>
    vectorWord s x g.toNat [d.toNat] fun _ t => t.vset d.toNat (x.g.sget b.toNat)

/-- The bit of a truth table that two predicate bits select (R133). -/
def tableBit (f : BitVec 4) (a b : Bool) : Bool := f.getLsbD (2 * a.toNat + b.toNat)

/-- `PLOP` (R133): on `p` registers per guard-true thread, or once on the group's `q` registers. -/
def execPlop (st : Bool) (f : BitVec 4) (p : BitVec 3) (q : BitVec 1) (a b : BitVec 3) (g : BitVec 2) (s : State) : Host.Outcome State Fault Refusal :=
  runWord s 0x24 st (fun _ => { codeOk := q == 0#1 || (g == 0#2 && decide (p.toNat < 4 ∧ a.toNat < 4 ∧ b.toNat < 4)) }) fun x s =>
    if q == 1#1 then scalarWord s x fun g => g.qset p.toNat (tableBit f (g.qget a.toNat) (g.qget b.toNat))
    else vectorWord s x g.toNat [] fun _ t => t.pset p.toNat (tableBit f (t.pget a.toNat) (t.pget b.toNat))

/-- `VOTE` (R134): mode 0b11 is reserved; any and all write `q`, ballot writes vd of the threads that take part. -/
def execVote (st : Bool) (d : BitVec 7) (m : BitVec 2) (p : BitVec 3) (g : BitVec 2) (s : State) : Host.Outcome State Fault Refusal :=
  runWord s 0x25 st (fun _ => { codeOk := m == 2#2 || (m != 3#2 && decide (d.toNat < 4)),
                                vregs := if m == 2#2 then [(d.toNat, 1)] else [] }) fun x s =>
    if m == 2#2 then
      let yes := (partLanes s x g.toNat [d.toNat]).filter fun l => (x.g.thread l).pget p.toNat
      vectorWord s x g.toNat [d.toNat] fun _ t => t.vset d.toNat (laneMask yes)
    else
      let part := partLanes s x g.toNat []
      let vote := if m == 0#2 then part.any fun l => (x.g.thread l).pget p.toNat else part.all fun l => (x.g.thread l).pget p.toNat
      scalarWord s x fun g => g.qset d.toNat vote

/-- `VTOS` (R135): the named lane's register goes to a scalar register; while a token of that lane is to write it, the whole set parks. -/
def execVtos (st : Bool) (l : BitVec 5) (a : BitVec 7) (d : BitVec 8) (s : State) : Host.Outcome State Fault Refusal :=
  runWord s 0x26 st (fun _ => { sregs := [(d.toNat, 1)], vregs := [(a.toNat, 1)] }) fun x s =>
    match trackers s x.g.uid l.toNat a.toNat with
    | [] => scalarWord s x fun g => g.sset d.toNat ((x.g.thread l.toNat).vget a.toNat)
    | ids => s.commit x (allPark x .tokenTarget (.ops ids))

end Sys2Proof.Machine
end

