-- ==== Sys2Proof/Machine/IssueEvents.lean ====
section
/-!
DEFINITION. The steps of a core around its issues: a long-class result lands (R121, R123, R160), the starvation guards of R12 and R115, entry to the trap
handler after its wait (R368), an illegal instruction (R99), and a fetch ahead of issue (R100).
-/
namespace Sys2Proof.Machine
open Sys2Proof

/-- The results of one word, marked as landed: a word's results land together, some cycles after its last beat (R116). -/
def landWord (wid : Nat) (t : Thread) : Thread :=
  { t with pend := mapIf (fun (p : Pending) => p.wid == wid) (fun p => { p with landed := true }) t.pend }

/-- Does a thread wait in a settle park with nothing left to land (R123)? -/
def settles (t : Thread) : Bool := t.st == .parked .settle && t.pend.all fun p => p.landed

/-- A thread whose results have all landed goes on from a settle park: past its settle word, where a forced save stops it (R384); before its `SYSRD` it
stays parked until no other thread of its issue set holds a pending result (R160), unless a forced save stops it there. -/
def settled (full : Bool) (t : Thread) : Thread :=
  if full then { t with st := .runnable, wake := .none, stopped := t.stopped.or (some 0xFFFFFFFF) }
  else if t.wake == .settle then { t with st := .runnable, wake := .none } else t

/-- The segment of a thread parked with reason "settle" closes (R123, R160): the thread goes on, or takes the arithmetic trap of its segment. -/
def State.closeSettle (s : State) (g : Group) (lane : Nat) : State :=
  let full := (((s.team? g.team).bind fun t => t.stop).map fun o => o.full || g.full).getD false
  match closeSegment g (g.thread lane) with
  | (g, t, none) => s.setGroup (g.setThread lane (settled full t))
  | (g, t, some a) =>
    s.applyRes (s.issueOf g [lane]) g [(lane, .trapped { t with st := .runnable, wake := .none, stopped := none } (arithReq a t.pc))]

/-- The settle parks of a group's threads end where nothing is left to land, in ascending lane order. -/
def closeSettled (u : Nat) : List Nat → State → State
  | [], s => s
  | lane :: ls, s => closeSettled u ls (match s.group? u with
    | some g => if settles (g.thread lane) then s.closeSettle g lane else s
    | none => s)

/-- Step `LONG_RESULT_LAND` (R116, R121, R123, R160): the word whose result is the thread's oldest that has not landed lands, for every thread that it was
issued for; a settle park whose last result this is ends. -/
def execLongResultLand (u lane : Nat) (s : State) : Host.Outcome State Fault Refusal :=
  match s.group? u with
  | none => .next s
  | some g => match (g.thread lane).pend.find? fun p => !p.landed with
    | none => if settles (g.thread lane) then .next (countParks g [] laneList (s.closeSettle g lane)) else .next s
    | some p => .next (countParks g [] laneList (closeSettled u laneList (s.setGroup { g with threads := g.threads.map (landWord p.wid) })))

/-- Step `THREAD_STARVED` (R115): a RUNNABLE thread whose count has reached 1,024 is starved. -/
def execThreadStarved (u lane : Nat) (s : State) : Host.Outcome State Fault Refusal :=
  .next (s.modGroup u fun g =>
    let t := g.thread lane
    if t.issues && decide (1024 ≤ t.starve) then g.setThread lane { t with starved := true } else g)

/-- Step `GROUP_STARVATION_GUARD` (R12): a resident group that has a runnable thread and has had no slot for 4,096 cycles is owed its partition's next. -/
def execGroupStarvationGuard (u : Nat) (s : State) : Host.Outcome State Fault Refusal :=
  .next (s.modGroup u fun g =>
    if g.resident && !g.finished && !(issuable g).isEmpty && decide (4096 ≤ sinceIssue s g) then { g with owed := true } else g)

/-- Step `TRAP_ENTRY` (R368): the operations that target `v0` or `v1` of a thread that has taken a trap have finished, and the thread enters its
handler. -/
def execTrapEntry (u lane : Nat) (s : State) : Host.Outcome State Fault Refusal :=
  match s.group? u with
  | none => .next s
  | some g =>
    match (g.thread lane).trap, (s.groupCode g).trap with
    | some r, some h =>
      if g.resident && (g.thread lane).stopped.isNone && (trackers s u lane 0 ++ trackers s u lane 1).isEmpty then 
        .next (s.enter g lane (g.thread lane) r h)
      else .next s
    | _, _ => .next s

/-- `ILLEGAL_INSTRUCTION` (R99): the word that the selected issue has fetched is illegal, and every thread of the set takes the trap. -/
def execIllegalInstruction (detail : Nat) (s : State) : Host.Outcome State Fault Refusal :=
  match s.issue? 0 false with
  | none => .fault .noIssueSet
  | some x =>
    let op := match fetchWord s x with
      | .word w => opcodeOf w
      | _ => 0
    .next (s.illegal { x with op := BitVec.ofNat 8 op } detail)

/-- The entry by which a word may be fetched ahead: with EX and A, not in migration (R100). -/
def aheadEntry (s : State) (g : Group) (va : Nat) : Option Tlb :=
  let ok := fun (t : Tlb) => t.ex && t.a && !t.mig
  match s.tlb? (clusterOf g.core) g.asid va with
  | some t => if ok t then some t else none
  | none => (s.xlate g.asid va rightsEx).filter ok

/-- Step `RUN_AHEAD_FETCH` (R100): a word up to 16 beyond the next is fetched along the path that goes straight on. Its only traces are the caches and
TLBs that it fills and the counts of R416: one that lies beyond the code, or whose fetch may not go on, counts as discarded (log entry 153); one that is
fetched is discarded when the group's path leaves it. -/
def execRunAheadFetch (u n : Nat) (s : State) : Host.Outcome State Fault Refusal :=
  match s.group? u with
  | none => .next s
  | some g =>
    match s.launch? g.launch, issueSet g with
    | some l, lane :: _ =>
      let img := s.groupCode g
      let pc := (g.thread lane).pc.toNat + 4 * n
      let va := img.va + img.codeOff + pc
      if n = 0 ∨ 16 < n ∨ !g.resident ∨ pc ∈ g.ahead then .next s
      else match if pc < img.codeLen && s.leased l rightsEx va 4 then aheadEntry s g va else none with
        | some t =>
          .next (((s.fillTlb { t with unit := clusterOf g.core }).modGroup u fun g => { g with ahead := g.ahead ++ [pc] }).count g.core g.asid g.team 0x040 1)
        | none => .next (s.count g.core g.asid g.team 0x041 1)
    | _, _ => .next s

end Sys2Proof.Machine
end

