-- ==== Sys2Proof/Machine/PowerEvents.lean ====
section
/-!
DEFINITION. Boot, power and heat (R418 to R424): reset, recovery, clock steps, the thermal limit and the thermal shutdown.
-/
namespace Sys2Proof.Machine
open Sys2Proof

/-! ## Boot (R305, R413, R418 to R422) -/

/-- An image checked as the boot ROM does (R418), or the number of the check that fails: 1 it is missing or its header is bad, 2 its security version is
below the floor, 3 its key is not the one in fuses, 4 its signature does not verify. -/
def State.checkImage (s : State) (region : Bytes) : Except Nat Config.BootImage :=
  match Config.bootImage region with
  | none => .error 1
  | some i =>
    if i.svn < s.floor then .error 2
    else if i.key.length ≠ 32 ∨ sha256 i.key ≠ Config.keyDigest then .error 3
    else if i.sig.length ≠ 7856 ∨ !Config.slhVerify i.key i.signed i.sig then .error 4
    else .ok i

/-- Is the configuration record accepted (R414, R422)? -/
def State.recordOk (s : State) (r : Config.CfgRecord) : Bool :=
  r.version == 0x0100 && decide (s.cfgCount < r.counter ∧ r.counter < 2 ^ 32) && sha256 r.key == Config.operatorDigest && Config.slhVerify r.key r.signed r.sig &&
  decide (r.devid ≤ 992) && r.ports.all (fun p => decide (p < 32)) && decide (r.tpod < 2 ^ 20) && r.pthr.length == 7 && r.pthr.all (fun t => decide (t < 2 ^ 20)) &&
  decide (r.wdsave < 2 ^ 20) && decide (1000 ≤ r.limit ∧ r.limit ≤ 3000)

/-- The configuration record taken, or ignored: the device then runs with ID 0 and every port down (R422). -/
def State.configure (s : State) : State := match Config.cfgRecord s.cfgRec with
  | none => s
  | some r =>
    if s.recordOk r then
      { s with devid := r.devid, ports := (List.range 32).filterMap fun i => if r.ports.contains i then some { idx := i } else none
               tpod := r.tpod, adth := r.adth, pthr := 0xFFFFF :: r.pthr, wdsave := r.wdsave, limitW := r.limit, cfgOk := true, cfgCount := r.counter }
    else s

/-- The identity record (R413). -/
def State.identity (s : State) : State :=
  let bs := natLe 4 0x49444E48 ++ natLe 2 s.devid ++ natLe 2 ((if s.cfgOk then 1 else 0) + (if s.viaRecovery then 2 else 0)) ++ natLe 4 0x01000100 ++
    natLe 2 0x0100 ++ natLe 2 0x0100 ++ natLe 2 0x0100 ++ natLe 2 0x0100 ++ natLe 4 s.svn ++ natLe 8 hbmEnd ++ natLe 4 s.epoch.toNat
  { s with mbox := putBytes s.mbox 0 bs }

/-- The firmware of a verified image starts (R418). -/
def State.startFirmware (s : State) (i : Config.BootImage) (recovered : Bool) : State :=
  (State.configure { s with boot := .running, svn := i.svn, measure := sha256 i.bytes, viaRecovery := recovered }).identity

/-- A status code of 4 bytes written into the recovery window (R419; log entry 120). -/
def State.putStatus (s : State) (code : Nat) : State := { s with recWin := putBytes s.recWin (Config.recoveryPlace % (2 ^ 25 - 3)) (natLe 4 code) }

/-- The ROM runs an image of a region, or goes into recovery with a status code (R418, R419). -/
def State.tryImage (s : State) (region : Bytes) (recovered : Bool) : State := match s.checkImage region with
  | .ok i => s.startFirmware i recovered
  | .error e => State.putStatus { s with boot := .recovery } (Config.recoveryCode e)

/-- The device as a reset leaves it: everything at its reset value but what flash and fuses hold (R305, R420, R422), and the model's own agenda. -/
def State.afterReset (s : State) : State :=
  { State.reset with agenda := s.agenda, flash := s.flash, cfgRec := s.cfgRec, floor := s.floor, cfgCount := s.cfgCount, epoch := s.epoch }

/-- Step `DEVICE_RESET` (R305, R418): the boot ROM raises the epoch, and verifies and starts the firmware in flash, or enters recovery. -/
def execDeviceReset (s : State) : Host.Outcome State Fault Refusal :=
  let s := s.afterReset
  .next (State.tryImage { s with epoch := s.epoch + 1#32 } s.flash false)

/-- Step `RECOVERY_GO` (R419): the image in the recovery window, of at most 32 MiB. -/
def execRecoveryGo (s : State) : Host.Outcome State Fault Refusal :=
  if s.boot != .recovery then .next s else .next (s.tryImage (getBytes s.recWin 0 (2 ^ 25)) true)

/-! ## Clocks and heat (R424) -/

/-- The state with a die changed. -/
def State.modDie (s : State) (d : Nat) (f : Die → Die) : State := if d = 0 then { s with die0 := f s.die0 } else { s with die1 := f s.die1 }

/-- Step `CLOCK_STEP_DOWN` (R424): over the power limit or at 95 °C, one step of 100 MHz every 10 µs, down to 1.0 GHz. -/
def execClockStepDown (die : Nat) (s : State) : Host.Outcome State Fault Refusal :=
  let d := s.die die
  if 2 ≤ die || !(decide (s.limitW < s.pwr) || decide (95 ≤ d.temp)) || decide (s.timeNs < d.steppedAt + 10000) then .next s
  else .next (s.modDie die fun d => { d with clk := max 10 (d.clk - 1), limited := true, steppedAt := s.timeNs })

/-- Step `CLOCK_STEP_UP` (R424): with both causes cleared, the sensor back at 92 °C, one step every 100 µs, up to 3.3 GHz. -/
def execClockStepUp (die : Nat) (s : State) : Host.Outcome State Fault Refusal :=
  let d := s.die die
  if 2 ≤ die || decide (s.limitW < s.pwr) || decide (92 < d.temp) || d.hold || decide (s.timeNs < d.steppedAt + 100000) || decide (33 ≤ d.clk) then .next s
  else .next (s.modDie die fun d => { d with clk := d.clk + 1, limited := false, steppedAt := s.timeNs })

/-- Step `THERMAL_LIMIT` (R424): at 105 °C a die holds its floor and limits its matrix duty. -/
def execThermalLimit (die : Nat) (s : State) : Host.Outcome State Fault Refusal :=
  let d := s.die die
  if 2 ≤ die || d.hold || decide (d.temp < 105) then .next s
  else .next (s.modDie die fun d => { d with clk := 10, limited := true, hold := true, steppedAt := s.timeNs })

/-- Step `THERMAL_LIMIT_CLEAR` (R424): below 105 °C the limit and the hold end. -/
def execThermalLimitClear (die : Nat) (s : State) : Host.Outcome State Fault Refusal :=
  let d := s.die die
  if 2 ≤ die || !d.hold || decide (105 ≤ d.temp) then .next s else .next (s.modDie die fun d => { d with hold := false })

/-- Step `THERMAL_SHUTDOWN` (R424): at 115 °C the package removes its own power. The device is then as before its reset, every context lost. -/
def execThermalShutdown (s : State) : Host.Outcome State Fault Refusal :=
  if s.die0.temp < 115 ∧ s.die1.temp < 115 then .next s else .next s.afterReset

end Sys2Proof.Machine
end

