-- ==== Sys2Proof/Machine/MailEvents.lean ====
section
/-!
DEFINITION. The requests of the management mailbox (R407 to R412): each is taken from the head of the ring, checked, carried out and answered.
-/
namespace Sys2Proof.Machine
open Sys2Proof

/-! ## Serving a request (R407 to R409, R414) -/

/-- How a request is served: done with a reply payload; refused with a status and a payload; answered later; or not taken yet. -/
inductive Served where
  | done (s : State) (payload : Bytes)
  | no (status : Nat) (payload : Bytes)
  | later (s : State)
  | hold
  deriving Repr

/-- A field of a request's payload. -/
def reqField (q : Bytes) (off n : Nat) : Nat := fieldLe q (16 + off) n

/-- Are the bytes of a request's payload outside the listed fields zero? -/
def restZero (q : Bytes) (used : List (Nat × Nat)) : Bool :=
  (List.range 112).all fun i => used.any (fun u => decide (u.1 ≤ i ∧ i < u.1 + u.2)) || q.getD (16 + i) 0#8 == 0#8

/-- The status of a request found before its payload is read: 4 VERSION, 2 INVALID, 3 NOTLIVE, or 0. -/
def requestStatus (s : State) (q : Bytes) (needs : Bool) (used : List (Nat × Nat)) : Nat :=
  let asid := fieldLe q 8 2
  if !s.versionOk then 4
  else if fieldLe q 2 2 ≠ 0 ∨ fieldLe q 10 6 ≠ 0 ∨ (512 ≤ asid ∧ asid ≠ 0xFFFF) ∨ (needs ∧ asid = 0xFFFF) then 2
  else if asid ≠ 0xFFFF ∧ (s.ctx? asid).isNone then 3
  else if !restZero q used then 2
  else 0

/-- A request of a code served when it stands at the head of the ring: consumed, carried out, and answered, at once or later. A request whose status is
not DONE has no effect. -/
def serve (s : State) (opc : Nat) (needs : Bool) (used : List (Nat × Nat)) (f : Bytes → State → Served) : Host.Outcome State Fault Refusal :=
  let q := s.headRequest
  if !s.requestHeld || fieldLe q 0 2 != opc then .next s
  else match requestStatus s q needs used with
    | 0 => match f q s.consume with
      | .done t p => .next (answerUnknown 1024 (t.reply q 0 p))
      | .no st p => .next (answerUnknown 1024 (s.consume.reply q st p))
      | .later t => .next (answerUnknown 1024 t)
      | .hold => .next s
    | st => .next (answerUnknown 1024 (s.consume.reply q st []))

/-- The context that a request names. -/
def reqAsid (q : Bytes) : Nat := fieldLe q 8 2

/-- The device-local address of an extent of this device's HBM, by its physical address (R45, R46). -/
def State.ownExtent (s : State) (a n : Nat) : Option Nat :=
  if a / 2 ^ 46 = s.devid ∧ a % 2 ^ 46 + n ≤ hbmEnd then some (a % 2 ^ 46) else none

/-! ## Contexts (R31 to R33, R392, R405, R411) -/

/-- Is a creation block valid (R411)? -/
def State.blockOk (s : State) (b : Bytes) : Bool :=
  (s.ownExtent (fieldLe b 0 8) 131072).isSome && fieldLe b 0 8 % 131072 == 0 && (s.ownExtent (fieldLe b 0x10 8) (16 * fieldLe b 0x18 2)).isSome &&
  fieldLe b 0x10 8 % 16 == 0 && decide (fieldLe b 0x18 2 ≤ 256) && decide (fieldLe b 0x1A 2 ≤ 2047) && decide (fieldLe b 0x1C 1 ≤ 47) &&
  decide (1 ≤ fieldLe b 0x1D 1) && decide (1 ≤ fieldLe b 0x1E 1 ∧ fieldLe b 0x1E 1 ≤ 16) && zeroed b 0x1F 33 && zeroed b 0xC0 64 &&
  (List.range (min 16 (fieldLe b 0x1E 1))).all fun i => rangeOk (fieldLe b (0x40 + 8 * i) 8)

/-- The control team's launch of a new context, its image to be read (R33). -/
def controlLaunch (b : Bytes) (asid uid op : Nat) : Launch :=
  let va := fieldLe b 8 8
  { uid := uid, asid := asid, op := op, isCtrl := true, die := fieldLe b 0x1C 1 / 24, phase := .reading, recd := natLe 8 0 ++ natLe 8 va ++ natLe 240 0
    ranges := (List.range (min 16 (fieldLe b 0x1E 1))).map fun i => rangeOf (fieldLe b (0x40 + 8 * i) 8)
    toPin := [{ rd := false, wr := false, ex := false, lo := va, hi := va + 64 }] }

/-- A context created, its control team's launch under way (R31, R33). -/
def State.newContext (s : State) (q b : Bytes) (asid fring : Nat) : State :=
  let uid := s.nextId
  let o : Op := { id := uid + 1, asid := asid, launch := uid, team := 0, grp := 0, kd := 0, bound := false, seq := 0, kind := .launch uid, started := true, stage := 1 }
  let c : Context := { asid := asid, root := fieldLe b 0 8, cimg := fieldLe b 8 8, hat := fieldLe b 0x10 8 % 2 ^ 46, hacnt := fieldLe b 0x18 2, vec := fieldLe b 0x1A 2
                       clu := fieldLe b 0x1C 1, weight := fieldLe b 0x1D 1, ages := List.replicate 16 0xFFFFFFFF#32, ring := { addr := fring }
                       busyAt := s.timeNs, creating := some q }
  { s with nextId := uid + 2, contexts := s.contexts ++ [c], launches := s.launches ++ [controlLaunch b asid uid (uid + 1)], ops := s.ops ++ [o]
           mem := clearRange s.mem fring 65536 }

/-- The room of a core for a control team: a new one has no save area yet (R386). -/
def State.controlClaim (s : State) (y : Launch) (core : Nat) : Option Claim :=
  if (s.savedTeam? y.uid).isSome then s.claimOn y core []
  else (fitOn (s.claimed core []) (s.freshImage y 0)).map fun f => { launch := y.uid, team := 0, core := core, img := s.freshImage y 0, fit := f, save := 0 }

/-- The room that a context's control team takes, and whether the rotation was used, the preferred cluster having none (R33). -/
def State.controlCore (s : State) (c : Context) (y : Launch) : Option (Claim × Bool) :=
  match (List.range 4).findSome? fun i => s.controlClaim y (c.clu * 4 + i) with
  | some x => some (x, false)
  | none => ((rotationCores (s.dist (c.clu / 24)).rotation).findSome? fun k => s.controlClaim y k).map fun x => (x, true)

/-- The rotation pointer moved by a placement of a control team that used the rotation. -/
def State.usedRotation (s : State) (c : Context) (core : Nat) (used : Bool) : State :=
  if used then s.modDist (c.clu / 24) fun d => { d with rotation := (rotationOf core + 1) % 48 } else s

/-- The second occurrence of `CREATE`: the control team, its lease in place, is placed, and the request answered (R33, R410, R411). -/
def State.placeControl (s : State) (c : Context) (q : Bytes) : State :=
  match s.launches.find? fun l => l.asid == c.asid && l.isCtrl && l.phase == .ready && l.next == 0 && l.ended.isNone with
  | none => s
  | some l => if !s.imageHere l then s.askImage l else match s.controlCore c l with
    | none => s.refuseCreate l
    | some (x, used) =>
      let s := (s.restStarved.placeNext x).usedRotation c x.core used
      (s.modCtx c.asid fun c => { c with creating := none }).reply q 0 (natLe 2 c.asid ++ natLe 6 0 ++ natLe 8 (s.physOf c.ring.addr))

/-- Step `CREATE` (R31, R33, R411). Ochre's choices are the ASID and the place of the fault ring. The step occurs twice: first the request is taken and the
control image is read as any launch's; then the control team is placed. -/
def execCreate (asid fring : Nat) (s : State) : Host.Outcome State Fault Refusal :=
  match (s.ctx? asid).bind fun c => c.creating.map fun q => (c, q) with
  | some (c, q) => .next (s.placeControl c q)
  | none => serve s 0x0001 false [(0, 8)] fun q t =>
    match s.ownExtent (reqField q 0 8) 256 with
    | none => .no 2 []
    | some pa =>
      let b := getBytes s.mem pa 256
      if reqField q 0 8 % 256 ≠ 0 ∨ !s.blockOk b then .no 2 []
      else if 512 ≤ s.contexts.length ∨ fieldLe b 8 8 % 256 ≠ 0 then .no 1 []
      else if 512 ≤ asid ∨ (s.ctx? asid).isSome ∨ fring % 64 ≠ 0 ∨ hbmEnd < fring + 65536 then .hold
      else .later (t.newContext q b asid fring)

/-- Failed launches that still wait for the page of their DONEB: the teardown removes them (R54), and they report on their tokens. -/
def dropFailed : List Launch → State → State
  | [], s => s
  | l :: ls, s => dropFailed ls (s.pinFails l)

/-- Step `TEARDOWN` (R405): every launch of the context ends with cause 0x40; `TEARDOWN_RELEASE` answers. -/
def execTeardown (s : State) : Host.Outcome State Fault Refusal :=
  serve s 0x0002 true [] fun q t =>
    let asid := reqAsid q
    let ls := (t.launches.filter fun l => l.asid == asid && l.phase != .retired && l.phase != .failed && l.ended.isNone).map (·.uid)
    let t := dropFailed (t.launches.filter fun l => l.asid == asid && l.phase == .failed) t
    .later ((ls.foldl (fun s l => s.stopLaunch l 0x40) t).modCtx asid fun c => { c with tearing := true, answer := c.answer ++ [q] })

/-- Step `DESCHEDULE` (R392): every team of the context is ordered to stop; the answer comes when all are saved. -/
def execDeschedule (s : State) : Host.Outcome State Fault Refusal :=
  serve s 0x0003 true [] fun q t =>
    let asid := reqAsid q
    if (t.ctx? asid).any fun c => c.creating.isSome then .no 1 []
    else
      let ts := (t.teams.filter fun x => x.asid == asid && x.phase == .resident).map (·.uid)
      let t := (ts.foldl (fun s u => s.orderStop u .descheduled) t).modCtx asid fun c => { c with descheduled := true, stopAns := c.stopAns ++ [q] }
      .later (t.restStarved.stopAnswered asid)

/-- Step `RESCHEDULE` (R392): the control team is placed first, and the other saved teams follow. It waits for the end of a `DESCHEDULE`. -/
def execReschedule (s : State) : Host.Outcome State Fault Refusal :=
  serve s 0x0004 true [] fun q t =>
    match t.ctx? (reqAsid q) with
    | none => .no 3 []
    | some c =>
      if c.creating.isSome then .no 1 []
      else if !c.stopAns.isEmpty then .hold
      else
        let go := fun (s : State) => Served.done ((s.modCtx c.asid fun c => { c with descheduled := false }).wantPlacement) []
        match t.launches.find? fun l => l.asid == c.asid && l.isCtrl && (t.savedTeam? l.uid).isSome with
        | none => go t
        | some l => match t.controlCore c l with
          | none => .no 1 []
          | some (x, used) => go ((t.restStarved.placeNext x).usedRotation c x.core used)

/-! ## Page tables (R52, R54, R58) -/

/-- The span of the addresses that an entry maps: by its level, when the walk of an address passes it, else one page. -/
def entrySpan (s : State) (va entry : Nat) : Nat → Nat → Nat
  | 0, _ => 65536
  | level + 1, table =>
    let (shift, w, _) := levelShape (level + 1)
    let at_ := table + 8 * bitsOf va shift w
    let e := getLe s.mem at_ 8
    if at_ = entry then 2 ^ shift
    else if bitOf e 0 && !bitOf e 1 then entrySpan s va entry level (bitsOf e 8 38 * 256)
    else 65536

/-- The extents that a launch's lease holds pinned: its ranges, its image, and the pages of its barriers. -/
def Launch.held (l : Launch) : List (Nat × Nat) :=
  if l.phase == .queued then []
  else l.ranges.map (fun r => (r.lo, r.hi)) ++ [(l.img.va, l.img.va + l.img.size)] ++
    ((l.doneb :: l.pres.map (·.bar)).filter fun b => b != 0).map fun b => (b / 65536 * 65536, b / 65536 * 65536 + 65536)

/-- Is a frame of an extent of this device pinned, by a launch of its own or for another device's (R54, R55, R297)? -/
def State.pinnedIn (s : State) (frame span : Nat) : Bool :=
  (s.launches.any fun l => l.pins.any fun p => p.dev == s.devid && decide (p.frame < frame + span ∧ frame < p.frame + p.span)) ||
  s.grants.any fun g => decide (g.frame < frame + span ∧ frame < g.frame + g.span)

/-- The level of an entry of a span. -/
def levelOf (span : Nat) : Nat := if span = 2 ^ 16 then 1 else if span = 2 ^ 21 then 2 else if span = 2 ^ 30 then 3 else 4

/-- Is a change of a valid entry forbidden: any but setting A or D, where the entry maps part of a leased range (R52) or a pinned frame (R55)? -/
def State.leasedChange (s : State) (asid va span old new : Nat) : Bool :=
  bitOf old 0 && !(new == old || new == setEntryBit old 6 || new == setEntryBit old 7 || new == setEntryBit (setEntryBit old 6) 7) &&
  ((s.launches.any fun l => l.asid == asid && l.held.any fun x => decide (x.1 < va / span * span + span ∧ va / span * span < x.2)) ||
   (mappedBy s (fun _ => true) (levelOf span) old).any fun x => s.pinnedIn x.1 x.2)

/-- Step `PTE` (R52, R58, R410): an entry compared and written at its home slice, and its range shot down. It waits while the entry's page migrates. -/
def execPte (s : State) : Host.Outcome State Fault Refusal :=
  serve s 0x0005 true [(0, 32)] fun q t =>
    let asid := reqAsid q
    let old := reqField q 8 8
    let new := reqField q 16 8
    let va := reqField q 24 8
    match s.ownExtent (reqField q 0 8) 8, s.ctx? asid with
    | some pa, some c =>
      let found := getLe s.mem pa 8
      let span := entrySpan s va pa 4 (c.root % 2 ^ 46)
      if pa % 8 ≠ 0 ∨ 2 ^ 57 ≤ va then .no 2 []
      else if bitOf found 0 && bitOf found 1 && bitOf found 10 then .hold
      else if found ≠ old then .no 6 (natLe 8 found)
      else if s.leasedChange asid va span old new then .no 1 (natLe 8 found)
      else .done ((t.putEntry pa new).shoot asid (va / span * span) span) (natLe 8 found)
    | _, _ => .no 2 []

/-- Step `RESIDENCY` (R54): the answer to a residency request. -/
def execResidency (s : State) : Host.Outcome State Fault Refusal :=
  serve s 0x0006 true [(0, 5)] fun q t =>
    if 1 < reqField q 4 1 then .no 2 []
    else match t.residAnswer (reqAsid q) (reqField q 0 4) (reqField q 4 1 == 0) with
      | some u => .done u []
      | none => .no 2 []

/-! ## Registers (R72, R272, R291, R394) -/

/-- Step `THRESHOLDS` (R410): a threshold set, and its old value returned. -/
def execThresholds (s : State) : Host.Outcome State Fault Refusal :=
  serve s 0x0007 false [(0, 2), (4, 4)] fun q t =>
    let i := reqField q 1 1
    let v := reqField q 4 4
    match reqField q 0 1 with
    | 0 => if i < 1 ∨ 7 < i ∨ 2 ^ 20 ≤ v then .no 2 [] else .done { t with pthr := t.pthr.set i v } (natLe 4 (t.pthr.getD i 0))
    | 1 => match t.ctx? (reqAsid q) with
      | none => .no 2 []
      | some c => if 15 < i then .no 2 []
        else .done (t.modCtx c.asid fun c => { c with ages := c.ages.set i (BitVec.ofNat 32 v) }) (natLe 4 (c.ages.getD i 0#32).toNat)
    | 2 => if 2 ^ 20 ≤ v then .no 2 [] else .done { t with wdsave := v } (natLe 4 t.wdsave)
    | 3 => .done { t with adth := v } (natLe 4 t.adth)
    | 4 => if 2 ^ 20 ≤ v then .no 2 [] else .done { t with tpod := v } (natLe 4 t.tpod)
    | _ => .no 2 []

/-! ## Frames and save space (R412) -/

/-- Is a number a power of two from 256 to 65,536? -/
def ringSize (n : Nat) : Bool := [256, 512, 1024, 2048, 4096, 8192, 16384, 32768, 65536].contains n

/-- Step `FFRING` (R412): the freed-frame ring registered, once. -/
def execFfring (s : State) : Host.Outcome State Fault Refusal :=
  serve s 0x0008 false [(0, 12)] fun q t =>
    let n := reqField q 8 4
    match s.ownExtent (reqField q 0 8) (64 + 8 * n) with
    | none => .no 2 []
    | some a =>
      if a % 4096 ≠ 0 ∨ !ringSize n then .no 2 []
      else if s.ffring.isSome then .no 1 []
      else .done (appendFreed (t.freed.length + 1) { t with ffring := some (a, n) }) []

/-- Step `REFILL` (R412): frames given to Ochre, as many as the pool takes. -/
def execRefill (s : State) : Host.Outcome State Fault Refusal :=
  serve s 0x0009 false [(0, 4), (8, 96)] fun q t =>
    let n := reqField q 0 4
    let fs := (List.range n).map fun i => reqField q (8 + 8 * i) 8
    if n < 1 ∨ 12 < n ∨ !restZero q [(0, 4), (8, 8 * n)] || fs.any fun f => f % 65536 != 0 || decide (hbmEnd < f + 65536) then .no 2 []
    else
      let k := min n (4096 - t.refill.length)
      .done { t with refill := t.refill ++ fs.take k } (natLe 4 k)

/-- Step `SAVEPOOL` (R412): a region added to a context's save pool. -/
def execSavepool (s : State) : Host.Outcome State Fault Refusal :=
  serve s 0x000A true [(0, 16)] fun q t =>
    let n := reqField q 8 8
    match s.ownExtent (reqField q 0 8) n with
    | none => .no 2 []
    | some a =>
      if a % 65536 ≠ 0 ∨ n % 65536 ≠ 0 ∨ n = 0 then .no 2 []
      else .done ((t.modCtx (reqAsid q) fun c => { c with pool := c.pool ++ [(a, n)] }).wantPlacement) []

/-- Step `RETIRED` (R412): entries of the retired-frame list. -/
def execRetired (s : State) : Host.Outcome State Fault Refusal :=
  serve s 0x000B false [(0, 4)] fun q t =>
    let fs := (s.retired.drop (reqField q 0 4)).take 12
    .done t (natLe 4 s.retired.length ++ natLe 4 fs.length ++ fs.flatMap fun f => natLe 8 f)

/-- Step `CLEARLOST` (R397): a lost mark cleared; the line then reads zero. -/
def execClearlost (s : State) : Host.Outcome State Fault Refusal :=
  serve s 0x000C false [(0, 8)] fun q t =>
    match s.ownExtent (reqField q 0 8) 256 with
    | none => .no 2 []
    | some a =>
      if a % 256 ≠ 0 then .no 2 []
      else if !s.lost.contains a then .no 1 []
      else .done { t with lost := t.lost.filter fun l => l != a, mem := clearRange t.mem a 256 } []

/-! ## The device around it (R42, R291, R295, R296, R415, R420, R423, R424) -/

/-- Step `APERTURE` (R42): a window of the host aperture pointed, or disabled. -/
def execAperture (s : State) : Host.Outcome State Fault Refusal :=
  serve s 0x000D false [(0, 2), (8, 8)] fun q t =>
    let w := reqField q 0 1
    let en := reqField q 1 1
    if 63 < w ∨ 1 < en ∨ reqField q 8 8 % 2 ^ 32 ≠ 0 then .no 2 []
    else
      let rest := t.aperture.filter fun x => x.1 != w
      .done { t with aperture := if en = 1 then rest ++ [(w, reqField q 8 8)] else rest } []

/-- Is an entry one that a table may hold (R291, R296)? -/
def tableEntryOk (multicast : Bool) (i e : Nat) : Bool :=
  if multicast then decide (i < 65536) && bitsOf e 33 30 == 0
  else decide (i < 1024) && bitsOf e 40 15 == 0 && decide (bitsOf e 55 3 ≤ 4) && (decide (i < 993) || e == 0)

/-- Entries of a table replaced; an entry of zero is not listed. -/
def putTable (i : Nat) : List Nat → List (Nat × DWord) → List (Nat × DWord)
  | [], l => l
  | e :: es, l =>
    let l := l.filter fun x => x.1 != i
    putTable (i + 1) es (if e = 0 then l else l ++ [(i, BitVec.ofNat 64 e)])

/-- Step `FABRIC` (R291, R296): entries of the routing or the multicast table loaded. -/
def execFabric (s : State) : Host.Outcome State Fault Refusal :=
  serve s 0x000E false [(0, 1), (4, 8), (16, 96)] fun q t =>
    let n := reqField q 8 4
    let first := reqField q 4 4
    let es := (List.range n).map fun i => reqField q (16 + 8 * i) 8
    let mc := reqField q 0 1 == 1
    if n < 1 ∨ 12 < n ∨ 1 < reqField q 0 1 || !restZero q [(0, 1), (4, 8), (16, 8 * n)] || es.zipIdx.any fun x => !tableEntryOk mc (first + x.2) x.1 then .no 2 []
    else if mc then .done { t with mcast := putTable first es t.mcast } []
    else .done { t with routes := putTable first es t.routes
                        ports := t.ports.map fun (p : Port) => { p with cleared := p.cleared.filter fun d => !decide (first ≤ d ∧ d < first + n) } } []

/-- Step `COUNTERS` (R415): a counter's mode set, which clears it, or a counter read. -/
def execCounters (s : State) : Host.Outcome State Fault Refusal :=
  serve s 0x000F false [(0, 5), (6, 4)] fun q t =>
    let core := reqField q 2 2
    let i := reqField q 1 1
    let c := t.counter core i
    let dev := core == 0xFFFF
    if (191 < core && !dev) || decide ((if dev then 15 else 7) < i) then .no 2 []
    else match reqField q 0 1 with
      | 0 =>
        let mode := reqField q 4 1
        let event := reqField q 8 2
        if 2 < mode ∨ (mode = 2 ∧ 511 < reqField q 6 2) ∨ (mode ≠ 2 ∧ reqField q 6 2 ≠ 0) ∨ 4095 < event ∨ (!dev ∧ event ≠ 0) then .no 2 []
        else .done (t.putCounter { c with mode := mode, casid := reqField q 6 2, val := 0, base := 0, event := if dev then event else c.event, on := if dev then mode != 0 else c.on }) []
      | 1 => .done t (natLe 8 c.val)
      | _ => .no 2 []

/-- Step `POWER` (R424): the package power limit set. -/
def execPower (s : State) : Host.Outcome State Fault Refusal :=
  serve s 0x0010 false [(0, 2)] fun q t =>
    let w := reqField q 0 2
    if w < 1000 ∨ 3000 < w then .no 2 [] else .done { t with limitW := w } (natLe 2 w)

/-- A piece of an attestation, preceded by its length. -/
def lengthed (bs : Bytes) : Bytes := natLe 4 bs.length ++ bs

/-- Step `ATTEST` (R421, R423): the report and the certificates written in HBM. -/
def execAttest (s : State) : Host.Outcome State Fault Refusal :=
  serve s 0x0011 false [(0, 44)] fun q t =>
    let digest := if s.cfgOk then sha256 s.cfgRec else List.replicate 32 0#8
    let bs := lengthed (Config.attestReport s.measure (sliceBytes q 16 32) digest s.devid s.svn s.cfgCount s.viaRecovery) ++ lengthed (Config.aliasCert s.measure) ++
      lengthed Config.identityCert
    match s.ownExtent (reqField q 0x20 8) (reqField q 0x28 4) with
    | none => .no 2 []
    | some a => if reqField q 0x28 4 < bs.length then .no 1 [] else .done (t.homeWrite 0x200 a bs) (natLe 4 bs.length)

/-- Step `FWUPDATE` (R420): an image of HBM verified and written to flash; the floor raised when that is asked for. -/
def execFwupdate (s : State) : Host.Outcome State Fault Refusal :=
  serve s 0x0012 false [(0, 13), (16, 4)] fun q t =>
    let n := reqField q 8 4
    let up := reqField q 12 1
    match s.ownExtent (reqField q 0 8) n with
    | none => .no 2 []
    | some a =>
      if 2 ^ 25 < n ∨ 1 < up then .no 2 []
      else if s.svn < reqField q 16 4 then .no 1 []
      else
        let img := getBytes s.mem a n
        match s.checkImage img with
        | .error _ => .no 1 []
        | .ok _ => .done { t with flash := img, floor := if up = 1 then max t.floor (reqField q 16 4) else t.floor } []

end Sys2Proof.Machine
end

