-- ==== Sys2Proof/Machine/Scalar.lean ====
section
/-!
DEFINITION. The meanings of the scalar words (R136 to R138): each executes once for its issue set, on the group's `s` and `q` registers.
-/
namespace Sys2Proof.Machine
open Sys2Proof

/-- A scalar word's left shift; a count from 32 gives 0 (R127, R137). -/
def sshl (a b : Word) : Word := if b.toNat < 32 then a <<< b.toNat else 0#32
/-- A scalar word's logical right shift; a count from 32 gives 0 (R127, R137). -/
def sshr (a b : Word) : Word := if b.toNat < 32 then a >>> b.toNat else 0#32
/-- A scalar word's arithmetic right shift; a count above 31 acts as 31 (R127, R137). -/
def ssar (a b : Word) : Word := a.sshiftRight (min b.toNat 31)

/-- An S3 word of the short class: `sd := f a b` (R136). -/
def scalar3 (s : State) (op : Nat) (st : Bool) (d a : BitVec 8) (b : BitVec 7) (f : Word → Word → Word) : Host.Outcome State Fault Refusal :=
  runWord s op st (fun _ => { sregs := [(d.toNat, 1), (a.toNat, 1), (b.toNat, 1)] }) fun x s =>
    scalarWord s x fun g => g.sset d.toNat (f (x.g.sget a.toNat) (x.g.sget b.toNat))

/-- `SADD` (R137). -/
def execSadd (st : Bool) (d a : BitVec 8) (b : BitVec 7) (s : State) : Host.Outcome State Fault Refusal := scalar3 s 0x50 st d a b fun a b => a + b

/-- `SADD` with an immediate (R91, R137). -/
def execSaddImm (st : Bool) (d a : BitVec 8) (i : BitVec 7) (s : State) : Host.Outcome State Fault Refusal :=
  runWord s 0x51 st (fun _ => { sregs := [(d.toNat, 1), (a.toNat, 1)] }) fun x s =>
    scalarWord s x fun g => g.sset d.toNat (x.g.sget a.toNat + imm7Of x.hints i)

/-- `SSUB` (R137). -/
def execSsub (st : Bool) (d a : BitVec 8) (b : BitVec 7) (s : State) : Host.Outcome State Fault Refusal := scalar3 s 0x52 st d a b fun a b => a - b

/-- A pending scalar result: the group holds the value and its target, each thread of the issue set a mark, and the first that closes its segment applies
it (R122). -/
def pendScalar (s : State) (x : Issue) (d : Nat) (val : Word) : State :=
  let id := s.nextId
  let s := s.bump.modGroup x.g.uid fun g => { g with spend := g.spend ++ [{ id := id, sd := d, val := val }] }
  s.commit x (eachLane x fun _ t => .go (t.long x id (trapEnables x.g) (.s id) val 0#5) (.fall x.pc))

/-- `SMUL` (R137): long-class, applied under R122. -/
def execSmul (st : Bool) (d a : BitVec 8) (b : BitVec 7) (s : State) : Host.Outcome State Fault Refusal :=
  runWord s 0x53 st (fun _ => { sregs := [(d.toNat, 1), (a.toNat, 1), (b.toNat, 1)] }) fun x s =>
    pendScalar s x d.toNat (x.g.sget a.toNat * x.g.sget b.toNat)

/-- `SLOG.AND` (R137). -/
def execSlogAnd (st : Bool) (d a : BitVec 8) (b : BitVec 7) (s : State) : Host.Outcome State Fault Refusal := scalar3 s 0x54 st d a b fun a b => a &&& b
/-- `SLOG.OR` (R137). -/
def execSlogOr (st : Bool) (d a : BitVec 8) (b : BitVec 7) (s : State) : Host.Outcome State Fault Refusal := scalar3 s 0x55 st d a b fun a b => a ||| b
/-- `SLOG.XOR` (R137). -/
def execSlogXor (st : Bool) (d a : BitVec 8) (b : BitVec 7) (s : State) : Host.Outcome State Fault Refusal := scalar3 s 0x56 st d a b fun a b => a ^^^ b
/-- `SLOG.ANDN` (R137). -/
def execSlogAndn (st : Bool) (d a : BitVec 8) (b : BitVec 7) (s : State) : Host.Outcome State Fault Refusal :=
  scalar3 s 0x57 st d a b fun a b => a &&& ~~~b
/-- `SSHF.SHL` (R137). -/
def execSshfShl (st : Bool) (d a : BitVec 8) (b : BitVec 7) (s : State) : Host.Outcome State Fault Refusal := scalar3 s 0x58 st d a b sshl
/-- `SSHF.SHR` (R137). -/
def execSshfShr (st : Bool) (d a : BitVec 8) (b : BitVec 7) (s : State) : Host.Outcome State Fault Refusal := scalar3 s 0x59 st d a b sshr
/-- `SSHF.SAR` (R137). -/
def execSshfSar (st : Bool) (d a : BitVec 8) (b : BitVec 7) (s : State) : Host.Outcome State Fault Refusal := scalar3 s 0x5A st d a b ssar

/-- `SSHF` by an immediate (R137): fn 0b11 is reserved. -/
def execSshfImm (st : Bool) (d a : BitVec 8) (f : BitVec 2) (n : BitVec 5) (s : State) : Host.Outcome State Fault Refusal :=
  runWord s 0x5B st (fun _ => { codeOk := f != 3#2, sregs := [(d.toNat, 1), (a.toNat, 1)] }) fun x s =>
    let v := x.g.sget a.toNat
    let k := n.setWidth 32
    scalarWord s x fun g => g.sset d.toNat (if f == 0#2 then sshl v k else if f == 1#2 then sshr v k else ssar v k)

/-- `SMOV` (R137). -/
def execSmov (st : Bool) (d a : BitVec 8) (s : State) : Host.Outcome State Fault Refusal :=
  runWord s 0x5C st (fun _ => { sregs := [(d.toNat, 1), (a.toNat, 1)] }) fun x s => scalarWord s x fun g => g.sset d.toNat (x.g.sget a.toNat)

/-- `SMOVI` (R91, R137): under `HIMM`, IMM[22:17] must be zero. -/
def execSmovi (st : Bool) (d : BitVec 8) (i : BitVec 15) (s : State) : Host.Outcome State Fault Refusal :=
  runWord s 0x5D st (fun x => { codeOk := (x.hints.imm.map fun m => decide (m.toNat < 2 ^ 17)).getD true, sregs := [(d.toNat, 1)] }) fun x s =>
    scalarWord s x fun g => g.sset d.toNat (imm15Of x.hints i)

/-- `SCMP` (R138): the codes from 0xA are reserved. -/
def execScmp (st : Bool) (c : BitVec 4) (q : BitVec 2) (a : BitVec 8) (b : BitVec 7) (s : State) : Host.Outcome State Fault Refusal :=
  runWord s 0x5E st (fun _ => { codeOk := decide (c.toNat < 10), sregs := [(a.toNat, 1), (b.toNat, 1)] }) fun x s =>
    scalarWord s x fun g => g.qset q.toNat ((intCond c.toNat (x.g.sget a.toNat) (x.g.sget b.toNat)).getD false)

/-- `SCMP` with an immediate (R91, R138). -/
def execScmpImm (st : Bool) (c : BitVec 4) (q : BitVec 2) (a : BitVec 8) (i : BitVec 7) (s : State) : Host.Outcome State Fault Refusal :=
  runWord s 0x5F st (fun _ => { codeOk := decide (c.toNat < 10), sregs := [(a.toNat, 1)] }) fun x s =>
    scalarWord s x fun g => g.qset q.toNat ((intCond c.toNat (x.g.sget a.toNat) (imm7Of x.hints i)).getD false)

end Sys2Proof.Machine
end

