-- ==== Sys2Proof/Machine/Dispatch.lean ====
section
/-!
DEFINITION. The one dispatch of the machine: each instruction to its meaning.
-/
namespace Sys2Proof.Machine
open Sys2Proof

/-- The meaning of an instruction at a state. -/
def exec (i : Instr) (s : State) : Host.Outcome State Fault Refusal :=
  match i with
  | .himm n => Sys2Proof.Machine.execHimm n s
  | .hdep k p b => Sys2Proof.Machine.execHdep k p b s
  | .hmod r o c e m g n p => Sys2Proof.Machine.execHmod r o c e m g n p s
  | .hsch p y => Sys2Proof.Machine.execHsch p y s
  | .nop st => Sys2Proof.Machine.execNop st s
  | .trap st c => Sys2Proof.Machine.execTrap st c s
  | .sysrd st d n => Sys2Proof.Machine.execSysrd st d n s
  | .syswr st d n => Sys2Proof.Machine.execSyswr st d n s
  | .perf st d a o n => Sys2Proof.Machine.execPerf st d a o n s
  | .drain st k m => Sys2Proof.Machine.execDrain st k m s
  | .bra st o => Sys2Proof.Machine.execBra st o s
  | .braQ0 st o => Sys2Proof.Machine.execBraQ0 st o s
  | .braNotQ0 st o => Sys2Proof.Machine.execBraNotQ0 st o s
  | .braQ1 st o => Sys2Proof.Machine.execBraQ1 st o s
  | .braNotQ1 st o => Sys2Proof.Machine.execBraNotQ1 st o s
  | .braQ2 st o => Sys2Proof.Machine.execBraQ2 st o s
  | .braNotQ2 st o => Sys2Proof.Machine.execBraNotQ2 st o s
  | .braQ3 st o => Sys2Proof.Machine.execBraQ3 st o s
  | .braNotQ3 st o => Sys2Proof.Machine.execBraNotQ3 st o s
  | .braP0 st o => Sys2Proof.Machine.execBraP0 st o s
  | .braNotP0 st o => Sys2Proof.Machine.execBraNotP0 st o s
  | .braP1 st o => Sys2Proof.Machine.execBraP1 st o s
  | .call st o => Sys2Proof.Machine.execCall st o s
  | .ret st => Sys2Proof.Machine.execRet st s
  | .loop st a n => Sys2Proof.Machine.execLoop st a n s
  | .brk st g => Sys2Proof.Machine.execBrk st g s
  | .brx st a g => Sys2Proof.Machine.execBrx st a g s
  | .rcv st => Sys2Proof.Machine.execRcv st s
  | .yield st => Sys2Proof.Machine.execYield st s
  | .exit st g => Sys2Proof.Machine.execExit st g s
  | .plop st f p q a b g => Sys2Proof.Machine.execPlop st f p q a b g s
  | .vote st d m p g => Sys2Proof.Machine.execVote st d m p g s
  | .vtos st l a d => Sys2Proof.Machine.execVtos st l a d s
  | .iadd st d a b g => Sys2Proof.Machine.execIadd st d a b g s
  | .isub st d a b g => Sys2Proof.Machine.execIsub st d a b g s
  | .imul st d a b g => Sys2Proof.Machine.execImul st d a b g s
  | .imulh st d a b g => Sys2Proof.Machine.execImulh st d a b g s
  | .imad st d a b g => Sys2Proof.Machine.execImad st d a b g s
  | .imin st d a b g => Sys2Proof.Machine.execImin st d a b g s
  | .imax st d a b g => Sys2Proof.Machine.execImax st d a b g s
  | .iabs st d a g => Sys2Proof.Machine.execIabs st d a g s
  | .ineg st d a g => Sys2Proof.Machine.execIneg st d a g s
  | .and st d a b g => Sys2Proof.Machine.execAnd st d a b g s
  | .or st d a b g => Sys2Proof.Machine.execOr st d a b g s
  | .xor st d a b g => Sys2Proof.Machine.execXor st d a b g s
  | .not st d a g => Sys2Proof.Machine.execNot st d a g s
  | .shl st d a b g => Sys2Proof.Machine.execShl st d a b g s
  | .shr st d a b g => Sys2Proof.Machine.execShr st d a b g s
  | .sar st d a b g => Sys2Proof.Machine.execSar st d a b g s
  | .popc st d a g => Sys2Proof.Machine.execPopc st d a g s
  | .clz st d a g => Sys2Proof.Machine.execClz st d a g s
  | .brev st d a g => Sys2Proof.Machine.execBrev st d a g s
  | .bfe st d a b g => Sys2Proof.Machine.execBfe st d a b g s
  | .bfi st d a b g => Sys2Proof.Machine.execBfi st d a b g s
  | .sel st d a b p => Sys2Proof.Machine.execSel st d a b p s
  | .mov st d a g => Sys2Proof.Machine.execMov st d a g s
  | .icmp st c p a b g => Sys2Proof.Machine.execIcmp st c p a b g s
  | .lea st d a b g => Sys2Proof.Machine.execLea st d a b g s
  | .iaddImm st d a n => Sys2Proof.Machine.execIaddImm st d a n s
  | .shlImm st d a n => Sys2Proof.Machine.execShlImm st d a n s
  | .icmpImm st c p a n => Sys2Proof.Machine.execIcmpImm st c p a n s
  | .movi st d n => Sys2Proof.Machine.execMovi st d n s
  | .iaddScalar st d a b g => Sys2Proof.Machine.execIaddScalar st d a b g s
  | .movScalar st d b g => Sys2Proof.Machine.execMovScalar st d b g s
  | .sadd st d a b => Sys2Proof.Machine.execSadd st d a b s
  | .saddImm st d a n => Sys2Proof.Machine.execSaddImm st d a n s
  | .ssub st d a b => Sys2Proof.Machine.execSsub st d a b s
  | .smul st d a b => Sys2Proof.Machine.execSmul st d a b s
  | .slogAnd st d a b => Sys2Proof.Machine.execSlogAnd st d a b s
  | .slogOr st d a b => Sys2Proof.Machine.execSlogOr st d a b s
  | .slogXor st d a b => Sys2Proof.Machine.execSlogXor st d a b s
  | .slogAndn st d a b => Sys2Proof.Machine.execSlogAndn st d a b s
  | .sshfShl st d a b => Sys2Proof.Machine.execSshfShl st d a b s
  | .sshfShr st d a b => Sys2Proof.Machine.execSshfShr st d a b s
  | .sshfSar st d a b => Sys2Proof.Machine.execSshfSar st d a b s
  | .sshfImm st d a f n => Sys2Proof.Machine.execSshfImm st d a f n s
  | .smov st d a => Sys2Proof.Machine.execSmov st d a s
  | .smovi st d n => Sys2Proof.Machine.execSmovi st d n s
  | .scmp st c q a b => Sys2Proof.Machine.execScmp st c q a b s
  | .scmpImm st c q a n => Sys2Proof.Machine.execScmpImm st c q a n s
  | .fadd st d a b g => Sys2Proof.Machine.execFadd st d a b g s
  | .fsub st d a b g => Sys2Proof.Machine.execFsub st d a b g s
  | .fmul st d a b g => Sys2Proof.Machine.execFmul st d a b g s
  | .ffma st d a b g => Sys2Proof.Machine.execFfma st d a b g s
  | .fmin st d a b g => Sys2Proof.Machine.execFmin st d a b g s
  | .fmax st d a b g => Sys2Proof.Machine.execFmax st d a b g s
  | .fcmp st c p a b g => Sys2Proof.Machine.execFcmp st c p a b g s
  | .frcp st d a g => Sys2Proof.Machine.execFrcp st d a g s
  | .frsq st d a g => Sys2Proof.Machine.execFrsq st d a g s
  | .fex2 st d a g => Sys2Proof.Machine.execFex2 st d a g s
  | .flg2 st d a g => Sys2Proof.Machine.execFlg2 st d a g s
  | .fcls st d a g => Sys2Proof.Machine.execFcls st d a g s
  | .frnd st d a g => Sys2Proof.Machine.execFrnd st d a g s
  | .hadd2 st d a b g => Sys2Proof.Machine.execHadd2 st d a b g s
  | .hmul2 st d a b g => Sys2Proof.Machine.execHmul2 st d a b g s
  | .hfma2 st d a b g => Sys2Proof.Machine.execHfma2 st d a b g s
  | .cvt st d a e f => Sys2Proof.Machine.execCvt st d a e f s
  | .pack st d a f n => Sys2Proof.Machine.execPack st d a f n s
  | .unpk st d a f n => Sys2Proof.Machine.execUnpk st d a f n s
  | .qnt st d a f b => Sys2Proof.Machine.execQnt st d a f b s
  | .sclx st d a b g => Sys2Proof.Machine.execSclx st d a b g s
  | .dqntE4m3 st d a b c => Sys2Proof.Machine.execDqntE4m3 st d a b c s
  | .dqntE5m2 st d a b c => Sys2Proof.Machine.execDqntE5m2 st d a b c s
  | .dqntE2m3 st d a b c => Sys2Proof.Machine.execDqntE2m3 st d a b c s
  | .dqntE3m2 st d a b c => Sys2Proof.Machine.execDqntE3m2 st d a b c s
  | .dqntE2m1 st d a b c => Sys2Proof.Machine.execDqntE2m1 st d a b c s
  | .dqntSx4 st d a b c => Sys2Proof.Machine.execDqntSx4 st d a b c s
  | .dqntI8 st d a b c => Sys2Proof.Machine.execDqntI8 st d a b c s
  | .xpat st d a n => Sys2Proof.Machine.execXpat st d a n s
  | .xperm st d a b g => Sys2Proof.Machine.execXperm st d a b g s
  | .shfl st d a m n => Sys2Proof.Machine.execShfl st d a m n s
  | .scan st d a o f x => Sys2Proof.Machine.execScan st d a o f x s
  | .rdx st d a o f => Sys2Proof.Machine.execRdx st d a o f s
  | .ld st d a k z g => Sys2Proof.Machine.execLd st d a k z g s
  | .st st d a k z g => Sys2Proof.Machine.execSt st d a k z g s
  | .lds st d a z g => Sys2Proof.Machine.execLds st d a z g s
  | .sts st d a z g => Sys2Proof.Machine.execSts st d a z g s
  | .atom st d a k r w o => Sys2Proof.Machine.execAtom st d a k r w o s
  | .acas st d a k r w => Sys2Proof.Machine.execAcas st d a k r w s
  | .prf st l a z g => Sys2Proof.Machine.execPrf st l a z g s
  | .fence st p k g => Sys2Proof.Machine.execFence st p k g s
  | .cflush st o a k z g => Sys2Proof.Machine.execCflush st o a k z g s
  | .ptst st d a g => Sys2Proof.Machine.execPtst st d a g s
  | .ldt st d a k g => Sys2Proof.Machine.execLdt st d a k g s
  | .stt st d a k g => Sys2Proof.Machine.execStt st d a k g s
  | .wait st q e k y t b => Sys2Proof.Machine.execWait st q e k y t b s
  | .waitc st k a q e t b => Sys2Proof.Machine.execWaitc st k a q e t b s
  | .tst st k d b w => Sys2Proof.Machine.execTst st k d b w s
  | .tclr st k => Sys2Proof.Machine.execTclr st k s
  | .texp st k a b y r => Sys2Proof.Machine.execTexp st k a b y r s
  | .binit st k a b => Sys2Proof.Machine.execBinit st k a b s
  | .arv st k a b e p => Sys2Proof.Machine.execArv st k a b e p s
  | .bwait st q e a b t p => Sys2Proof.Machine.execBwait st q e a b t p s
  | .bpoll st q a b => Sys2Proof.Machine.execBpoll st q a b s
  | .cpy st k a b o d => Sys2Proof.Machine.execCpy st k a b o d s
  | .launch st k a => Sys2Proof.Machine.execLaunch st k a s
  | .sacq st d n => Sys2Proof.Machine.execSacq st d n s
  | .spop st d c n => Sys2Proof.Machine.execSpop st d c n s
  | .srel st a f n => Sys2Proof.Machine.execSrel st a f n s
  | .kvld st k a b o w => Sys2Proof.Machine.execKvld st k a b o w s
  | .kvseal st k a b => Sys2Proof.Machine.execKvseal st k a b s
  | .kvhdr st k a b => Sys2Proof.Machine.execKvhdr st k a b s
  | .coll st k a b => Sys2Proof.Machine.execColl st k a b s
  | .mcst st k a b => Sys2Proof.Machine.execMcst st k a b s
  | .rte st k a b => Sys2Proof.Machine.execRte st k a b s
  | .rtc st k a b => Sys2Proof.Machine.execRtc st k a b s
  | .mmaBf16 st k c a b => Sys2Proof.Machine.execMmaBf16 st k c a b s
  | .mmaF16 st k c a b => Sys2Proof.Machine.execMmaF16 st k c a b s
  | .mmaE4m3 st k c a b => Sys2Proof.Machine.execMmaE4m3 st k c a b s
  | .mmaE5m2 st k c a b => Sys2Proof.Machine.execMmaE5m2 st k c a b s
  | .mmaE2m3 st k c a b => Sys2Proof.Machine.execMmaE2m3 st k c a b s
  | .mmaE3m2 st k c a b => Sys2Proof.Machine.execMmaE3m2 st k c a b s
  | .mmaI8 st k c a b => Sys2Proof.Machine.execMmaI8 st k c a b s
  | .mmaE2m1 st k c a b => Sys2Proof.Machine.execMmaE2m1 st k c a b s
  | .mmaSx4 st k c a b => Sys2Proof.Machine.execMmaSx4 st k c a b s
  | .acrel st c => Sys2Proof.Machine.execAcrel st c s
  | .acacq st k c => Sys2Proof.Machine.execAcacq st k c s
  | .acz st c => Sys2Proof.Machine.execAcz st c s
  | .acrd st c d b => Sys2Proof.Machine.execAcrd st c d b s
  | .acwr st c a b => Sys2Proof.Machine.execAcwr st c a b s
  | .longResultLand g lane => Sys2Proof.Machine.execLongResultLand g lane s
  | .threadStarved g lane => Sys2Proof.Machine.execThreadStarved g lane s
  | .groupStarvationGuard g => Sys2Proof.Machine.execGroupStarvationGuard g s
  | .trapEntry g lane => Sys2Proof.Machine.execTrapEntry g lane s
  | .storeQueueDrain g => Sys2Proof.Machine.execStoreQueueDrain g s
  | .memoryReply op lane => Sys2Proof.Machine.execMemoryReply op lane s
  | .tlbWalkReturn clu asid va => Sys2Proof.Machine.execTlbWalkReturn clu asid va s
  | .lightFaultService asid va => Sys2Proof.Machine.execLightFaultService asid va s
  | .migration asid va frame => Sys2Proof.Machine.execMigration asid va frame s
  | .migrationSwapOut team => Sys2Proof.Machine.execMigrationSwapOut team s
  | .engineCommandStart op => Sys2Proof.Machine.execEngineCommandStart op s
  | .chunkLand op n => Sys2Proof.Machine.execChunkLand op n s
  | .copyFinish op => Sys2Proof.Machine.execCopyFinish op s
  | .ldtRetry op lane => Sys2Proof.Machine.execLdtRetry op lane s
  | .sttProgress op lane => Sys2Proof.Machine.execSttProgress op lane s
  | .mmaStart op => Sys2Proof.Machine.execMmaStart op s
  | .mmaFinish op => Sys2Proof.Machine.execMmaFinish op s
  | .acacqFinish op => Sys2Proof.Machine.execAcacqFinish op s
  | .kvConversion frame half => Sys2Proof.Machine.execKvConversion frame half s
  | .kvPairing asid vp vq => Sys2Proof.Machine.execKvPairing asid vp vq s
  | .kvldRetry op => Sys2Proof.Machine.execKvldRetry op s
  | .kvhdrRefill op => Sys2Proof.Machine.execKvhdrRefill op s
  | .barrierUpdate n => Sys2Proof.Machine.execBarrierUpdate n s
  | .quiescenceTimer op => Sys2Proof.Machine.execQuiescenceTimer op s
  | .launchValidation l => Sys2Proof.Machine.execLaunchValidation l s
  | .launchPreconditionsHeld l => Sys2Proof.Machine.execLaunchPreconditionsHeld l s
  | .leasePin l => Sys2Proof.Machine.execLeasePin l s
  | .placementDecision die => Sys2Proof.Machine.execPlacementDecision die s
  | .reservation die => Sys2Proof.Machine.execReservation die s
  | .reservationAnswer die => Sys2Proof.Machine.execReservationAnswer die s
  | .preemption l => Sys2Proof.Machine.execPreemption l s
  | .unplaceableLog l => Sys2Proof.Machine.execUnplaceableLog l s
  | .forcedFullSave team => Sys2Proof.Machine.execForcedFullSave team s
  | .teamSave team => Sys2Proof.Machine.execTeamSave team s
  | .saveWatchdog team => Sys2Proof.Machine.execSaveWatchdog team s
  | .savedCompletion op lane => Sys2Proof.Machine.execSavedCompletion op lane s
  | .teamRetire team => Sys2Proof.Machine.execTeamRetire team s
  | .launchRetire l => Sys2Proof.Machine.execLaunchRetire l s
  | .teardownRelease asid => Sys2Proof.Machine.execTeardownRelease asid s
  | .pinTimeout gid => Sys2Proof.Machine.execPinTimeout gid s
  | .retransmitTimeout txid => Sys2Proof.Machine.execRetransmitTimeout txid s
  | .reductionStep op slot => Sys2Proof.Machine.execReductionStep op slot s
  | .combineStep op n => Sys2Proof.Machine.execCombineStep op n s
  | .gatherServe op n => Sys2Proof.Machine.execGatherServe op n s
  | .dispatchPlacement op => Sys2Proof.Machine.execDispatchPlacement op s
  | .collectiveFinish op => Sys2Proof.Machine.execCollectiveFinish op s
  | .dispatchFinish op => Sys2Proof.Machine.execDispatchFinish op s
  | .doorbell page off data => Sys2Proof.Machine.execDoorbell page off data s
  | .doorbellApply n => Sys2Proof.Machine.execDoorbellApply n s
  | .bar2Write off data => Sys2Proof.Machine.execBar2Write off data s
  | .bar2Read off len => Sys2Proof.Machine.execBar2Read off len s
  | .msixUnmask vec => Sys2Proof.Machine.execMsixUnmask vec s
  | .hostReadCompletion rid status data => Sys2Proof.Machine.execHostReadCompletion rid status data s
  | .hostReadTimeout rid => Sys2Proof.Machine.execHostReadTimeout rid s
  | .registerWrite off data => Sys2Proof.Machine.execRegisterWrite off data s
  | .create asid fring => Sys2Proof.Machine.execCreate asid fring s
  | .karicHello port width pkt => Sys2Proof.Machine.execKaricHello port width pkt s
  | .portDegraded port => Sys2Proof.Machine.execPortDegraded port s
  | .linkFail port => Sys2Proof.Machine.execLinkFail port s
  | .portRestored port => Sys2Proof.Machine.execPortRestored port s
  | .l2UncorrectableError line => Sys2Proof.Machine.execL2UncorrectableError line s
  | .cleanLineError line => Sys2Proof.Machine.execCleanLineError line s
  | .hbmUncorrectableError line => Sys2Proof.Machine.execHbmUncorrectableError line s
  | .clockStepDown die => Sys2Proof.Machine.execClockStepDown die s
  | .clockStepUp die => Sys2Proof.Machine.execClockStepUp die s
  | .thermalLimit die => Sys2Proof.Machine.execThermalLimit die s
  | .illegalInstruction detail => Sys2Proof.Machine.execIllegalInstruction detail s
  | .runAheadFetch g n => Sys2Proof.Machine.execRunAheadFetch g n s
  | .correctedSoftError unit => Sys2Proof.Machine.execCorrectedSoftError unit s
  | .thermalLimitClear die => Sys2Proof.Machine.execThermalLimitClear die s
  | .watchReread g => Sys2Proof.Machine.execWatchReread g s
  | .fabricStartDelay => Sys2Proof.Machine.execFabricStartDelay s
  | .teardown => Sys2Proof.Machine.execTeardown s
  | .deschedule => Sys2Proof.Machine.execDeschedule s
  | .reschedule => Sys2Proof.Machine.execReschedule s
  | .pte => Sys2Proof.Machine.execPte s
  | .residency => Sys2Proof.Machine.execResidency s
  | .thresholds => Sys2Proof.Machine.execThresholds s
  | .ffring => Sys2Proof.Machine.execFfring s
  | .refill => Sys2Proof.Machine.execRefill s
  | .savepool => Sys2Proof.Machine.execSavepool s
  | .retired => Sys2Proof.Machine.execRetired s
  | .clearlost => Sys2Proof.Machine.execClearlost s
  | .aperture => Sys2Proof.Machine.execAperture s
  | .fabric => Sys2Proof.Machine.execFabric s
  | .counters => Sys2Proof.Machine.execCounters s
  | .power => Sys2Proof.Machine.execPower s
  | .attest => Sys2Proof.Machine.execAttest s
  | .fwupdate => Sys2Proof.Machine.execFwupdate s
  | .recoveryGo => Sys2Proof.Machine.execRecoveryGo s
  | .deviceReset => Sys2Proof.Machine.execDeviceReset s
  | .karicForward => Sys2Proof.Machine.execKaricForward s
  | .karicRdreq => Sys2Proof.Machine.execKaricRdreq s
  | .karicWr => Sys2Proof.Machine.execKaricWr s
  | .karicAtom => Sys2Proof.Machine.execKaricAtom s
  | .karicRdrsp => Sys2Proof.Machine.execKaricRdrsp s
  | .karicWrack => Sys2Proof.Machine.execKaricWrack s
  | .karicAtrsp => Sys2Proof.Machine.execKaricAtrsp s
  | .karicChack => Sys2Proof.Machine.execKaricChack s
  | .karicNack => Sys2Proof.Machine.execKaricNack s
  | .karicChunk => Sys2Proof.Machine.execKaricChunk s
  | .karicDisp => Sys2Proof.Machine.execKaricDisp s
  | .karicFlag => Sys2Proof.Machine.execKaricFlag s
  | .mgmtPin => Sys2Proof.Machine.execMgmtPin s
  | .mgmtPinans => Sys2Proof.Machine.execMgmtPinans s
  | .mgmtUnpin => Sys2Proof.Machine.execMgmtUnpin s
  | .mgmtCdesc => Sys2Proof.Machine.execMgmtCdesc s
  | .mgmtDdesc => Sys2Proof.Machine.execMgmtDdesc s
  | .mgmtCancel => Sys2Proof.Machine.execMgmtCancel s
  | .mgmtGather => Sys2Proof.Machine.execMgmtGather s
  | .mgmtWatch => Sys2Proof.Machine.execMgmtWatch s
  | .mgmtAdvanced => Sys2Proof.Machine.execMgmtAdvanced s
  | .thermalShutdown => Sys2Proof.Machine.execThermalShutdown s

end Sys2Proof.Machine
end

