-- ==== Sys2Proof/Machine/Schedule.lean ====
section
/-!
DEFINITION. How the device goes from one step to the next: the issue slot of a partition (R112), the happenings of the agenda, the passage of time
(R374, R416, R426), the internal steps that may occur, and the choice that the model makes when the agenda names none (log entry 26).
-/
namespace Sys2Proof.Machine
open Sys2Proof

/-! ## An issue slot -/

/-- A partition's parked threads re-examined, as its slot is arbitrated (R118). -/
def State.wakePart (s : State) (core part : Nat) : State :=
  { s with groups := mapIf (fun g => g.core == core && g.part == part && g.resident) (wakeGroup s) s.groups }

/-- The detail of R99 with which a word that decodes to nothing is illegal: of a hint word, detail 0x03 for a kind already pending comes before 0x05, and
0x04 is for hinted words only. -/
def rejectDetail (x : Issue) (w : Nat) : Reject → Nat
  | .unassigned => 2
  | .settledHint => 3
  | .reservedBit => if hintOp (opcodeOf w) then (if x.hints.holds (opcodeOf w) then 3 else 5) else if acceptsHints (opcodeOf w) x.hints then 5 else 4
  | .short => 1

/-- After an issue that goes on (R94, R416), of a word with an opcode, or of none (`noWord`). -/
def afterIssue (x : Issue) (op : Nat) : Host.Outcome State Fault Refusal → Host.Outcome State Fault Refusal
  | .next s => .next (s.endIssue x op)
  | o => o

/-- The selected issue runs its fetched word: the instruction that the word decodes to, an illegal instruction, or the outcome of its fetch. -/
def runFetched (s : State) (x : Issue) : Host.Outcome State Fault Refusal :=
  match fetchWord s x with
  | .word w => match decodeWord w with
    | .ok i => afterIssue x (opcodeOf w) (exec i s)
    | .error e => afterIssue x (opcodeOf w) (exec (.illegalInstruction (rejectDetail x w e)) s)
  | .illegal d => afterIssue x noWord (exec (.illegalInstruction d) s)
  | .out o =>
    let outs := eachLane x fun _ _ => o
    .next (((noteParks false outs s).commit x outs).endIssue x noWord)
  | .ask p => .next (s.askRecord x.g p 4)
  | .pending => .next s

/-- A group's issue set issues its word. -/
def issueGroup (s : State) (g : Group) : Host.Outcome State Fault Refusal :=
  let set := issueSet g
  let s := s.beginIssue g set
  runFetched s (s.issueOf ((s.group? g.uid).getD g) set)

/-- Has a partition's slot of this cycle gone by: has it, or a higher partition of its quad, issued in it? What the partitions of a quad issue in one cycle
takes effect in ascending partition number (R112, R248). -/
def State.slotGone (s : State) (core part : Nat) : Bool := s.quadGone core (part / 4) part

/-- The issue of a partition noted for its quad. -/
def State.noteSlot (s : State) (core part : Nat) : State := s.noteQuad core (part / 4) part

/-- The groups of a partition ask other devices and the host for the words and records that their next issues need: each asks once, and is no candidate
until the answer has come (log entries 47, 162). -/
def State.askPart (s : State) (core part : Nat) : State :=
  (s.groups.filter fun g => g.core == core && g.part == part).foldl (fun s g => match toAsk s g with
    | some (p, n) => s.askRecord g p n
    | none => s) s

/-- A partition's issue slot: its arbiter chooses a group and the group's word issues, or the slot passes. The slots of one cycle run one after the other, each
word as a whole: scratchpad words of two of them are never ordered unit by unit (R200; log entries 177, 188). -/
def slotStep (s : State) (core part : Nat) : Host.Outcome State Fault Refusal :=
  let s := s.wakePart core part
  if s.slotGone core part then .next s
  else
    let s := s.askPart core part
    match arbitrate s core part with
    | some g => issueGroup (s.noteSlot core part) g
    | none => .next s

/-! ## Time and the outside world -/

/-- Does a counter count the clock of its die at this moment (R415, R416)? A context's counter counts while the context has a team on the core. -/
def countsCycles (s : State) (c : Counter) : Bool :=
  decide (c.core < 192) && c.on && c.event == 1 && (c.mode == 1 || (c.mode == 2 && !(s.teamsOn c.casid c.core).isEmpty)) &&
  (match c.own with
    | some t => s.teams.any fun u => u.uid == t && u.phase == .resident
    | none => true)

/-- A die's clock runs on; time below 3.3 GHz counts in THRT (R426). -/
def Die.run (d : Die) (cycles ns : Nat) : Die :=
  { d with cycles := (d.cycles + cycles) % 2 ^ 64, thrt := if d.clk < 33 then (d.thrt + ns) % (1000 * 2 ^ 32) else d.thrt }

/-- Time passes: so many cycles of each die, and so many nanoseconds (R374, R416, R424). -/
def State.tick (s : State) (cycles0 cycles1 ns : Nat) : State :=
  let cycles := fun (c : Counter) => if dieOf c.core = 0 then cycles0 else cycles1
  { s with timeNs := (s.timeNs + ns) % 2 ^ 64
           die0 := s.die0.run cycles0 ns
           die1 := s.die1.run cycles1 ns
           counters := mapIf (countsCycles s) (fun c => { c with val := (c.val + cycles c) % 2 ^ 48 }) s.counters }

/-- The beats queued at a port for a channel (R292). -/
def setOcc (p : Port) (vc beats : Nat) : Port := { p with occ := (vc, beats) :: p.occ.filter fun o => o.1 != vc }

/-- Is a constructor a step of the device, which has no word and which no word raises? -/
def Instr.isStep (i : Instr) : Bool := (encode i).isNone && (match i with
  | .illegalInstruction _ => false
  | _ => true)

/-- The step of a packet's type and, for a management packet, its subtype (R286, R288); a packet for
another device is forwarded (R292), and one for a multicast group lands here when its entry says so (R296). -/
def arrivalStep (s : State) (p : Packet) : Instr :=
  if !packetOk p then .karicForward
  else if !s.takes p then .karicForward
  else match p.ty.toNat with
    | 1 => .karicRdreq
    | 2 => .karicWr
    | 3 => .karicAtom
    | 4 => .karicRdrsp
    | 5 => .karicWrack
    | 6 => .karicAtrsp
    | 7 => .karicChack
    | 8 => .karicNack
    | 9 => .karicChunk
    | 10 => .karicDisp
    | 11 => .karicFlag
    | _ => match p.aux.toNat with
      | 2 => .mgmtPin
      | 3 => .mgmtPinans
      | 4 => .mgmtUnpin
      | 5 => .mgmtCdesc
      | 6 => .mgmtDdesc
      | 7 => .mgmtCancel
      | 8 => .mgmtGather
      | 9 => .mgmtWatch
      | _ => .mgmtAdvanced

/-- One happening of the agenda. -/
def happen (s : State) : Happening → Host.Outcome State Fault Refusal
  | .row i => if Instr.isStep i then exec i s else .next s
  | .arrive port p => exec (arrivalStep s p) { s with arrived := some (port, p) }
  | .slot core part => slotStep s core part
  | .arrayReads op unit => .next (s.arrayReads op unit)
  | .arrayWrites op lane col => .next (s.arrayWrites op lane col)
  | .tick cycles0 cycles1 ns => .next (s.tick cycles0 cycles1 ns)
  | .occupancy port vc beats => .next { s with ports := mapIf (fun p => p.idx == port) (fun p => setOcc p vc beats) s.ports }
  | .evictL1 core va => .next { s with l1 := s.l1.filter fun l => !(l.core == core && l.va == va / 128 * 128) }
  | .evictCC clu pa => .next (s.dropLine clu pa)
  | .upset i => .next { s with upset := some i }
  | .evictL2 pa => .next { s with l2 := s.l2.filter fun l => superblock l.pa != superblock pa }
  | .bar0Read off n => .next (s.readBar0 off n)
  | .resizeBar2 bits => .next (s.sizeBar2 bits)
  | .poisonedWrite => .next { s with poisoned := s.poisoned + 1 }
  | .sense pwr t0 t1 umber hbm =>
    .next { s with pwr := pwr, die0 := { s.die0 with temp := t0 }, die1 := { s.die1 with temp := t1 }, tempUmber := umber, tempHbm := hbm }

/-! ## The model's own choice of what comes next -/

/-- The groups of the device, one after another from a place on. -/
def rotated (gs : List Group) (n : Nat) : List Group := gs.drop (n % gs.length) ++ gs.take (n % gs.length)

/-- Does a group give its partition something to do in its slot: is it a candidate, or has it something to ask for which there is room? -/
def slotUseful (s : State) (g : Group) : Bool := candidate s g || (toAsk s g).any fun x => s.askRecord g x.1 x.2 != s

/-- The partition that issues next, when some group of it has something to do. -/
def State.nextSlot (s : State) : Option (Nat × Nat) :=
  ((rotated s.groups (s.turn / 2)).find? fun g => slotUseful s (if g.resident then wakeGroup s g else g)).map fun g => (g.core, g.part)

/-- The first step of a list that changes the state. -/
def firstStep (s : State) : List Instr → Option State
  | [] => none
  | i :: is => match exec i s with
    | .next t => if t = s then firstStep s is else some t
    | _ => firstStep s is

/-- The steps that an operation may be ready for. -/
def opSteps (o : Op) : List Instr :=
  let lanes := (o.parts.filter fun p => p.fin.isNone).map (·.lane)
  let next := fun (n : Nat) => (List.range n).find? fun i => !o.landed.contains i && !o.dropped.contains i
  match o.kind with
  | .ldt _ _ => lanes.flatMap fun l => [.memoryReply o.id l, .ldtRetry o.id l]
  | .stt _ _ => lanes.flatMap fun l => [.memoryReply o.id l, .sttProgress o.id l]
  | .copy _ => [.engineCommandStart o.id, .chunkLand o.id ((next o.nchunk).getD 0), .copyFinish o.id]
  | .launch _ => [.engineCommandStart o.id]
  | .kvld => [.engineCommandStart o.id, .kvldRetry o.id, .chunkLand o.id 0, .copyFinish o.id]
  | .kvseal => [.engineCommandStart o.id]
  | .kvhdr => [.engineCommandStart o.id, .kvhdrRefill o.id]
  | .coll =>
    let unread := (List.range (collN o.recd)).find? fun i => !o.got.contains (readMark, i, [])
    [.engineCommandStart o.id, .chunkLand o.id (unread.getD 0), .chunkLand o.id (collN o.recd), .collectiveFinish o.id] ++
      (o.got.map fun x => x.2.1).eraseDups.map fun i => .reductionStep o.id i
  | .mcst => [.engineCommandStart o.id, .chunkLand o.id ((next (chunksOf (shapeOf o.recd).total)).getD 0), .collectiveFinish o.id]
  | .rte => [.engineCommandStart o.id, .dispatchPlacement o.id, .dispatchFinish o.id]
  | .rtc => [.engineCommandStart o.id, .combineStep o.id ((next (o.items * o.rowChunks)).getD 0), .gatherServe o.id 0, .dispatchFinish o.id]
  | .mma _ _ _ _ => [.mmaStart o.id, .mmaFinish o.id]
  | .acacq _ => [.acacqFinish o.id]
  | .drain _ => [.quiescenceTimer o.id]
  | _ => lanes.flatMap fun l => [.memoryReply o.id l, .savedCompletion o.id l]

/-- The steps that a group may be ready for. -/
def groupSteps (g : Group) : List Instr :=
  .storeQueueDrain g.uid :: .groupStarvationGuard g.uid ::
    laneList.flatMap fun l =>
      let t := g.thread l
      (if t.pend.isEmpty then [] else [.longResultLand g.uid l]) ++ (if t.trap.isNone then [] else [.trapEntry g.uid l]) ++
        (if t.starve < 1024 then [] else [.threadStarved g.uid l])

/-- The mailbox rows. -/
def mailSteps : List Instr :=
  [.teardown, .deschedule, .reschedule, .pte, .residency, .thresholds, .ffring, .refill, .savepool, .retired, .clearlost, .aperture, .fabric, .counters, .power,
   .attest, .fwupdate]

/-- The internal steps that may occur: every step that nothing outside the device and no choice of Ochre's names. -/
def internalSteps (s : State) : List Instr :=
  s.groups.flatMap groupSteps ++ s.ops.flatMap opSteps ++ s.served.map (fun o => .gatherServe o.id 0) ++
  s.walkReqs.map (fun w => .tlbWalkReturn w.1 w.2.1 w.2.2.1) ++ s.lightReqs.map (fun w => .lightFaultService w.1 w.2.1) ++
  (if s.updates.isEmpty then [] else [.barrierUpdate 1]) ++
  s.seals.map (fun x => .kvConversion x.frame x.half) ++
  s.launches.flatMap (fun l => [.launchValidation l.uid, .leasePin l.uid, .launchPreconditionsHeld l.uid, .preemption l.uid, .unplaceableLog l.uid, .launchRetire l.uid] ++
    (l.pins.filter fun p => !p.answered).map fun p => .pinTimeout p.gid) ++
  s.teams.flatMap (fun t => [.teamSave t.uid, .forcedFullSave t.uid, .saveWatchdog t.uid, .migrationSwapOut t.uid, .teamRetire t.uid]) ++
  [.placementDecision 0, .placementDecision 1, .reservation 0, .reservation 1, .reservationAnswer 0, .reservationAnswer 1] ++
  s.contexts.flatMap (fun c => [.create c.asid 0, .teardownRelease c.asid]) ++
  s.rtx.map (fun r => .retransmitTimeout r.pkt.txid.toNat) ++ s.hostReads.map (fun r => .hostReadTimeout r.rid) ++
  (if s.doorbells.isEmpty then [] else [.doorbellApply 0]) ++ (if s.fabricOpen then [] else [.fabricStartDelay]) ++
  (if s.requestHeld then mailSteps else []) ++
  [.thermalShutdown, .thermalLimit 0, .thermalLimit 1, .thermalLimitClear 0, .thermalLimitClear 1, .clockStepDown 0, .clockStepDown 1, .clockStepUp 0, .clockStepUp 1] ++
  s.groups.map fun g => .watchReread g.uid

/-- The internal steps in turn: each comes first at some time, so that one that polls does not hold the others up. -/
def stepsInTurn (s : State) : List Instr :=
  let l := internalSteps s
  l.drop (s.turn % max 1 l.length) ++ l.take (s.turn % max 1 l.length)

/-- A step taken, or another outcome when there is none. -/
def takenOr (o : Option State) (d : Host.Outcome State Fault Refusal) : Host.Outcome State Fault Refusal := match o with
  | some t => .next t
  | none => d

/-- A slot given to a partition, or another outcome when none has a candidate. -/
def slotOr (s : State) (x : Option (Nat × Nat)) (d : Host.Outcome State Fault Refusal) : Host.Outcome State Fault Refusal := match x with
  | some (c, p) => slotStep s c p
  | none => d

/-- The next internal step that changes the state, if any. -/
def State.ownStep (s : State) : Option State := firstStep s (stepsInTurn s)

/-- A step that the agenda does not name: issue slots and internal steps take turns, each standing in for the other when it has nothing to do; an idle
device lets time pass. -/
def defaultStep (s : State) : Host.Outcome State Fault Refusal :=
  let a : State := { s with turn := s.turn + 1 }
  let b := a.tick 1 1 1
  if s.turn % 2 = 0 then slotOr a s.nextSlot (takenOr a.ownStep (.next b))
  else takenOr b.ownStep (slotOr b s.nextSlot (.next b))

/-- What happens next: the head of the agenda, or the model's own choice. -/
def nextHappening (s : State) : Host.Outcome State Fault Refusal :=
  match s.agenda with
  | h :: rest => happen { s with agenda := rest } h
  | [] => defaultStep s

end Sys2Proof.Machine
end

