-- ==== Sys2Proof/Machine/Step.lean ====
section
/-!
DEFINITION. One step of the device, and the placing of one instruction where the next step fetches.
-/
namespace Sys2Proof.Machine
open Sys2Proof

/-- One step: what happens next, and then the quiescence tree's observation of the state it leaves (R364). -/
def step (s : State) : Host.Outcome State Fault Refusal :=
  match nextHappening s with
  | .next t => .next t.observed
  | o => o

/-- The address at which `withFetchWord` places its image: the page of the code, by the same virtual and physical address. -/
def placePage : Nat := 0x10000

/-- The kernel of `withFetchWord`: one role, and one word of code. -/
def placeImage : Image := { va := placePage, codeOff := 64, codeLen := 4, roles := [{ entry := 0, groups := 1, vbud := 16 }] }

/-- The launch of `withFetchWord`. -/
def placeLaunch : Launch :=
  { uid := 1, asid := 1, phase := .ready, img := placeImage, ranges := [{ rd := true, wr := false, ex := true, lo := placePage, hi := placePage + 65536 }] }

/-- The team of `withFetchWord`. -/
def placeTeam : Team := { uid := 1, launch := 1, asid := 1, index := 0, core := 0 }

/-- The group of `withFetchWord`: 32 runnable threads at PC 0. -/
def placeGroup : Group :=
  { uid := 1, team := 1, launch := 1, asid := 1, idx := 0, role := 0, core := 0, part := 0, slot := 0, threads := List.replicate 32 {}
    s := List.replicate 192 0#32, q := 0#4, k := List.replicate 16 {} }

/-- The translation of the code page. -/
def placeTlb : Tlb :=
  { unit := 0, asid := 1, va := placePage, span := 65536, dev := 0, pa := placePage, rd := true, wr := false, ex := true, a := true, d := false
    kv := false, mig := false, mt := 0, ext := 65536 }

/-- The fault ring of the placed context: full, so that a task which the placed word ends has its records counted as dropped (R378). -/
def placeRing : FaultRing := { head := 1023 }

/-- The state with one word placed where the next step fetches: a launch with one resident team of one group at the first word of its code stands in
place of whatever was placed before. -/
def State.withFetchWord (s : State) (nbits w : Nat) : State :=
  { s with
    agenda := [], turn := 0, issued := [], groups := [placeGroup], teams := [placeTeam], launches := [placeLaunch]
    contexts := [{ asid := 1, root := 0, ring := placeRing }]
    tlb := [{ placeTlb with dev := s.devid }]
    mem := putBytes s.mem (placePage + 64) (natLe 4 (w % 2 ^ nbits)) }

end Sys2Proof.Machine
end

