-- ==== Sys2Proof/Safety.lean ====
section
/-!
DEFINITION. The terms in which claims about the device are made: a group that issues a word for some of its lanes and can go on, what each lane's thread
is after a word that completes, and the canonical form of the device's memories.
-/
namespace Sys2Proof.Machine
open Sys2Proof

/-- The PC of an issue: that of its lowest lane. -/
def pcOf (g : Group) (ls : List Nat) : Word := (g.thread (ls.headD 0)).pc

/-- The pending hints of an issue: those of its lowest lane. -/
def hintsOf (g : Group) (ls : List Nat) : Hints := (g.thread (ls.headD 0)).hints

/-- Group `g` of the state has been given the issue slot for the lanes `ls` (R112, R114), and its team is under no order to stop (R382). -/
structure Issues (s : State) (g : Group) (ls : List Nat) : Prop where
  sel   : s.sel = { grp := g.uid, lanes := ls }
  group : s.group? g.uid = some g
  nonempty : ls ≠ []
  nodup : ls.Nodup
  lanes : ∀ l ∈ ls, l < 32
  size  : g.threads.length = 32
  runs  : ∀ l ∈ ls, (g.thread l).st = .runnable
  order : (s.team? g.team).bind (·.stop) = none

/-- The issue of a group that issues and whose team is under no order: the record that its word reads. -/
def State.issueFor (s : State) (g : Group) (ls : List Nat) (op : Nat) (st : Bool) : Issue :=
  { g := g, lanes := ls, pc := pcOf g ls, hints := hintsOf g ls, op := BitVec.ofNat 8 op, st := st, codeLen := (s.groupCode g).codeLen, vbud := s.budget g
    handler := (s.groupCode g).trap, slow := ls.filter fun l => !(trackers s g.uid l 0 ++ trackers s g.uid l 1).isEmpty }

/-- No register of a list is the target of a token still PEND in any lane of the issue (R121). -/
def FreeRegs (s : State) (g : Group) (ls : List Nat) (rs : List Nat) : Prop := ∀ l ∈ ls, ∀ r ∈ rs, trackers s g.uid l r = []

/-- The thread has nothing pending, or a pending result that has not landed. -/
def Thread.unlanded (t : Thread) : Prop := t.pend = [] ∨ ∃ p ∈ t.pend, p.landed = false

/-- Under a settle word, no lane has only results that have landed already: they land after their thread has parked to settle (R123). -/
def Unlanded (st : Bool) (g : Group) (ls : List Nat) : Prop := st = true → ∀ l ∈ ls, (g.thread l).unlanded

/-- A thread as it has completed its word at `pc` and goes on at `n` (R89, R144); with S set and a result pending it parks to settle (R123). -/
def wentOn (st : Bool) (now : Nat) (pc : Word) (n : Next) (t : Thread) : Thread :=
  let t := { advance t pc n with stopped := none }
  if st && !t.pend.isEmpty then { t with st := .parked .settle, wake := .settle, parkedAt := now } else t

/-- What a word needs of the group that issues it: its opcode takes the pending hints (R95), and its results settle after it (`Unlanded`). -/
structure WordReady (s : State) (g : Group) (ls : List Nat) (op : Nat) (st : Bool) : Prop where
  issues   : Issues s g ls
  unlanded : Unlanded st g ls
  accepts  : acceptsHints op (hintsOf g ls) = true

/-- A lane's thread as it has completed its word and goes on to the next. -/
def nextThread (s : State) (g : Group) (ls : List Nat) (st : Bool) (t : Thread) : Thread := wentOn st s.timeNs (pcOf g ls) (.fall (pcOf g ls)) t

/-- The guard of a word for a lane (R84, R93). -/
def guardOn (g : Group) (ls : List Nat) (code : Nat) (t : Thread) : Bool := takesPart (hintsOf g ls) code t

/-- A long-class result, as it is held until its thread closes its segment (R121, R158, R160). -/
def pendingOf (s : State) (g : Group) (ls : List Nat) (op : Nat) (dest : Dest) (r : Word × FFlags) : Pending :=
  { dest := dest, val := r.1, flags := r.2, te := trapEnables g, pc := pcOf g ls, wid := s.nextId, op := BitVec.ofNat 8 op }

/-- A thread with more pending results. -/
def Thread.withPending (t : Thread) (ps : List Pending) : Thread := { t with pend := t.pend ++ ps }

/-- A group with the threads of some lanes changed, and nothing else. -/
def Group.onLanes (g : Group) (ls : List Nat) (f : Nat → Thread → Thread) : Group :=
  { g with threads := g.threads.mapIdx fun l t => if l ∈ ls then f l t else t }

/-- The state with the threads of some lanes of a group changed, and nothing else: every other thread and group, every scalar register, predicate and
token, every byte of memory and every other field is as before. -/
def State.onLanes (s : State) (g : Group) (ls : List Nat) (f : Nat → Thread → Thread) : State := s.setGroup (g.onLanes ls f)

/-- The state with a group's scalar state changed and its issuing lanes gone on, and nothing else. -/
def State.scalarNext (s : State) (g : Group) (ls : List Nat) (st : Bool) (g' : Group) : State :=
  s.setGroup (g'.onLanes ls fun _ t => nextThread s g ls st t)

/-- A thread that parks before its word (R117). -/
def parkedBefore (now : Nat) (r : Reason) (w : Wake) (t : Thread) : Thread := { t with st := .parked r, wake := w, parkedAt := now }

/-- The virtual address of a lane with the byte offset of a pending `HIMM` (R191). -/
def addrOf (g : Group) (ls : List Nat) (t : Thread) (a : Nat) : Nat := (((t.vpair a : Int) + offOf (hintsOf g ls)) % (2 ^ 64 : Nat)).toNat

/-- The preconditions that a word's pending `HDEP` samples as it binds a token (R92). -/
def sampledBy (g : Group) (ls : List Nat) : List Pre := match (hintsOf g ls).dep with
  | some d => samplePre g d
  | none => []

/-- The operation that a word binds to `k`k (R193, R216): of its group, with its lanes, its place in the group's order and its preconditions. -/
def State.newOp (s : State) (g : Group) (ls : List Nat) (k : Nat) (kind : OpKind) : Op :=
  let d := (hintsOf g ls).dep.getD { mask := 0#16, pol := 0#2, badp := false }
  { id := s.nextId, asid := g.asid, launch := g.launch, team := g.team, grp := g.uid, lanes := ls, kd := k, seq := g.seq, pc := pcOf g ls, kind := kind
    pre := sampledBy g ls, pol := d.pol, badp := d.badp, issuedAt := s.timeNs }

/-- The operations of the state with the one that a PEND token names detached from it (R216). -/
def State.detachedOps (s : State) (g : Group) (k : Nat) : List Op :=
  if (g.token k).st = .pend then s.ops.map fun o => if o.id = (g.token k).op then { o with bound := false } else o else s.ops

/-- The group with `k`k PEND and bound to the next operation, its issue order advanced, and entries added to its store queue. -/
def Group.binding (g : Group) (k id : Nat) (q : List QEntry) : Group := { g.setToken k { st := .pend, op := id } with seq := g.seq + 1, sq := g.sq ++ q }

/-- The state after a word that binds `k`k to an operation (R193, R216): the operation stands among those in flight, the token is PEND, the lanes have gone
on; no memory, no register and no other token has changed. -/
def State.boundNext (s : State) (g : Group) (ls : List Nat) (st : Bool) (k : Nat) (o : Op) (q : List QEntry) : State :=
  State.onLanes { s with nextId := s.nextId + 1, ops := s.detachedOps g k ++ [o] } (g.binding k s.nextId q) ls fun _ t => nextThread s g ls st t

/-- The trap that a word raises for a thread (R367, R369). -/
def trapOf (op : Nat) (code : Word) (addr : DWord) (size : Nat) (t : Thread) : TrapReq :=
  { tcode := code, fpc := t.pc, cpc := t.pc - BitVec.ofNat 32 (4 * t.hints.count), npc := t.pc + 4#32, addr := addr, op := BitVec.ofNat 8 op, size := size }

/-- A thread as it stands at the first word of its handler (R368). -/
def handlerThread (h lane : Nat) (code : Word) (t : Thread) : Thread :=
  { t with v := (t.v.set 0 (BitVec.ofNat 32 lane)).set 1 code, hnd := true, pc := BitVec.ofNat 32 h, hints := {}, st := .runnable, wake := .none, trap := none }

/-- A group with other trap frames. -/
def Group.withFrames (g : Group) (m : Memory) : Group := { g with frames := m }

/-- The state as every thread of an issue set has taken a trap of its own and entered the handler (R368, R369): each has written its frame, in the team's
save area too. -/
def State.trapNext (s : State) (g : Group) (ls : List Nat) (h op : Nat) (r : Nat → Word × DWord × Nat) : State :=
  let frame := fun l => frameBytes (g.thread l) (trapOf op (r l).1 (r l).2.1 (r l).2.2 (g.thread l))
  let g' := (g.onLanes ls fun l t => handlerThread h l (r l).1 t).withFrames (ls.foldl (fun m l => putBytes m (64 * l) (frame l)) g.frames)
  ls.foldl (fun s l => s.framesOut g (64 * l) (frame l)) (s.setGroup g')

/-- An issue whose threads may take a trap at once (R367, R368, R370): the image gives a handler, no thread stands in it, none holds a pending result, and
no operation in flight is to write `v0` or `v1`. -/
structure TrapReady (s : State) (g : Group) (ls : List Nat) (h : Nat) : Prop where
  issues  : Issues s g ls
  handler : (s.groupCode g).trap = some h
  outside : ∀ l ∈ ls, (g.thread l).hnd = false
  settled : ∀ l ∈ ls, (g.thread l).pend = []
  free    : FreeRegs s g ls [0, 1]

/-- Every lane of an issue parks before its word (R117). -/
def State.parkNext (s : State) (g : Group) (ls : List Nat) (r : Reason) (w : Wake) : State := s.onLanes g ls fun _ t => parkedBefore s.timeNs r w t

/-- A word has bound `k`k to the operation `o` (R193, R216): it is in flight, the token is PEND and names it, the lanes have gone on; every other lane,
the scalar registers and predicates, every other token and all memory are as before. -/
structure Binds (s : State) (g : Group) (ls : List Nat) (st : Bool) (k : Nat) (t : State) (o : Op) : Prop where
  flight : o ∈ t.ops
  owner  : o.grp = g.uid ∧ o.lanes = ls ∧ o.kd = k ∧ o.bound = true ∧ o.seq = g.seq ∧ o.pre = sampledBy g ls
  group  : ∃ g', t.group? g.uid = some g' ∧ (g'.token k).st = .pend ∧ (g'.token k).op = o.id ∧ (∀ j, j ≠ k → g'.token j = g.token j) ∧ g'.s = g.s ∧
    g'.q = g.q ∧ g'.fpst = g.fpst ∧ g'.seq = g.seq + 1 ∧ g'.sq = g.sq ∧ ∀ l < 32, g'.thread l = if l ∈ ls then nextThread s g ls st (g.thread l) else g.thread l
  others : ∀ u, u ≠ g.uid → t.group? u = s.group? u
  memory : t.mem = s.mem

/-- An operation waits in its context's engine queue (R218). -/
def State.queued (t : State) (asid id : Nat) : Prop := ∀ c ∈ t.contexts, c.asid = asid → id ∈ c.engq

/-- The memories of the device have the canonical form: HBM and windows, the mailbox area, the recovery window. -/
abbrev State.memWf (s : State) : Prop := s.mem.wf = true ∧ s.mbox.wf = true ∧ s.recWin.wf = true

/-! ## Operations that go on in steps -/

/-- An operation in flight whose group is resident: bound to its token, with no precondition and no export. -/
structure InFlight (s : State) (g : Group) (o : Op) : Prop where
  op    : s.op? o.id = some o
  group : s.group? o.grp = some g
  live  : g.resident = true ∧ g.finished = false
  bound : o.bound = true ∧ o.kd < g.k.length
  plain : o.pre = [] ∧ o.exprts = []

/-- An operation has finished (R193, R217): it is in flight no more, and its token has its final state, a cause for POISON only. -/
def Finished (t : State) (o : Op) (st : TokState) (cause : BitVec 8) : Prop :=
  t.op? o.id = none ∧ ∃ g, t.group? o.grp = some g ∧ (g.token o.kd).st = st ∧ (g.token o.kd).cause = if st = .poison then cause else 0#8

end Sys2Proof.Machine
end

