-- ==== Sys2Proof/Certificates/Slice0/Obligations.lean ====
section
/-!
DEFINITION. The statements for the provers. A statement about a word starts from a group that issues it (`Issues`, `WordReady`): any state, any lanes, any
registers within the role's register budget, no operand the target of a PEND token. `State.onLanes` and `State.scalarNext` say that the lanes named take
the thread given, the group the scalar state given, and that nothing else of the device changes: they are the frame.
-/
namespace Sys2Proof.Claims
open Sys2Proof Sys2Proof.Machine

/-- The short-class V3 words of R127 and R128 with their opcodes and effects, on the contents of va, vb and vd. -/
def intRows (st : Bool) (d a b : BitVec 7) (g : BitVec 2) : List (Nat × Instr × (Word → Word → Word → Word)) :=
  [ (0x30, .iadd st d a b g, fun x y _ => x + y),
    (0x31, .isub st d a b g, fun x y _ => x - y),
    (0x35, .imin st d a b g, fun x y _ => if x.toInt < y.toInt then x else y),
    (0x36, .imax st d a b g, fun x y _ => if x.toInt > y.toInt then x else y),
    (0x37, .iabs st d a g, fun x _ _ => if x.toInt < 0 then -x else x),
    (0x38, .ineg st d a g, fun x _ _ => -x),
    (0x39, .and st d a b g, fun x y _ => x &&& y),
    (0x3A, .or st d a b g, fun x y _ => x ||| y),
    (0x3B, .xor st d a b g, fun x y _ => x ^^^ y),
    (0x3C, .not st d a g, fun x _ _ => ~~~x),
    (0x3D, .shl st d a b g, fun x y _ => if y.toNat < 32 then BitVec.ofNat 32 (x.toNat * 2 ^ y.toNat) else 0#32),
    (0x3E, .shr st d a b g, fun x y _ => if y.toNat < 32 then BitVec.ofNat 32 (x.toNat / 2 ^ y.toNat) else 0#32),
    (0x3F, .sar st d a b g, fun x y _ => BitVec.ofInt 32 (x.toInt / 2 ^ (min y.toNat 31))),
    (0x40, .popc st d a g, fun x _ _ => BitVec.ofNat 32 ((List.range 32).filter fun i => x.getLsbD i).length),
    (0x41, .clz st d a g, fun x _ _ => BitVec.ofNat 32 ((List.range 32).reverse.takeWhile fun i => !x.getLsbD i).length),
    (0x42, .brev st d a g, fun x _ _ => x.reverse),
    (0x43, .bfe st d a b g, fun x y _ => bfeW x y),
    (0x44, .bfi st d a b g, fun x y z => bfiW x y z),
    (0x46, .mov st d a g, fun x _ _ => x) ]

/-- The three-register words of the long class of R127, R169, R174 and R175: the value and the flags they leave pending for vd, from the hints, FPST and the
contents of va, vb and vd. -/
def longRows3 (st : Bool) (d a b : BitVec 7) (g : BitVec 2) : List (Nat × Instr × (Hints → Word → Word → Word → Word → Word × FFlags)) :=
  [ (0x32, .imul st d a b g, fun _ _ x y _ => (x * y, 0#5)),
    (0x33, .imulh st d a b g, fun _ _ x y _ => (BitVec.ofInt 32 (x.toInt * y.toInt / 2 ^ 32), 0#5)),
    (0x34, .imad st d a b g, fun _ _ x y z => (x * y + z, 0#5)),
    (0x60, .fadd st d a b g, fun h _ x y _ => wordFl (fmtF32.fadd (modeOf h) x.toNat y.toNat)),
    (0x61, .fsub st d a b g, fun h _ x y _ => wordFl (fmtF32.fsub (modeOf h) x.toNat y.toNat)),
    (0x62, .fmul st d a b g, fun h _ x y _ => wordFl (fmtF32.fmul (modeOf h) x.toNat y.toNat)),
    (0x63, .ffma st d a b g, fun h _ x y z => wordFl (fmtF32.ffma (modeOf h) x.toNat y.toNat z.toNat)),
    (0x64, .fmin st d a b g, fun _ _ x y _ => wordFl (fminmax false x.toNat y.toNat)),
    (0x65, .fmax st d a b g, fun _ _ x y _ => wordFl (fminmax true x.toNat y.toNat)),
    (0x6D, .hadd2 st d a b g, fun h f x y z => halves (fun u v _ => (halfFmt (f.getLsbD 15)).fadd (modeOf h) u v) x y z),
    (0x6E, .hmul2 st d a b g, fun h f x y z => halves (fun u v _ => (halfFmt (f.getLsbD 15)).fmul (modeOf h) u v) x y z),
    (0x6F, .hfma2 st d a b g, fun h f x y z => halves ((halfFmt (f.getLsbD 15)).ffma (modeOf h)) x y z),
    (0x74, .sclx st d a b g, fun h _ x y _ => wordFl (sclxCode (modeOf h) x.toNat y.toNat)) ]

/-- The two-register words of the long class of R171 to R173. -/
def longRows1 (st : Bool) (d a : BitVec 7) (g : BitVec 2) : List (Nat × Instr × (Hints → Word → Word × FFlags)) :=
  [ (0x67, .frcp st d a g, fun h x => wordFl (frcpVal (modeOf h) (fmtF32.decode x.toNat))),
    (0x68, .frsq st d a g, fun h x => wordFl (frsqVal (modeOf h) (fmtF32.decode x.toNat))),
    (0x69, .fex2 st d a g, fun h x => wordFl (fex2Val (modeOf h) (fmtF32.decode x.toNat))),
    (0x6A, .flg2 st d a g, fun h x => wordFl (flg2Val (modeOf h) (fmtF32.decode x.toNat))),
    (0x6B, .fcls st d a g, fun _ x => (BitVec.ofNat 32 (fclsCode x.toNat), 0#5)),
    (0x6C, .frnd st d a g, fun h x => wordFl (frndCode (modeOf h) x.toNat)) ]

/-- The conversion words of R177 to R179, which carry no guard: their opcode, the condition on their codes, and what they leave pending for vd. -/
def convRows (st : Bool) (d a : BitVec 7) (e f : BitVec 4) (n : BitVec 5) (b : BitVec 2) : List (Nat × Instr × Prop × (Hints → Word → Word → Word × FFlags)) :=
  [ (0x70, .cvt st d a e f, cvtFormat e.toNat ∧ cvtFormat f.toNat ∧ e ≠ f, fun h x _ => cvtResult (modeOf h) (modOf h).ovf e.toNat f.toNat x),
    (0x71, .pack st d a f n, f.toNat < 12 ∧ f.toNat ≠ 0 ∧ f.toNat ≠ 9 ∧ n.toNat < fmtCount f.toNat,
      fun h x z => packResult (modeOf h) (modOf h).ovf f.toNat n.toNat x z),
    (0x72, .unpk st d a f n, f.toNat < 12 ∧ f.toNat ≠ 0 ∧ f.toNat ≠ 8 ∧ f.toNat ≠ 9 ∧ n.toNat < fmtCount f.toNat, fun _ x _ => unpkResult f.toNat n.toNat x),
    (0x73, .qnt st d a f b, (3 ≤ f.toNat ∧ f.toNat ≤ 8) ∨ f = 10#4, fun _ x z => qntResult f.toNat b.toNat x z) ]

/-- The `DQNT` words of R180 with their opcodes and formats. -/
def dqntRows (st : Bool) (d a b : BitVec 7) (c : BitVec 2) : List (Nat × Instr × Nat) :=
  [ (0x78, .dqntE4m3 st d a b c, 3), (0x79, .dqntE5m2 st d a b c, 4), (0x7A, .dqntE2m3 st d a b c, 5), (0x7B, .dqntE3m2 st d a b c, 6),
    (0x7C, .dqntE2m1 st d a b c, 7), (0x7D, .dqntSx4 st d a b c, 8), (0x7E, .dqntI8 st d a b c, 10) ]

/-- The three-register scalar words of the short class of R137. -/
def scalarRows (st : Bool) (d a : BitVec 8) (b : BitVec 7) : List (Nat × Instr × (Word → Word → Word)) :=
  [ (0x50, .sadd st d a b, fun x y => x + y), (0x52, .ssub st d a b, fun x y => x - y),
    (0x54, .slogAnd st d a b, fun x y => x &&& y), (0x55, .slogOr st d a b, fun x y => x ||| y),
    (0x56, .slogXor st d a b, fun x y => x ^^^ y), (0x57, .slogAndn st d a b, fun x y => x &&& ~~~y),
    (0x58, .sshfShl st d a b, fun x y => if y.toNat < 32 then BitVec.ofNat 32 (x.toNat * 2 ^ y.toNat) else 0#32),
    (0x59, .sshfShr st d a b, fun x y => if y.toNat < 32 then BitVec.ofNat 32 (x.toNat / 2 ^ y.toNat) else 0#32),
    (0x5A, .sshfSar st d a b, fun x y => BitVec.ofInt 32 (x.toInt / 2 ^ (min y.toNat 31))) ]

/-- The branches of R140 with the condition under which a lane takes them. -/
def branchRows (st : Bool) (o : BitVec 23) : List (Nat × Instr × (Group → Hints → Thread → Bool)) :=
  [ (0x10, .bra st o, fun _ _ _ => true),
    (0x11, .braQ0 st o, fun g _ _ => g.qget 0), (0x12, .braNotQ0 st o, fun g _ _ => !g.qget 0),
    (0x13, .braQ1 st o, fun g _ _ => g.qget 1), (0x14, .braNotQ1 st o, fun g _ _ => !g.qget 1),
    (0x15, .braQ2 st o, fun g _ _ => g.qget 2), (0x16, .braNotQ2 st o, fun g _ _ => !g.qget 2),
    (0x17, .braQ3 st o, fun g _ _ => g.qget 3), (0x18, .braNotQ3 st o, fun g _ _ => !g.qget 3),
    (0x19, .braP0 st o, fun _ h t => genGuard h (t.pget 0) t), (0x1A, .braNotP0 st o, fun _ h t => genGuard h (!t.pget 0) t),
    (0x1B, .braP1 st o, fun _ h t => genGuard h (t.pget 1) t) ]

/-- A word made of bytes of a source lane's register, as an entry of a pattern says (R182): entry bits [1:0], [3:2], [5:4], [7:6] select the byte for each
byte of the result, bits [12:8] the lane; with bit 15 set the result is zero. -/
def permuted (g : Group) (a e : Nat) : Word :=
  if bitOf e 15 then 0#32
  else
    let y := (g.thread (bitsOf e 8 5)).vget a
    let byte := fun (j : Nat) => (y.extractLsb' (8 * bitsOf e (2 * j) 2) 8).setWidth 32 <<< (8 * j)
    byte 0 ||| byte 1 ||| byte 2 ||| byte 3

/-- The lane that `SHFL` reads (R184): lane n, l − n, l + n, or l XOR n; a lane outside 0 to 31 is the reading lane itself. -/
def shuffled (m n l : Nat) : Nat :=
  if m = 0 then n
  else if m = 1 then (if n ≤ l then l - n else l)
  else if m = 2 then (if l + n < 32 then l + n else l)
  else (if l ^^^ n < 32 then l ^^^ n else l)

/-- The lanes of an issue set that take part in a word. -/
def takersOf (g : Group) (ls : List Nat) (code : Nat) : List Nat := ls.filter fun l => guardOn g ls code (g.thread l)

/-- The left fold of an operator of `SCAN` and `RDX` over values, with the flags of every step; of no value it is the operator's identity (R185). -/
def folded (o f : Nat) : List Word → Word × FFlags
  | [] => (foldIdentity o f, 0#5)
  | v :: vs => vs.foldl (fun x y => ((foldOp o f x.1 y).1, x.2 ||| (foldOp o f x.1 y).2)) (v, 0#5)

/-- Does the thread's top stack entry belong to a loop that ends at the word? -/
def endsHere (t : Thread) (pc : Word) : Bool := t.stack.head?.any fun e => e.isLoop && e.fin = pc

/-- The last word of the body of a `LOOP` (R144). -/
def loopFin (g : Group) (ls : List Nat) (i : BitVec 9) : Word := pcOf g ls + 4#32 * (i.setWidth 32 + 1#32)

/-- The system registers of R374 and R426, each with the value that a read gives and the group's latches after it. -/
def systemRows (s : State) (g : Group) : List (BitVec 15 × Word × Group) :=
  let d := if g.core < 96 then s.die0 else s.die1
  [ (0x00#15, BitVec.ofNat 32 d.cycles, { g with cycHi := BitVec.ofNat 32 (d.cycles / 2 ^ 32) }),
    (0x01#15, g.cycHi, g),
    (0x02#15, BitVec.ofNat 32 s.timeNs, { g with timHi := BitVec.ofNat 32 (s.timeNs / 2 ^ 32) }),
    (0x03#15, g.timHi, g),
    (0x08#15, placeWord s g, g),
    (0x09#15, BitVec.ofNat 32 (s.devid * 2 ^ 22 + g.asid * 2 ^ 13), g),
    (0x0A#15, preqWord s g, g),
    (0x10#15, g.fpst, g),
    (0x40#15, clkWord d, g),
    (0x41#15, BitVec.ofNat 32 (s.pwr % 2 ^ 16 + s.limitW * 2 ^ 16), g),
    (0x42#15, BitVec.ofNat 32 (d.temp % 256 + s.tempUmber % 256 * 256 + s.tempHbm % 256 * 65536), g),
    (0x43#15, BitVec.ofNat 32 (d.thrt / 1000), g),
    (0x44#15, if d.hold then 1#32 else 0#32, g) ]

/-- The `MMA` words of R250 with their opcodes and formats. -/
def mmaRows (st : Bool) (k : BitVec 4) (c : BitVec 5) (a b : BitVec 7) : List (Nat × Instr × Nat) :=
  [ (0xC0, .mmaBf16 st k c a b, 1), (0xC1, .mmaF16 st k c a b, 2), (0xC2, .mmaE4m3 st k c a b, 3), (0xC3, .mmaE5m2 st k c a b, 4),
    (0xC4, .mmaE2m3 st k c a b, 5), (0xC5, .mmaE3m2 st k c a b, 6), (0xC6, .mmaI8 st k c a b, 10), (0xC7, .mmaE2m1 st k c a b, 7),
    (0xC8, .mmaSx4 st k c a b, 8) ]

/-- The registers that a V3 word names, in the order vd, va and, where it has one, vb (R80, R121). -/
def namedRegs (op d a b : Nat) : List Nat :=
  if [0x37, 0x38, 0x3C, 0x40, 0x41, 0x42, 0x46, 0x67, 0x68, 0x69, 0x6A, 0x6B, 0x6C].contains op then [d, a] else [d, a, b]

/-- The operand fields of the words that take preconditions and bind no token. -/
structure Fields where
  (d a : BitVec 7) (x y : BitVec 8) (k : BitVec 4) (z p : BitVec 3) (gd q : BitVec 2) (c : BitVec 5) (m : BitVec 16) (e u t b : BitVec 1)

/-- Those words (R92, R95) with their opcodes and what makes their fields legal (R99). -/
def gatedRows (s : State) (g : Group) (st : Bool) (f : Fields) : List (Nat × Instr × Prop) :=
  let r := if 2 ^ f.z.toNat ≤ 4 then 1 else 2 ^ f.z.toNat / 4
  let spad : Prop := f.z.toNat < 5 ∧ f.d.toNat % r = 0 ∧ f.d.toNat + r ≤ s.budget g ∧ f.a.toNat < s.budget g
  let pairX : Prop := f.x.toNat % 2 = 0 ∧ f.x.toNat + 2 ≤ 192
  let pairY : Prop := f.y.toNat % 2 = 0 ∧ f.y.toNat + 2 ≤ 192
  let queue : Prop := (s.queue? g f.p.toNat).isSome
  [ (0x92, .lds st f.d f.a f.z f.gd, spad), (0x93, .sts st f.d f.a f.z f.gd, spad),
    (0x96, .prf st f.q f.a f.z f.gd, f.q ≠ 3#2 ∧ f.z.toNat < 5 ∧ f.a.toNat % 2 = 0 ∧ f.a.toNat + 2 ≤ s.budget g),
    (0x97, .fence st f.p f.q f.gd, f.q ≠ 0#2 ∧ f.p ≠ 7#3), (0x99, .ptst st f.d f.a f.gd, f.d.toNat < s.budget g ∧ f.a.toNat < s.budget g),
    (0xA0, .wait st f.q f.e f.m f.u f.t f.b, True), (0xA1, .waitc st f.k f.x f.q f.e f.t f.b, pairX), (0xA2, .tst st f.k f.x 0#8 0#1, f.x.toNat < 192),
    (0xA2, .tst st f.k f.x f.y 1#1, f.x.toNat < 192 ∧ pairY), (0xA3, .tclr st f.m, True),
    (0xA4, .texp st f.k f.x f.y f.e f.u, (f.e = 1#1 ∨ f.u = 1#1) ∧ (f.u = 1#1 ∨ f.y = 0#8) ∧ pairX ∧ f.y.toNat < 192),
    (0xA7, .bwait st f.q f.e f.x f.y f.t f.b, pairX ∧ f.y.toNat < 192), (0xA8, .bpoll st f.q f.x f.y, pairX ∧ pairY),
    (0xB2, .sacq st f.x f.p, queue ∧ f.x.toNat < 192), (0xB3, .spop st f.x f.y f.p, queue ∧ f.x.toNat < 192 ∧ f.y.toNat < 192),
    (0xB4, .srel st f.x f.e f.p, queue ∧ f.x.toNat < 192), (0xCB, .acrel st f.c, True), (0xCD, .acz st f.c, True),
    (0xCE, .acrd st f.c f.d f.a, f.d.toNat < s.budget g), (0xCF, .acwr st f.c f.d f.a, f.d.toNat < s.budget g) ]

/-- The new value of a 32-bit atomic from the old value and the operand, by its OP (R206). -/
def atomValue (op : BitVec 3) (old x : Word) : Word :=
  match op.toNat with
  | 0 => old + x
  | 1 => if x.toInt < old.toInt then x else old
  | 2 => if x.toInt > old.toInt then x else old
  | 3 => old &&& x
  | 4 => old ||| x
  | 5 => old ^^^ x
  | 6 => x
  | _ => BitVec.ofNat 32 (fmtF32.fadd .rne old.toNat x.toNat).1

/-- A tile word with its version raised: VER is its low word (R211). -/
def versionUp (w n : Nat) : Nat := w / 2 ^ 32 * 2 ^ 32 + (w + n) % 2 ^ 32

/-- A packet is put on the wire: its type, destination, AUX and data. -/
def sentOut (t : State) (ty dst aux : Nat) (data : Bytes) : Prop :=
  ∃ x ∈ t.outPkts, x.2.ty.toNat = ty ∧ x.2.dst.toNat = dst ∧ x.2.aux.toNat = aux ∧ x.2.data = data

/-- A request is answered with its own TXID (R287). -/
def answeredWith (t : State) (p : Packet) (ty aux : Nat) (data : Bytes) : Prop :=
  ∃ x ∈ t.outPkts, x.2.ty.toNat = ty ∧ x.2.dst = p.src ∧ x.2.txid = p.txid ∧ x.2.aux.toNat = aux ∧ x.2.data = data

/-- A port is in service: only a hello travels on another (R288). -/
def portUp (s : State) (q : Nat) : Prop := ∃ x ∈ s.ports, x.idx = q ∧ x.up = true

/-- The minimal path to a device is open, its port in service, and not held back (R292). -/
def pathTo (s : State) (dev vc : Nat) : Prop := ∃ q, minPort (s.routeEntry dev) = some q ∧ s.occupancy q vc ≤ s.adth ∧ portUp s q

/-- A step's outcome, with the quiescence tree's observation of the state that it leaves (R364). -/
def observedNext : Host.Outcome State Fault Refusal → Host.Outcome State Fault Refusal
  | .next t => .next t.observed
  | o => o

end Sys2Proof.Claims

section
open Sys2Proof Sys2Proof.Machine Sys2Proof.Claims

/-! ## Vector integer, predicate and scalar words -/

/-- Each short-class V3 word completes: every guard-true lane writes its vd, every lane goes on, and nothing else changes (R84, R126 to R128). -/
def Obligations.IntegerWordsWriteTheirResult : Prop :=
  ∀ (s : State) (g : Group) (ls : List Nat) (st : Bool) (d a b : BitVec 7) (gd : BitVec 2),
    ∀ row ∈ intRows st d a b gd, WordReady s g ls row.1 st → FreeRegs s g ls [d.toNat, a.toNat, b.toNat] →
    d.toNat < s.budget g → a.toNat < s.budget g → b.toNat < s.budget g →
      exec row.2.1 s = .next (s.onLanes g ls fun _ t => nextThread s g ls st
        (if guardOn g ls gd.toNat t then t.vset d.toNat (row.2.2 (t.vget a.toNat) (t.vget b.toNat) (t.vget d.toNat)) else t))

/-- `BFE` and `BFI` are the short-class words of opcodes 0x43 and 0x44: each guard-true lane writes vd from its va, vb and, for `BFI`, vd at issue. Bit by
bit, the field of `len` bits at `pos` is extracted with zero or sign extension, and inserted; bits above bit 31 read as 0 and are dropped; the other bits of
vb are ignored (R128). -/
def Obligations.BitFieldsBitByBit : Prop :=
  (∀ (s : State) (g : Group) (ls : List Nat) (st : Bool) (d a b : BitVec 7) (gd : BitVec 2), FreeRegs s g ls [d.toNat, a.toNat, b.toNat] →
    d.toNat < s.budget g → a.toNat < s.budget g → b.toNat < s.budget g →
    (WordReady s g ls 0x43 st → exec (.bfe st d a b gd) s = .next (s.onLanes g ls fun _ t => nextThread s g ls st
      (if guardOn g ls gd.toNat t then t.vset d.toNat (bfeW (t.vget a.toNat) (t.vget b.toNat)) else t))) ∧
    (WordReady s g ls 0x44 st → exec (.bfi st d a b gd) s = .next (s.onLanes g ls fun _ t => nextThread s g ls st
      (if guardOn g ls gd.toNat t then t.vset d.toNat (bfiW (t.vget a.toNat) (t.vget b.toNat) (t.vget d.toNat)) else t)))) ∧
  (∀ (st : Bool) (d a b : BitVec 7) (gd : BitVec 2), let w (op : Nat) := (if st then 2 ^ 31 else 0) + op * 2 ^ 23 + d.toNat * 2 ^ 16 + a.toNat * 2 ^ 9 + b.toNat * 2 ^ 2 + gd.toNat
    encode (.bfe st d a b gd) = some (w 0x43) ∧ encode (.bfi st d a b gd) = some (w 0x44)) ∧
  ∀ (x y z : Word) (i : Nat), i < 32 →
    (bfeW x y).getLsbD i = (if min (bitsOf y.toNat 8 6) 32 = 0 then false
      else if i < min (bitsOf y.toNat 8 6) 32 then x.getLsbD (bitsOf y.toNat 0 5 + i)
      else y.getLsbD 16 && x.getLsbD (bitsOf y.toNat 0 5 + min (bitsOf y.toNat 8 6) 32 - 1)) ∧
    (bfiW x y z).getLsbD i = (if bitsOf y.toNat 0 5 ≤ i ∧ i < bitsOf y.toNat 0 5 + min (bitsOf y.toNat 8 6) 32 then x.getLsbD (i - bitsOf y.toNat 0 5)
      else z.getLsbD i)

/-- The immediate and scalar-operand words, `SEL` and `LEA` complete: each lane that takes part writes its register or pair (R91, R129 to R131). -/
def Obligations.ImmediateAndScalarForms : Prop :=
  ∀ (s : State) (g : Group) (ls : List Nat) (st : Bool) (d a b : BitVec 7), d.toNat < s.budget g → a.toNat < s.budget g → b.toNat < s.budget g →
    FreeRegs s g ls [d.toNat, a.toNat, b.toNat] →
    (∀ i : BitVec 9, WordReady s g ls 0x49 st → exec (.iaddImm st d a i) s = .next (s.onLanes g ls fun _ t => nextThread s g ls st
      (if guardOn g ls 0 t then t.vset d.toNat (t.vget a.toNat + imm9Of (hintsOf g ls) i) else t))) ∧
    (∀ n : BitVec 5, WordReady s g ls 0x4A st → exec (.shlImm st d a n) s = .next (s.onLanes g ls fun _ t => nextThread s g ls st
      (if guardOn g ls 0 t then t.vset d.toNat (BitVec.ofNat 32 ((t.vget a.toNat).toNat * 2 ^ n.toNat)) else t))) ∧
    (∀ i : BitVec 16, WordReady s g ls 0x4C st → (∀ m, (hintsOf g ls).imm = some m → m.toNat < 2 ^ 16) →
      exec (.movi st d i) s = .next (s.onLanes g ls fun _ t => nextThread s g ls st
        (if guardOn g ls 0 t then t.vset d.toNat (imm16Of (hintsOf g ls) i) else t))) ∧
    (∀ (r : BitVec 8) (gd : BitVec 1), r.toNat < 192 → WordReady s g ls 0x4D st →
      exec (.iaddScalar st d a r gd) s = .next (s.onLanes g ls fun _ t => nextThread s g ls st
        (if guardOn g ls gd.toNat t then t.vset d.toNat (t.vget a.toNat + g.sget r.toNat) else t))) ∧
    (∀ (r : BitVec 8) (gd : BitVec 1), r.toNat < 192 → WordReady s g ls 0x4E st →
      exec (.movScalar st d r gd) s = .next (s.onLanes g ls fun _ t => nextThread s g ls st
        (if guardOn g ls gd.toNat t then t.vset d.toNat (g.sget r.toNat) else t))) ∧
    (∀ p : BitVec 2, WordReady s g ls 0x45 st → (p ≠ 0#2 ∨ (modOf (hintsOf g ls)).gen = true) →
      exec (.sel st d a b p) s = .next (s.onLanes g ls fun _ t => nextThread s g ls st
        (t.vset d.toNat (if guardOn g ls p.toNat t then t.vget a.toNat else t.vget b.toNat)))) ∧
    (∀ gd : BitVec 2, WordReady s g ls 0x48 st → d.toNat % 2 = 0 → a.toNat % 2 = 0 → d.toNat + 2 ≤ s.budget g → a.toNat + 2 ≤ s.budget g →
      FreeRegs s g ls [d.toNat + 1, a.toNat + 1] →
      exec (.lea st d a b gd) s = .next (s.onLanes g ls fun _ t => nextThread s g ls st
        (if guardOn g ls gd.toNat t then
          let r : DWord := BitVec.ofNat 64 (t.vpair a.toNat) + (t.vget b.toNat).signExtend 64
          (t.vset d.toNat (r.setWidth 32)).vset (d.toNat + 1) (r.extractLsb' 32 32)
        else t)))

/-- The predicate words complete: each guard-true lane writes its own predicate, at once (R85, R132, R133). -/
def Obligations.LanePredicatesAreWritten : Prop :=
  ∀ (s : State) (g : Group) (ls : List Nat) (st : Bool) (p : BitVec 3),
    (∀ (c : BitVec 4) (a b : BitVec 7) (gd : BitVec 2), c.toNat < 10 → WordReady s g ls 0x47 st → FreeRegs s g ls [a.toNat, b.toNat] →
      a.toNat < s.budget g → b.toNat < s.budget g →
      exec (.icmp st c p a b gd) s = .next (s.onLanes g ls fun _ t => nextThread s g ls st
        (if guardOn g ls gd.toNat t then t.pset p.toNat ((intCond c.toNat (t.vget a.toNat) (t.vget b.toNat)).getD false) else t))) ∧
    (∀ (c : BitVec 4) (a : BitVec 7) (i : BitVec 9), c.toNat < 10 → WordReady s g ls 0x4B st → FreeRegs s g ls [a.toNat] → a.toNat < s.budget g →
      exec (.icmpImm st c p a i) s = .next (s.onLanes g ls fun _ t => nextThread s g ls st
        (if guardOn g ls 0 t then t.pset p.toNat ((intCond c.toNat (t.vget a.toNat) (imm9Of (hintsOf g ls) i)).getD false) else t))) ∧
    (∀ (f : BitVec 4) (a b : BitVec 3) (gd : BitVec 2), WordReady s g ls 0x24 st →
      exec (.plop st f p 0#1 a b gd) s = .next (s.onLanes g ls fun _ t => nextThread s g ls st
        (if guardOn g ls gd.toNat t then t.pset p.toNat (f.getLsbD (2 * (t.pget a.toNat).toNat + (t.pget b.toNat).toNat)) else t)))

/-- The words that write a `q` register or copy a lane to a scalar register complete, once for the issue set; `VOTE.BALLOT` writes its vd in every lane that
takes part (R133 to R135, R138). The model's readings behind it: log entry 148. -/
def Obligations.GroupPredicatesAndVotes : Prop :=
  ∀ (s : State) (g : Group) (ls : List Nat) (st : Bool),
    (∀ (f : BitVec 4) (p a b : BitVec 3), p.toNat < 4 → a.toNat < 4 → b.toNat < 4 → WordReady s g ls 0x24 st →
      exec (.plop st f p 1#1 a b 0#2) s =
        .next (s.scalarNext g ls st (g.qset p.toNat (f.getLsbD (2 * (g.qget a.toNat).toNat + (g.qget b.toNat).toNat))))) ∧
    (∀ (q : BitVec 7) (p : BitVec 3) (gd : BitVec 2), q.toNat < 4 → WordReady s g ls 0x25 st →
      exec (.vote st q 0#2 p gd) s =
        .next (s.scalarNext g ls st (g.qset q.toNat (ls.any fun l => guardOn g ls gd.toNat (g.thread l) && (g.thread l).pget p.toNat))) ∧
      exec (.vote st q 1#2 p gd) s =
        .next (s.scalarNext g ls st (g.qset q.toNat (ls.all fun l => !guardOn g ls gd.toNat (g.thread l) || (g.thread l).pget p.toNat)))) ∧
    (∀ (d : BitVec 7) (p : BitVec 3) (gd : BitVec 2), d.toNat < s.budget g → FreeRegs s g ls [d.toNat] → WordReady s g ls 0x25 st →
      exec (.vote st d 2#2 p gd) s = .next (s.onLanes g ls fun _ t => nextThread s g ls st
        (if guardOn g ls gd.toNat t then
          t.vset d.toNat (laneMask (ls.filter fun l => guardOn g ls gd.toNat (g.thread l) && (g.thread l).pget p.toNat)) else t))) ∧
    (∀ (l : BitVec 5) (a : BitVec 7) (d : BitVec 8), a.toNat < s.budget g → d.toNat < 192 → trackers s g.uid l.toNat a.toNat = [] →
      WordReady s g ls 0x26 st → exec (.vtos st l a d) s = .next (s.scalarNext g ls st (g.sset d.toNat ((g.thread l.toNat).vget a.toNat)))) ∧
    (∀ (c : BitVec 4) (q : BitVec 2) (a : BitVec 8) (b : BitVec 7), c.toNat < 10 → a.toNat < 192 → WordReady s g ls 0x5E st →
      exec (.scmp st c q a b) s = .next (s.scalarNext g ls st (g.qset q.toNat ((intCond c.toNat (g.sget a.toNat) (g.sget b.toNat)).getD false)))) ∧
    (∀ (c : BitVec 4) (q : BitVec 2) (a : BitVec 8) (i : BitVec 7), c.toNat < 10 → a.toNat < 192 → WordReady s g ls 0x5F st →
      exec (.scmpImm st c q a i) s =
        .next (s.scalarNext g ls st (g.qset q.toNat ((intCond c.toNat (g.sget a.toNat) (imm7Of (hintsOf g ls) i)).getD false))))

/-- The scalar words of the short class complete: sd takes the result, once for the issue set (R91, R136, R137). -/
def Obligations.ScalarWordsWriteTheirResult : Prop :=
  ∀ (s : State) (g : Group) (ls : List Nat) (st : Bool) (d a : BitVec 8) (b : BitVec 7), d.toNat < 192 → a.toNat < 192 →
    (∀ row ∈ scalarRows st d a b, WordReady s g ls row.1 st →
      exec row.2.1 s = .next (s.scalarNext g ls st (g.sset d.toNat (row.2.2 (g.sget a.toNat) (g.sget b.toNat))))) ∧
    (∀ i : BitVec 7, WordReady s g ls 0x51 st →
      exec (.saddImm st d a i) s = .next (s.scalarNext g ls st (g.sset d.toNat (g.sget a.toNat + imm7Of (hintsOf g ls) i)))) ∧
    (∀ n : BitVec 5, WordReady s g ls 0x5B st →
      exec (.sshfImm st d a 0#2 n) s = .next (s.scalarNext g ls st (g.sset d.toNat (g.sget a.toNat <<< n.toNat))) ∧
      exec (.sshfImm st d a 1#2 n) s = .next (s.scalarNext g ls st (g.sset d.toNat (g.sget a.toNat >>> n.toNat))) ∧
      exec (.sshfImm st d a 2#2 n) s = .next (s.scalarNext g ls st (g.sset d.toNat ((g.sget a.toNat).sshiftRight n.toNat)))) ∧
    (WordReady s g ls 0x5C st → exec (.smov st d a) s = .next (s.scalarNext g ls st (g.sset d.toNat (g.sget a.toNat)))) ∧
    (∀ i : BitVec 15, WordReady s g ls 0x5D st → (∀ m, (hintsOf g ls).imm = some m → m.toNat < 2 ^ 17) →
      exec (.smovi st d i) s = .next (s.scalarNext g ls st (g.sset d.toNat (imm15Of (hintsOf g ls) i))))

/-! ## Long-class words -/

/-- The long-class words with a vector target complete: every guard-true lane holds its result and flags pending, and its registers are as before (R119,
R121, R127, R158, R169 to R180). The model's readings behind it: log entries 33, 166. -/
def Obligations.LongWordsLeaveTheirResultPending : Prop :=
  ∀ (s : State) (g : Group) (ls : List Nat) (st : Bool) (d a b : BitVec 7) (gd : BitVec 2), FreeRegs s g ls [d.toNat, a.toNat, b.toNat] →
    d.toNat < s.budget g → a.toNat < s.budget g → b.toNat < s.budget g →
    (∀ row ∈ longRows3 st d a b gd, WordReady s g ls row.1 st →
      exec row.2.1 s = .next (s.bump.onLanes g ls fun _ t => nextThread s g ls st (if guardOn g ls gd.toNat t then t.withPending
        [pendingOf s g ls row.1 (.v d.toNat) (row.2.2 (hintsOf g ls) g.fpst (t.vget a.toNat) (t.vget b.toNat) (t.vget d.toNat))] else t))) ∧
    (∀ row ∈ longRows1 st d a gd, WordReady s g ls row.1 st →
      exec row.2.1 s = .next (s.bump.onLanes g ls fun _ t => nextThread s g ls st (if guardOn g ls gd.toNat t then t.withPending
        [pendingOf s g ls row.1 (.v d.toNat) (row.2.2 (hintsOf g ls) (t.vget a.toNat))] else t))) ∧
    (∀ (e f : BitVec 4) (n : BitVec 5) (c : BitVec 2), ∀ row ∈ convRows st d a e f n c, WordReady s g ls row.1 st → row.2.2.1 →
      exec row.2.1 s = .next (s.bump.onLanes g ls fun _ t => nextThread s g ls st (if guardOn g ls 0 t then t.withPending
        [pendingOf s g ls row.1 (.v d.toNat) (row.2.2.2 (hintsOf g ls) (t.vget a.toNat) (t.vget d.toNat))] else t)))

/-- `FCMP` leaves its predicate pending; `DQNT` its pair or quad, each word of it with the flags of all; `SMUL` its scalar result, held by the group and
marked in every lane of the issue set (R121, R122, R137, R170, R180). -/
def Obligations.OtherLongWordsPend : Prop :=
  ∀ (s : State) (g : Group) (ls : List Nat) (st : Bool),
    (∀ (c : BitVec 4) (p : BitVec 3) (a b : BitVec 7) (gd : BitVec 2), c.toNat < 12 → WordReady s g ls 0x66 st → FreeRegs s g ls [a.toNat, b.toNat] →
      a.toNat < s.budget g → b.toNat < s.budget g →
      exec (.fcmp st c p a b gd) s = .next (s.bump.onLanes g ls fun _ t => nextThread s g ls st (if guardOn g ls gd.toNat t then t.withPending
        [pendingOf s g ls 0x66 (.p p.toNat) (fcmpResult c.toNat (t.vget a.toNat) (t.vget b.toNat))] else t))) ∧
    (∀ (d a b : BitVec 7) (c : BitVec 2), ∀ row ∈ dqntRows st d a b c, WordReady s g ls row.1 st →
      (let n := if row.2.2 = 7 ∨ row.2.2 = 8 then 4 else 2
       let nb := if row.2.2 = 8 then 2 else 1
       d.toNat % n = 0 → b.toNat % nb = 0 → d.toNat + n ≤ s.budget g → a.toNat < s.budget g → b.toNat + nb ≤ s.budget g →
       FreeRegs s g ls (regRun d.toNat n ++ [a.toNat] ++ regRun b.toNat nb) →
       exec row.2.1 s = .next (s.bump.onLanes g ls fun _ t => nextThread s g ls st (if guardOn g ls 0 t then t.withPending
         (let rs := (List.range n).map fun j => dqntWord (modeOf (hintsOf g ls)) (modOf (hintsOf g ls)).ovf row.2.2 (t.vget a.toNat)
            (bitsOf (t.vget b.toNat).toNat (8 * c.toNat) 8) (bitsOf (t.vget (b.toNat + 1)).toNat (8 * c.toNat) 8) j
          let fl := rs.foldl (fun f r => f ||| r.2) 0#5
          rs.zipIdx.map fun r => pendingOf s g ls row.1 (.v (d.toNat + r.2)) (r.1.1, fl)) else t)))) ∧
    (∀ (d a : BitVec 8) (b : BitVec 7), d.toNat < 192 → a.toNat < 192 → WordReady s g ls 0x53 st →
      exec (.smul st d a b) s = .next (s.bump.onLanes
        { g with spend := g.spend ++ [{ id := s.nextId, sd := d.toNat, val := g.sget a.toNat * g.sget b.toNat }] } ls fun _ t => nextThread s g ls st
          (t.withPending [pendingOf s g ls 0x53 (.s s.nextId) (g.sget a.toNat * g.sget b.toNat, 0#5)])))

/-! ## Crossbar words -/

/-- The crossbar words complete: every lane that takes part holds its result pending, taken from the source registers as they are at issue, of active and
inactive lanes alike (R181, R183 to R185). -/
def Obligations.CrossbarWordsPend : Prop :=
  ∀ (s : State) (g : Group) (ls : List Nat) (st : Bool) (d a : BitVec 7), d.toNat < s.budget g → a.toNat < s.budget g → FreeRegs s g ls [d.toNat] →
    (∀ l < 32, trackers s g.uid l a.toNat = []) →
    (∀ n : BitVec 4, WordReady s g ls 0x80 st → exec (.xpat st d a n) s = .next (s.bump.onLanes g ls fun l t => nextThread s g ls st
      (if guardOn g ls 0 t then t.withPending [pendingOf s g ls 0x80 (.v d.toNat) (permuted g a.toNat (s.patEntry g.core n.toNat l), 0#5)] else t))) ∧
    (∀ (b : BitVec 7) (gd : BitVec 2), WordReady s g ls 0x81 st → b.toNat < s.budget g → FreeRegs s g ls [b.toNat] →
      exec (.xperm st d a b gd) s = .next (s.bump.onLanes g ls fun _ t => nextThread s g ls st (if guardOn g ls gd.toNat t then t.withPending
        [pendingOf s g ls 0x81 (.v d.toNat) (permuted g a.toNat ((t.vget b.toNat).toNat % 65536), 0#5)] else t))) ∧
    (∀ (m : BitVec 2) (n : BitVec 5), WordReady s g ls 0x82 st →
      exec (.shfl st d a m n) s = .next (s.bump.onLanes g ls fun l t => nextThread s g ls st (if guardOn g ls 0 t then t.withPending
        [pendingOf s g ls 0x82 (.v d.toNat) ((g.thread (shuffled m.toNat n.toNat l)).vget a.toNat, 0#5)] else t))) ∧
    (∀ (o f : BitVec 4) (e : BitVec 1), WordReady s g ls 0x83 st → (f = 9#4 ∧ o.toNat < 8 ∨ f = 0#4 ∧ o.toNat < 3) →
      exec (.scan st d a o f e) s = .next (s.bump.onLanes g ls fun l t => nextThread s g ls st (if guardOn g ls 0 t then t.withPending
        [pendingOf s g ls 0x83 (.v d.toNat) (folded o.toNat f.toNat ((takersOf g ls 0).filter (fun u => if e = 1#1 then decide (u < l) else decide (u ≤ l))
          |>.map fun u => (g.thread u).vget a.toNat))] else t))) ∧
    (∀ o f : BitVec 4, WordReady s g ls 0x84 st → (f = 9#4 ∧ o.toNat < 8 ∨ f = 0#4 ∧ o.toNat < 3) →
      exec (.rdx st d a o f) s = .next (s.bump.onLanes g ls fun _ t => nextThread s g ls st (if guardOn g ls 0 t then t.withPending
        [pendingOf s g ls 0x84 (.v d.toNat) ((rdxTree g a.toNat o.toNat f.toNat (takersOf g ls 0) 5 0).getD (0#32, 0#5))] else t)))

/-- The integer reduction tree of `RDX` gives the fold of the operator over the lanes that take part in lane order, and raises nothing (R185). -/
def Obligations.IntegerReductionIsTheFold : Prop :=
  ∀ (g : Group) (a o : Nat) (ls : List Nat), o < 8 → (∃ l ∈ ls, l < 32) →
    rdxTree g a o 9 ls 5 0 = some (folded o 9 (((List.range 32).filter fun l => ls.contains l).map fun l => (g.thread l).vget a))

/-! ## Control words -/

/-- A branch completes: each lane for which its condition holds goes to PC + 4·sext(off, 23), every other to the next word (R139, R140). -/
def Obligations.BranchesGoToTheirTarget : Prop :=
  ∀ (s : State) (g : Group) (ls : List Nat) (st : Bool) (o : BitVec 23),
    ∀ row ∈ branchRows st o, encode row.2.1 = some ((if st then 2 ^ 31 else 0) + row.1 * 2 ^ 23 + o.toNat) ∧
      (WordReady s g ls row.1 st → (pcOf g ls + 4#32 * o.signExtend 32).toNat < (s.groupCode g).codeLen →
      exec row.2.1 s = .next (s.onLanes g ls fun _ t => wentOn st s.timeNs (pcOf g ls)
        (if row.2.2 g (hintsOf g ls) t then .jump (pcOf g ls + 4#32 * o.signExtend 32) else .fall (pcOf g ls)) t))

/-- Where a thread goes at the end of a loop (R142, R144): a word that is not a taken branch counts the innermost loop that ends there down, or leaves it; a
taken branch leaves every loop that ends at the word; in the handler no loop decision is taken (R370). -/
def Obligations.LoopDecision : Prop :=
  ∀ (t : Thread) (pc target : Word) (e : LoopEntry) (es : List LoopEntry), t.stack = e :: es → t.hnd = false → e.isLoop = true → e.fin = pc →
    (1 < e.left.toNat → (advance t pc (.fall pc)).pc = e.start ∧ (advance t pc (.fall pc)).stack = { e with left := e.left - 1#32 } :: es) ∧
    (e.left.toNat ≤ 1 → (∀ f ∈ es.head?, ¬(f.isLoop = true ∧ f.fin = pc)) →
      (advance t pc (.fall pc)).pc = pc + 4#32 ∧ (advance t pc (.fall pc)).stack = es) ∧
    ((advance t pc (.jump target)).pc = target ∧ (∀ f ∈ (advance t pc (.jump target)).stack.head?, ¬(f.isLoop = true ∧ f.fin = pc)) ∧
      ∃ k, (advance t pc (.jump target)).stack = t.stack.drop k) ∧
    ((advance { t with hnd := true } pc (.jump target)).pc = target ∧ (advance { t with hnd := true } pc (.fall pc)).pc = pc + 4#32 ∧
      (advance { t with hnd := true } pc (.jump target)).stack = t.stack ∧ (advance { t with hnd := true } pc (.fall pc)).stack = t.stack)

/-- `CALL`, `RET`, `LOOP`, `BRK` and `BRX` complete for threads outside the handler whose stack takes them; a full stack, an empty one, a `BRK` outside a
loop and a `CALL` at a loop's last word trap instead, with the TRAP-class code (R141 to R145, R370). The model's readings behind it: log entry 150. -/
def Obligations.LoopStackWords : Prop :=
  (∀ (s : State) (g : Group) (ls : List Nat) (st : Bool),
     (∀ o : BitVec 23, WordReady s g ls 0x1C st → (pcOf g ls + 4#32 * o.signExtend 32).toNat < (s.groupCode g).codeLen →
       (∀ l ∈ ls, (g.thread l).hnd = false ∧ (g.thread l).stack.length < 4 ∧ endsHere (g.thread l) (pcOf g ls) = false) →
       exec (.call st o) s = .next (s.onLanes g ls fun _ t => wentOn st s.timeNs (pcOf g ls) (.jump (pcOf g ls + 4#32 * o.signExtend 32))
         { t with stack := { isLoop := false, start := pcOf g ls + 4#32 } :: t.stack })) ∧
     (∀ (pre : Nat → List LoopEntry) (e : Nat → LoopEntry) (post : Nat → List LoopEntry), WordReady s g ls 0x1D st →
       (∀ l ∈ ls, (g.thread l).hnd = false ∧ endsHere (g.thread l) (pcOf g ls) = false ∧ (g.thread l).stack = pre l ++ e l :: post l ∧
         (∀ f ∈ pre l, f.isLoop = true) ∧ (e l).isLoop = false) →
       exec (.ret st) s = .next (s.onLanes g ls fun l t => wentOn st s.timeNs (pcOf g ls) (.jump (e l).start) { t with stack := post l })) ∧
     (∀ (a : BitVec 7) (i : BitVec 9), WordReady s g ls 0x1E st → a.toNat < s.budget g → FreeRegs s g ls [a.toNat] →
       (loopFin g ls i).toNat < (s.groupCode g).codeLen →
       (∀ l ∈ ls, (g.thread l).hnd = false ∧ ((g.thread l).vget a.toNat = 0#32 ∨ (g.thread l).stack.length < 4) ∧ endsHere (g.thread l) (pcOf g ls) = false) →
       exec (.loop st a i) s = .next (s.onLanes g ls fun _ t =>
         if t.vget a.toNat = 0#32 then wentOn st s.timeNs (pcOf g ls) (.plain (loopFin g ls i + 4#32)) t
         else wentOn st s.timeNs (pcOf g ls) (.plain (pcOf g ls + 4#32))
           { t with stack := { isLoop := true, start := pcOf g ls + 4#32, fin := loopFin g ls i, left := t.vget a.toNat } :: t.stack })) ∧
     (∀ (gd : BitVec 2) (e : Nat → LoopEntry) (es : Nat → List LoopEntry), WordReady s g ls 0x1F st →
       (∀ l ∈ ls, guardOn g ls gd.toNat (g.thread l) = true → (g.thread l).hnd = false ∧ (g.thread l).stack = e l :: es l ∧ (e l).isLoop = true) →
       exec (.brk st gd) s = .next (s.onLanes g ls fun l t =>
         if guardOn g ls gd.toNat t then wentOn st s.timeNs (pcOf g ls) (.fall (e l).fin) { t with stack := es l } else nextThread s g ls st t)) ∧
     (∀ (a : BitVec 7) (gd : BitVec 2), WordReady s g ls 0x20 st → a.toNat < s.budget g → FreeRegs s g ls [a.toNat] →
       (∀ l ∈ ls, guardOn g ls gd.toNat (g.thread l) = true → 0 ≤ ((g.thread l).vget a.toNat).toInt ∧ ((g.thread l).vget a.toNat).toNat % 4 = 0 ∧
         ((g.thread l).vget a.toNat).toNat < (s.groupCode g).codeLen) →
       exec (.brx st a gd) s = .next (s.onLanes g ls fun _ t =>
         if guardOn g ls gd.toNat t then
           (if t.hnd then wentOn st s.timeNs (pcOf g ls) (.plain (t.vget a.toNat)) { t with hnd := false }
            else wentOn st s.timeNs (pcOf g ls) (.jump (t.vget a.toNat)) t)
         else nextThread s g ls st t))) ∧
  (∀ (s : State) (g : Group) (ls : List Nat) (st : Bool) (h : Nat), TrapReady s g ls h →
     (∀ o : BitVec 23, acceptsHints 0x1C (hintsOf g ls) = true → (pcOf g ls + 4#32 * o.signExtend 32).toNat < (s.groupCode g).codeLen →
       ((∀ l ∈ ls, (g.thread l).stack.length = 4) → exec (.call st o) s = .next (s.trapNext g ls h 0x1C fun _ => (0x40020001#32, 0#64, 0))) ∧
       ((∀ l ∈ ls, (g.thread l).stack.length < 4 ∧ endsHere (g.thread l) (pcOf g ls) = true) →
         exec (.call st o) s = .next (s.trapNext g ls h 0x1C fun _ => (0x40020004#32, 0#64, 0)))) ∧
     (acceptsHints 0x1D (hintsOf g ls) = true → (∀ l ∈ ls, ∀ e ∈ (g.thread l).stack, e.isLoop = true) →
       exec (.ret st) s = .next (s.trapNext g ls h 0x1D fun _ => (0x40020002#32, 0#64, 0))) ∧
     (acceptsHints 0x1F (hintsOf g ls) = true → (∀ l ∈ ls, ∀ e ∈ (g.thread l).stack.head?, e.isLoop = false) → (∀ l ∈ ls, guardOn g ls 0 (g.thread l) = true) →
       exec (.brk st 0#2) s = .next (s.trapNext g ls h 0x1F fun _ => (0x40020003#32, 0#64, 0))))

/-- `NOP`, `YIELD` and the four hint words complete (R88, R89, R91 to R94, R148, R149): no register changes; a hint is added to what its threads hold. -/
def Obligations.NopYieldAndHints : Prop :=
  ∀ (s : State) (g : Group) (ls : List Nat) (st : Bool),
    encode (.nop false) = some 0x02800000 ∧
    (WordReady s g ls 0x05 st → exec (.nop st) s = .next (s.onLanes g ls fun _ t => nextThread s g ls st t)) ∧
    (WordReady s g ls 0x22 st → exec (.yield st) s = .next (s.scalarNext g ls st { g with yielded := true, leftOut := ls })) ∧
    (Issues s g ls → (∀ l ∈ ls, endsHere (g.thread l) (pcOf g ls) = false ∨ (g.thread l).hnd = true) →
      (∀ i : BitVec 23, (hintsOf g ls).imm = none → exec (.himm i) s = .next (s.onLanes g ls fun _ t =>
        { t with pc := pcOf g ls + 4#32, hints := { t.hints with imm := some i } })) ∧
      (∀ (k : BitVec 16) (p : BitVec 2) (b : BitVec 1), p ≠ 3#2 → (hintsOf g ls).dep = none → exec (.hdep k p b) s = .next (s.onLanes g ls fun _ t =>
        { t with pc := pcOf g ls + 4#32, hints := { t.hints with dep := some { mask := k, pol := p, badp := b = 1#1 } } })) ∧
      (∀ (r : BitVec 3) (o : BitVec 1) (c e : BitVec 3) (m : BitVec 2) (gn n : BitVec 1) (p : BitVec 3), r.toNat < 4 → c.toNat < 5 → e.toNat < 7 →
        (hintsOf g ls).mod = none → exec (.hmod r o c e m gn n p) s = .next (s.onLanes g ls fun _ t => { t with pc := pcOf g ls + 4#32, hints := { t.hints with
          mod := some { rnd := r, ovf := o = 1#1, cp := c, scp := e, sem := m, gen := gn = 1#1, gneg := n = 1#1, gp := p } } })) ∧
      (∀ (p : BitVec 3) (y : BitVec 1), (hintsOf g ls).sch = none → exec (.hsch p y) s = .next (s.onLanes g ls fun _ t =>
        { t with pc := pcOf g ls + 4#32, hints := { t.hints with sch := some { pri := p, yld := y = 1#1 } } })))

/-- `RCV` waits until every thread of its group that has not exited waits; the last to come releases the issue set at once (R125, R146). -/
def Obligations.ReconvergenceWaitsForAll : Prop :=
  ∀ (s : State) (g : Group) (ls : List Nat) (st : Bool), WordReady s g ls 0x21 st → (∀ l ∈ ls, (g.thread l).hnd = false) →
    ((∃ m < 32, m ∉ ls ∧ (g.thread m).st ≠ .rcvWait ∧ (g.thread m).st ≠ .exited) →
      exec (.rcv st) s = .next (s.onLanes g ls fun _ t => { t with st := .rcvWait, wake := .none, hints := {}, rcvS := st })) ∧
    ((∀ m < 32, m ∉ ls → (g.thread m).st = .exited) → (∀ l ∈ ls, (g.thread l).pc = pcOf g ls ∧ (g.thread l).stopped = none) → (∀ l ∈ ls, (g.thread l).unlanded) →
      exec (.rcv st) s = .next (s.onLanes g ls fun _ t => nextThread s g ls st { t with rcvS := st }))

/-- `EXIT` ends the threads whose guard is true, and the group is finished when no other thread is left (R147, R399). -/
def Obligations.ExitEndsThreads : Prop :=
  ∀ (s : State) (g : Group) (ls : List Nat) (st : Bool) (gd : BitVec 2), WordReady s g ls 0x23 st → (∀ l ∈ ls, (g.thread l).pend = []) →
    ((∃ m < 32, m ∉ ls ∧ (g.thread m).st = .runnable) →
      exec (.exit st gd) s = .next (s.onLanes g ls fun _ t =>
        if guardOn g ls gd.toNat t then { t with st := .exited, wake := .none, stack := [], hints := {}, hnd := false } else nextThread s g ls st t)) ∧
    ((∀ m < 32, m ∉ ls → (g.thread m).st = .exited) → (∀ l ∈ ls, guardOn g ls gd.toNat (g.thread l) = true) → g.sq = [] → g.finished = false →
      ∃ t g', exec (.exit st gd) s = .next t ∧ t.group? g.uid = some g' ∧ g'.finished = true ∧ (∀ l < 32, (g'.thread l).st = .exited) ∧
        (t.dists.map (·.wanted) = s.dists.map fun d => d.wanted + 1) ∧ t.mem = s.mem)

/-! ## Traps and system words -/

/-- `TRAP` takes every thread of its issue set into the handler with TCODE 0x4000_0000 + CODE, and an illegal instruction with 0x3000_0000 and its detail
code; the trap frame holds `v0` and `v1`, TCODE, the faulting PC, the continuation PC, the next PC, the address, and the size and opcode, in this order, and
zero (R99, R366 to R369, R372). -/
def Obligations.TrapsEnterTheHandler : Prop :=
  (∀ (s : State) (g : Group) (ls : List Nat) (st : Bool) (h : Nat), TrapReady s g ls h →
     (∀ c : BitVec 16, acceptsHints 0x06 (hintsOf g ls) = true →
       exec (.trap st c) s = .next (s.trapNext g ls h 0x06 fun _ => (0x40000000#32 + c.setWidth 32, 0#64, 0))) ∧
     (∀ (d a b : BitVec 7) (gd : BitVec 2), ∀ row ∈ intRows st d a b gd,
       (acceptsHints row.1 (hintsOf g ls) = false → exec row.2.1 s = .next (s.trapNext g ls h row.1 fun _ => (0x30000004#32, 0#64, 0))) ∧
       (acceptsHints row.1 (hintsOf g ls) = true → s.budget g ≤ d.toNat → exec row.2.1 s = .next (s.trapNext g ls h row.1 fun _ => (0x30000007#32, 0#64, 0)))) ∧
     (∀ (d a : BitVec 8) (b : BitVec 7), 192 ≤ d.toNat → ∀ row ∈ scalarRows st d a b, acceptsHints row.1 (hintsOf g ls) = true →
       exec row.2.1 s = .next (s.trapNext g ls h row.1 fun _ => (0x30000006#32, 0#64, 0))) ∧
     (∀ d : Nat, ∃ op < 256, exec (.illegalInstruction d) s = .next (s.trapNext g ls h op fun _ => (0x30000000#32 + BitVec.ofNat 32 d, 0#64, 0)))) ∧
  (∀ (t : Thread) (r : TrapReq) (m : Memory) (lane : Nat), r.size < 256 → m.wf = true →
     let at4 (o : Nat) := getLe (putBytes m (64 * lane) (frameBytes t r)) (64 * lane + o) 4
     at4 0 = (t.vget 0).toNat ∧ at4 4 = (t.vget 1).toNat ∧ at4 8 = r.tcode.toNat ∧ at4 12 = r.fpc.toNat ∧ at4 16 = r.cpc.toNat ∧ at4 20 = r.npc.toNat ∧
     getLe (putBytes m (64 * lane) (frameBytes t r)) (64 * lane + 24) 8 = r.addr.toNat ∧ at4 32 = r.op.toNat * 2 ^ 24 + r.size * 2 ^ 16 ∧
     (∀ o, 36 ≤ o → o < 64 → memGet (putBytes m (64 * lane) (frameBytes t r)) (64 * lane + o) = 0#8) ∧
     (∀ a, (a < 64 * lane ∨ 64 * lane + 64 ≤ a) → memGet (putBytes m (64 * lane) (frameBytes t r)) a = memGet m a))

/-- `SYSRD` writes the register's value to sd, and a read of CYCLO or TIMLO latches the high half; `SYSWR` writes HF and the trap enables of FPST and clears
the flags written as 1 (R159, R373, R374, R426). The model's readings behind it: log entry 22. -/
def Obligations.SystemRegisters : Prop :=
  ∀ (s : State) (g : Group) (ls : List Nat) (st : Bool) (d : BitVec 8), d.toNat < 192 →
    (WordReady s g ls 0x07 st → ∀ row ∈ systemRows s g, (row.1 = 0x10#15 → ∀ l ∈ ls, (g.thread l).pend = []) →
      exec (.sysrd st d row.1) s = .next (s.scalarNext g ls st (row.2.2.sset d.toNat row.2.1))) ∧
    (WordReady s g ls 0x08 st → exec (.syswr st d 0x10#15) s = .next (s.scalarNext g ls st
      { g with fpst := (g.sget d.toNat &&& 0x00009F00#32) ||| (g.fpst &&& ~~~(g.sget d.toNat) &&& 0x0000001F#32) }))

/-- `PERF` reads a counter that its context has full access to, as it stood before the events of the cycle, 0 otherwise; the other operations set, clear,
start and stop it (R415, R417). The model's readings behind it: log entries 23, 183. -/
def Obligations.CountersThroughPerf : Prop :=
  ∀ (s : State) (g : Group) (ls : List Nat) (st : Bool) (d : BitVec 8) (n : BitVec 4), WordReady s g ls 0x09 st → d.toNat < 192 → n.toNat < 8 →
    let c := s.counter g.core n.toNat
    let v := if c.mode = 2 ∧ c.casid = g.asid then c.before s.clockStamp else 0
    let put (c' : Counter) : State := if c.mode = 2 ∧ c.casid = g.asid then s.putCounter c' else s
    let all (s' : State) : Host.Outcome State Fault Refusal := .next (s'.onLanes g ls fun _ t => nextThread s g ls st t)
    exec (.perf st d 0#8 0#3 n) s = .next (s.scalarNext g ls st { g.sset d.toNat (BitVec.ofNat 32 v) with perfHi := BitVec.ofNat 32 (v / 2 ^ 32) }) ∧
    exec (.perf st d 0#8 1#3 n) s = .next (s.scalarNext g ls st (g.sset d.toNat g.perfHi)) ∧
    exec (.perf st 0#8 d 2#3 n) s =
      all (put { c with val := 0, base := 0, event := (g.sget d.toNat).toNat % 4096, on := false, own := if (g.sget d.toNat).getLsbD 12 then some g.team else none }) ∧
    exec (.perf st 0#8 0#8 3#3 n) s = all (put { c with val := 0, base := 0 }) ∧
    exec (.perf st 0#8 0#8 4#3 n) s = all (put { c with on := true }) ∧
    exec (.perf st 0#8 0#8 5#3 n) s = all (put { c with on := false }) ∧
    (let c := s.counter 0xFFFF n.toNat
     let v := if c.mode = 2 ∧ c.casid = g.asid then c.before s.clockStamp else 0
     exec (.perf st d 0#8 6#3 n) s = .next (s.scalarNext g ls st { g.sset d.toNat (BitVec.ofNat 32 v) with perfHi := BitVec.ofNat 32 (v / 2 ^ 32) }))

/-! ## Memory words -/

/-- `LD` and `ST` bind their token for the threads that take part, each with the target of its address; an `ST` enters the store queue in lane order with
the bytes of vd at issue (R191 to R193, R195, R203). -/
def Obligations.LoadsAndStoresBind : Prop :=
  ∀ (s : State) (g : Group) (ls : List Nat) (st : Bool) (d a : BitVec 7) (k : BitVec 4) (z : BitVec 3) (gd : BitVec 2) (ph : Nat → Phys), z.toNat < 5 →
    let n := 2 ^ z.toNat
    let m := if n ≤ 4 then 1 else n / 4
    let va (l : Nat) := addrOf g ls (g.thread l) a.toNat
    let mods := (hintsOf g ls).mod.getD {}
    d.toNat % m = 0 → d.toNat + m ≤ s.budget g → a.toNat % 2 = 0 → a.toNat + 2 ≤ s.budget g → FreeRegs s g ls (regRun d.toNat m ++ regRun a.toNat 2) →
    takersOf g ls gd.toNat ≠ [] →
    (WordReady s g ls 0x90 st →
      (∀ l ∈ takersOf g ls gd.toNat, va l % n = 0 ∧ accessCheck s (s.issueFor g ls 0x90 st) l .load (va l) n false = .ok (ph l)) →
      exec (.ld st d a k z gd) s = .next (s.boundNext g ls st k.toNat { s.newOp g ls k.toNat (.load (mods.sem.getLsbD 0) mods.scp) with
        parts := (takersOf g ls gd.toNat).map fun l => { lane := l, va := va l, phys := ph l, size := n, tgt := regRun d.toNat m }
        cp := mods.cp.toNat } [])) ∧
    (WordReady s g ls 0x91 st →
      (∀ l ∈ takersOf g ls gd.toNat, va l % n = 0 ∧ accessCheck s (s.issueFor g ls 0x91 st) l .store (va l) n false = .ok (ph l)) →
      exec (.st st d a k z gd) s = .next (s.boundNext g ls st k.toNat { s.newOp g ls k.toNat (.store (mods.sem.getLsbD 1) mods.scp) with
        parts := (takersOf g ls gd.toNat).map fun l =>
          { lane := l, va := va l, phys := ph l, size := n, data := ((g.thread l).vbytes d.toNat m).take n }
        cp := mods.cp.toNat }
        ((takersOf g ls gd.toNat).map fun l => { seq := g.seq, kind := .store, op := s.nextId, lane := l })))

/-- `ATOM` and `ACAS` bind their token and enter the store queue with the operands of each thread (R195, R206, R207). -/
def Obligations.AtomicsBind : Prop :=
  ∀ (s : State) (g : Group) (ls : List Nat) (st : Bool) (d a : BitVec 7) (k : BitVec 4) (r w : BitVec 1) (o : BitVec 3) (ph : Nat → Phys),
    let n := if w = 1#1 then 8 else 4
    let va (l : Nat) := (g.thread l).vpair a.toNat
    let mods := (hintsOf g ls).mod.getD {}
    let q := (takersOf g ls 0).map fun l => ({ seq := g.seq, kind := .home, op := s.nextId, lane := l } : QEntry)
    a.toNat % 2 = 0 → a.toNat + 2 ≤ s.budget g → takersOf g ls 0 ≠ [] →
    (WordReady s g ls 0x94 st → ¬(o = 7#3 ∧ w = 1#1) → d.toNat % (n / 4) = 0 → d.toNat + n / 4 ≤ s.budget g →
      FreeRegs s g ls (regRun d.toNat (n / 4) ++ regRun a.toNat 2) →
      (∀ l ∈ takersOf g ls 0, va l % n = 0 ∧ accessCheck s (s.issueFor g ls 0x94 st) l .atomic (va l) n false = .ok (ph l)) →
      exec (.atom st d a k r w o) s = .next (s.boundNext g ls st k.toNat { s.newOp g ls k.toNat (.atom o (w = 1#1) (r = 1#1) mods.sem mods.scp) with
        parts := (takersOf g ls 0).map fun l => { lane := l, va := va l, phys := ph l, size := n, tgt := regRun d.toNat (n / 4),
                                                  data := (g.thread l).vbytes d.toNat (n / 4) }
        cp := mods.cp.toNat } q)) ∧
    (WordReady s g ls 0x95 st → d.toNat % (n / 2) = 0 → d.toNat + n / 2 ≤ s.budget g → FreeRegs s g ls (regRun d.toNat (n / 2) ++ regRun a.toNat 2) →
      (∀ l ∈ takersOf g ls 0, va l % n = 0 ∧ accessCheck s (s.issueFor g ls 0x95 st) l .atomic (va l) n false = .ok (ph l)) →
      exec (.acas st d a k r w) s = .next (s.boundNext g ls st k.toNat { s.newOp g ls k.toNat (.cas (w = 1#1) (r = 1#1) mods.sem mods.scp) with
        parts := (takersOf g ls 0).map fun l => { lane := l, va := va l, phys := ph l, size := n, tgt := regRun d.toNat (n / 4),
                                                  data := (g.thread l).vbytes d.toNat (n / 2) }
        cp := mods.cp.toNat } q))

/-- `CFLUSH`, `LDT` and `STT` bind their token and enter the store queue (R195, R210 to R213). -/
def Obligations.FlushAndTileWordsBind : Prop :=
  ∀ (s : State) (g : Group) (ls : List Nat) (st : Bool) (d a : BitVec 7) (k : BitVec 4) (gd : BitVec 2) (ph qh : Nat → Phys),
    let mods := (hintsOf g ls).mod.getD {}
    let q := (takersOf g ls gd.toNat).map fun l => ({ seq := g.seq, kind := .home, op := s.nextId, lane := l } : QEntry)
    a.toNat % 2 = 0 → a.toNat + 2 ≤ s.budget g → takersOf g ls gd.toNat ≠ [] → FreeRegs s g ls (regRun a.toNat 2) →
    (∀ (o : BitVec 2) (z : BitVec 3), WordReady s g ls 0x98 st → o ≠ 3#2 → z.toNat < 5 →
      let va (l : Nat) := (g.thread l).vpair a.toNat / 256 * 256
      let n := 256 * 2 ^ z.toNat
      let n1 (l : Nat) := min n (65536 - va l % 65536)
      (∀ l ∈ takersOf g ls gd.toNat, spanLease s (s.issueFor g ls 0x98 st) (va l) n = none ∧
        spanPage s (s.issueFor g ls 0x98 st) l (va l) (n1 l) = .ok (ph l) ∧
        (n1 l < n → spanPage s (s.issueFor g ls 0x98 st) l (va l + n1 l) (n - n1 l) = .ok (qh l))) →
      exec (.cflush st o a k z gd) s = .next (s.boundNext g ls st k.toNat { s.newOp g ls k.toNat (.cflush o) with
        parts := (takersOf g ls gd.toNat).map fun l =>
          { lane := l, va := va l, phys := ph l, size := n1 l, tail := if n1 l = n then none else some (qh l, n - n1 l) }
        cp := mods.cp.toNat } q)) ∧
    (let parts := (takersOf g ls gd.toNat).map fun l => ({ lane := l, va := (g.thread l).vpair a.toNat, phys := ph l, size := 64,
                                                           data := natLe 4 ((g.thread l).vget d.toNat).toNat } : Part)
     d.toNat < s.budget g → FreeRegs s g ls [d.toNat] →
     (∀ l ∈ takersOf g ls gd.toNat, (g.thread l).vpair a.toNat % 64 = 0 ∧ ((g.thread l).vget d.toNat).toNat % 512 = 0) →
     (WordReady s g ls 0x9A st → (∀ l ∈ takersOf g ls gd.toNat,
        accessCheck s (s.issueFor g ls 0x9A st) l .tileRd ((g.thread l).vpair a.toNat) 64 false = .ok (ph l)) →
       exec (.ldt st d a k gd) s = .next (s.boundNext g ls st k.toNat { s.newOp g ls k.toNat (.ldt mods.sem mods.scp) with parts := parts, cp := mods.cp.toNat } q)) ∧
     (WordReady s g ls 0x9B st → (∀ l ∈ takersOf g ls gd.toNat,
        accessCheck s (s.issueFor g ls 0x9B st) l .tile ((g.thread l).vpair a.toNat) 64 false = .ok (ph l)) →
       exec (.stt st d a k gd) s = .next (s.boundNext g ls st k.toNat { s.newOp g ls k.toNat (.stt mods.sem mods.scp) with parts := parts, cp := mods.cp.toNat } q)))

/-- A misaligned `LD` or `ST` of every thread takes the memory-class trap with its address and size (R192, R366). -/
def Obligations.MisalignedAccessesTrap : Prop :=
  ∀ (s : State) (g : Group) (ls : List Nat) (st : Bool) (d a : BitVec 7) (k : BitVec 4) (z : BitVec 3) (h : Nat), TrapReady s g ls h → z.toNat < 5 →
    let n := 2 ^ z.toNat
    let m := if n ≤ 4 then 1 else n / 4
    let va (l : Nat) := addrOf g ls (g.thread l) a.toNat
    d.toNat % m = 0 → d.toNat + m ≤ s.budget g → a.toNat % 2 = 0 → a.toNat + 2 ≤ s.budget g → FreeRegs s g ls (regRun d.toNat m ++ regRun a.toNat 2) →
    takersOf g ls 0 = ls → (∀ l ∈ ls, va l % n ≠ 0) →
    (acceptsHints 0x90 (hintsOf g ls) = true →
      exec (.ld st d a k z 0#2) s = .next (s.trapNext g ls h 0x90 fun l => (0x20000001#32, BitVec.ofNat 64 (va l), n))) ∧
    (acceptsHints 0x91 (hintsOf g ls) = true →
      exec (.st st d a k z 0#2) s = .next (s.trapNext g ls h 0x91 fun l => (0x20000001#32, BitVec.ofNat 64 (va l), n)))

/-- `LDS` reads its bytes at issue and leaves them pending, or parks on an absent line; `STS` stores its bytes at once, and no others (R200, R201, R204).
That a later lane's byte stays where two lanes store to one is the model's reading: log entry 24. -/
def Obligations.ScratchpadWords : Prop :=
  ∀ (s : State) (g : Group) (ls : List Nat) (st : Bool) (d a : BitVec 7) (z : BitVec 3) (gd : BitVec 2), (hintsOf g ls).dep = none → z.toNat < 5 →
    let n := 2 ^ z.toNat
    let m := if n ≤ 4 then 1 else n / 4
    let base := (spadRun s g).1
    let off (l : Nat) : Nat := ((((g.thread l).vget a.toNat).toNat : Int) + offOf (hintsOf g ls)).toNat
    let inside (l : Nat) : Prop := 0 ≤ (((g.thread l).vget a.toNat).toNat : Int) + offOf (hintsOf g ls) ∧ off l % n = 0 ∧ off l + n ≤ (spadRun s g).2 * 512
    let absent (l : Nat) := absentOf s g.core (linesOf base (off l) n)
    d.toNat % m = 0 → d.toNat + m ≤ s.budget g → a.toNat < s.budget g → FreeRegs s g ls (regRun d.toNat m ++ [a.toNat]) →
    (∀ l ∈ takersOf g ls gd.toNat, inside l) →
    (WordReady s g ls 0x92 st →
      exec (.lds st d a z gd) s = .next (s.bump.onLanes g ls fun l t =>
        if guardOn g ls gd.toNat t then
          (if absent l = [] then nextThread s g ls st (t.withPending ((List.range m).map fun i => pendingOf s g ls 0x92 (.v (d.toNat + i))
              (BitVec.ofNat 32 (fieldLe (getBytes s.mem (spadAddr g.core (base * 512 + off l)) n) (4 * i) 4), 0#5)))
           else parkedBefore s.timeNs .absentLine (.lines g.core (absent l)) t)
        else nextThread s g ls st t)) ∧
    (WordReady s g ls 0x93 st →
      exec (.sts st d a z gd) s = .next (State.onLanes { s with
        mem := (takersOf g ls gd.toNat).foldl (fun mm l => putBytes mm (spadAddr g.core (base * 512 + off l)) (((g.thread l).vbytes d.toNat m).take n)) s.mem }
          g ls fun _ t => nextThread s g ls st t))

/-- `PTST` leaves in vd, pending, one bit for each of 32 lines of the team's scratchpad from va on: set when the line exists and is present (R205). -/
def Obligations.PresenceIsSampled : Prop :=
  ∀ (s : State) (g : Group) (ls : List Nat) (st : Bool) (d a : BitVec 7) (gd : BitVec 2), (hintsOf g ls).dep = none → WordReady s g ls 0x99 st →
    d.toNat < s.budget g → a.toNat < s.budget g → FreeRegs s g ls [d.toNat, a.toNat] →
    (∀ l ∈ takersOf g ls gd.toNat, ((g.thread l).vget a.toNat).toNat % 512 = 0 ∧ ((g.thread l).vget a.toNat).toNat < (spadRun s g).2 * 512) →
    exec (.ptst st d a gd) s = .next (s.bump.onLanes g ls fun _ t => nextThread s g ls st (if guardOn g ls gd.toNat t then
      t.withPending [pendingOf s g ls 0x99 (.v d.toNat) (ptstWord s g (t.vget a.toNat).toNat, 0#5)] else t)) ∧
    (∀ o i, i < 32 → ((ptstWord s g o).getLsbD i = true ↔
      o / 512 + i < (spadRun s g).2 ∧ ∀ x ∈ s.absent, ¬(x.1 = g.core ∧ x.2.1 = (spadRun s g).1 + (o / 512 + i))))

/-- `PRF` completes for every level, size, address and guard outside the trap-frame window, and changes nothing but lines of its cluster's caches: a byte of
memory that changes takes the value of a dirty byte that made room, and at level 2 nothing changes at all; in the window it takes the memory-type trap
(R209, R369). `FENCE` completes for each kind: a release goes into the store queue, an acquire discards at its scope once the loads before it have been
performed, a full fence does both once its stores have been too, or once the threads wake that it had parked; it parks until then, and where no thread takes
part it does not execute (R361, R362). The model's readings behind it: log entries 25, 56, 156. -/
def Obligations.PrefetchAndFence : Prop :=
  ∀ (s : State) (g : Group) (ls : List Nat) (st : Bool) (gd : BitVec 2), (hintsOf g ls).dep = none →
    (∀ (lv : BitVec 2) (a : BitVec 7) (z : BitVec 3), WordReady s g ls 0x96 st → lv ≠ 3#2 → z.toNat < 5 → a.toNat % 2 = 0 → a.toNat + 2 ≤ s.budget g →
      FreeRegs s g ls (regRun a.toNat 2) →
      (∀ l ∈ takersOf g ls gd.toNat, meetsFrames (addrOf g ls (g.thread l) a.toNat / 256 * 256) (256 * 2 ^ z.toNat) = false) → ∃ l1 cc l2 mem free,
        exec (.prf st lv a z gd) s = .next (State.onLanes { s with l1 := l1, cc := cc, l2 := l2, mem := mem, free := free } g ls fun _ t => nextThread s g ls st t) ∧
        (lv = 2#2 → l1 = s.l1 ∧ cc = s.cc ∧ l2 = s.l2 ∧ mem = s.mem ∧ free = s.free) ∧
        (∀ x : L1Line, clusterOf x.core ≠ clusterOf g.core → (x ∈ l1 ↔ x ∈ s.l1)) ∧
        (∀ x : CCLine, x.clu ≠ clusterOf g.core → (x ∈ cc ↔ x ∈ s.cc)) ∧
        (s.mem.wf = true → ∀ b, memGet mem b ≠ memGet s.mem b → ∃ l ∈ s.cc, l.clu = clusterOf g.core ∧
          ∃ i < l.data.length, b = l.pa + i ∧ l.dirty.getD i false = true ∧ memGet mem b = l.data.getD i 0#8)) ∧
    (∀ (a : BitVec 7) (z : BitVec 3) (h : Nat), TrapReady s g ls h → acceptsHints 0x96 (hintsOf g ls) = true → z.toNat < 5 → a.toNat % 2 = 0 →
      a.toNat + 2 ≤ s.budget g → FreeRegs s g ls (regRun a.toNat 2) → takersOf g ls gd.toNat = ls →
      (∀ l ∈ ls, meetsFrames (addrOf g ls (g.thread l) a.toNat / 256 * 256) (256 * 2 ^ z.toNat) = true) →
      exec (.prf st 2#2 a z gd) s = .next (s.trapNext g ls h 0x96 fun l => (0x20000002#32, BitVec.ofNat 64 (addrOf g ls (g.thread l) a.toNat), 0))) ∧
    (∀ p : BitVec 3, WordReady s g ls 0x97 st → p ≠ 7#3 →
      let takers := takersOf g ls gd.toNat
      let code := if (modOf (hintsOf g ls)).scp = 0#3 then p else (modOf (hintsOf g ls)).scp
      let sc := if code = 0#3 then 5 else code.toNat
      let marker : QEntry := { seq := g.seq, kind := .fence code g.seq, lane := (laneMask takers).toNat }
      let parked (t : State) (g' : Group) (full : Bool) : State :=
        t.onLanes g' ls fun l x => if l ∈ takers then parkedBefore s.timeNs .wait (.fence g.seq takers full) x else nextThread s g ls st x
      (takers = [] → ∀ k : BitVec 2, k ≠ 0#2 → exec (.fence st p k gd) s = .next (s.onLanes g ls fun _ t => nextThread s g ls st t)) ∧
      (takers ≠ [] → exec (.fence st p 2#2 gd) s = .next (s.scalarNext g ls st { g with seq := g.seq + 1, sq := g.sq ++ [marker] })) ∧
      (takers ≠ [] →
        let again : Prop := ∀ l ∈ takers, ∃ n ms f, (g.thread l).wake = .fence n ms f
        let loads : Prop := s.loadsDone g.uid g.seq takers = true
        let stores : Prop := g.sq = [] ∧ s.storesDone g.uid g.seq sc = true
        (again ∨ loads → exec (.fence st p 1#2 gd) s = .next ((s.acquire g.core sc).onLanes g ls fun _ t => nextThread s g ls st t)) ∧
        (¬again → ¬loads → exec (.fence st p 1#2 gd) s = .next (parked s g false)) ∧
        (again ∨ loads ∧ stores →
          exec (.fence st p 3#2 gd) s = .next (((s.release (clusterOf g.core) sc).acquire g.core sc).onLanes g ls fun _ t => nextThread s g ls st t)) ∧
        (¬again → ¬(loads ∧ stores) → exec (.fence st p 3#2 gd) s = .next (parked s { g with seq := g.seq + 1, sq := g.sq ++ [marker] } true))))

/-- A cluster-cache line that is written back leaves its dirty bytes at their home, and no others (R186); an acquire at `die` or wider leaves no line of the
cluster in its cache or its cores' L1, at `clu` no L1 line of the core (R198, R362). The model's readings behind it: log entry 46. -/
def Obligations.WriteBackAndAcquire : Prop :=
  ∀ (s : State) (clu pa core : Nat),
    (∀ l, s.mem.wf = true → s.ccLine? clu pa = some l → l.data.length = l.dirty.length →
      (∀ i < l.data.length, memGet (s.writeBack clu pa).mem (l.pa + i) = if l.dirty.getD i false then l.data.getD i 0#8 else memGet s.mem (l.pa + i)) ∧
      (∀ a, (a < l.pa ∨ l.pa + l.data.length ≤ a) → memGet (s.writeBack clu pa).mem a = memGet s.mem a)) ∧
    (∀ sc, 4 ≤ sc → (∀ l ∈ (s.acquire core sc).cc, l.clu ≠ clusterOf core) ∧ ∀ l ∈ (s.acquire core sc).l1, clusterOf l.core ≠ clusterOf core) ∧
    (∀ l ∈ (s.acquire core 3).l1, l.core ≠ core) ∧ (s.acquire core 3).cc = s.cc

/-! ## Tokens and barriers -/

/-- `WAIT` and `WAITC` go on once their tokens are ready, with the status in a uniform predicate when QEN is set, and park otherwise; with TRP clear a bad
token does not trap (R344, R345). -/
def Obligations.TokenWaits : Prop :=
  ∀ (s : State) (g : Group) (ls : List Nat) (st : Bool) (q : BitVec 2) (e y t b : BitVec 1), (hintsOf g ls).dep = none →
    let g' (bad : Bool) : Group := if e = 1#1 then g.qset q.toNat bad else g
    let badTok (u : Token) : Bool := u.st == .poison || (b == 1#1 && u.st == .doneBad)
    (∀ m : BitVec 16, WordReady s g ls 0xA0 st →
      let ks := ((List.range 16).filter fun i => m.getLsbD i).map g.token
      let ready := if y = 1#1 then ks = [] ∨ (∀ u ∈ ks, u.st = .idle) ∨ ∃ u ∈ ks, u.st = .done ∨ u.st = .doneBad ∨ u.st = .poison else ∀ u ∈ ks, u.st ≠ .pend
      (ready → (∀ u ∈ ks, badTok u = false) → exec (.wait st q e m y t b) s = .next (s.scalarNext g ls st (g' false))) ∧
      (ready → (∃ u ∈ ks, badTok u = true) → t = 0#1 → exec (.wait st q e m y t b) s = .next (s.scalarNext g ls st (g' true))) ∧
      (¬ready → exec (.wait st q e m y t b) s = .next (s.parkNext g ls .wait (.tokens m (y = 1#1))))) ∧
    (∀ (k : BitVec 4) (a : BitVec 8), WordReady s g ls 0xA1 st → a.toNat % 2 = 0 → a.toNat + 2 ≤ 192 →
      let u := g.token k.toNat
      let m : DWord := BitVec.ofNat 64 (g.spair a.toNat)
      let ready := u.st ≠ .pend ∨ u.prog &&& m = m
      (ready → badTok u = false → exec (.waitc st k a q e t b) s = .next (s.scalarNext g ls st (g' false))) ∧
      (ready → badTok u = true → t = 0#1 → exec (.waitc st k a q e t b) s = .next (s.scalarNext g ls st (g' true))) ∧
      (¬ready → exec (.waitc st k a q e t b) s = .next (s.parkNext g ls .wait (.prog k.toNat m))))

/-- A poisoned token traps a `WAIT` of it with TRP set: TCODE 0x4001_0000 with the token's cause; the `q` write comes first (R344). -/
def Obligations.BadTokensTrap : Prop :=
  ∀ (s : State) (g : Group) (ls : List Nat) (st : Bool) (q : BitVec 2) (k : BitVec 4) (h : Nat), TrapReady s g ls h → (hintsOf g ls).dep = none →
    acceptsHints 0xA0 (hintsOf g ls) = true → (g.token k.toNat).st = .poison →
      exec (.wait st q 1#1 (BitVec.ofNat 16 (2 ^ k.toNat)) 0#1 1#1 0#1) s =
        .next (s.trapNext (g.qset q.toNat true) ls h 0xA0 fun _ => (0x40010000#32 + (g.token k.toNat).cause.setWidth 32, 0#64, 0))

/-- `TST` writes a token's status and, with PW, its progress to scalar registers; `TCLR` makes its tokens IDLE and detaches their operations, which go on;
`TEXP` of a finished token sends its update from the store queue, of a PEND one it attaches an export to the operation, and a fifth export traps (R346,
R347). -/
def Obligations.TokenWords : Prop :=
  ∀ (s : State) (g : Group) (ls : List Nat) (st : Bool) (k : BitVec 4), (hintsOf g ls).dep = none →
    (∀ (d b : BitVec 8), WordReady s g ls 0xA2 st → d.toNat < 192 →
      exec (.tst st k d 0#8 0#1) s = .next (s.scalarNext g ls st (g.sset d.toNat (statusWord (g.token k.toNat).st (g.token k.toNat).cause))) ∧
      (b.toNat % 2 = 0 → b.toNat + 2 ≤ 192 → exec (.tst st k d b 1#1) s = .next (s.scalarNext g ls st
        (((g.sset d.toNat (statusWord (g.token k.toNat).st (g.token k.toNat).cause)).sset b.toNat ((g.token k.toNat).prog.setWidth 32)).sset (b.toNat + 1)
          ((g.token k.toNat).prog.extractLsb' 32 32))))) ∧
    (∀ m : BitVec 16, WordReady s g ls 0xA3 st → g.k.length = 16 → ∃ t g', exec (.tclr st m) s = .next t ∧ t.group? g.uid = some g' ∧
      (∀ i < 16, g'.token i = if m.getLsbD i then {} else g.token i) ∧ g'.s = g.s ∧ g'.q = g.q ∧ g'.sq = g.sq ∧ t.mem = s.mem ∧
      (∀ l < 32, g'.thread l = if l ∈ ls then nextThread s g ls st (g.thread l) else g.thread l) ∧
      t.ops = s.ops.map fun o => if (List.range 16).any fun i => m.getLsbD i && (g.token i).st == .pend && (g.token i).op == o.id then { o with bound := false } else o) ∧
    (∀ (a b : BitVec 8) (y r : BitVec 1) (h : Nat) (p : Phys), a.toNat % 2 = 0 → a.toNat + 2 ≤ 192 → b.toNat < 192 → (y = 1#1 ∨ r = 1#1) →
      (r = 1#1 ∨ b = 0#8) → (r = 1#1 → (g.sget b.toNat).toNat < 2 ^ 16) →
      barrierCheck s (s.issueFor g ls 0xA4 st) (g.spair a.toNat) .barrierWr = .ok p →
      let tok := g.token k.toNat
      let arr := if r = 1#1 then (g.sget b.toNat).toNat else 0
      let u : BUpdate := { arr := arr, cause := if tok.st = .poison then some tok.cause else none, bad := tok.st = .doneBad, unit := g.core, asid := g.asid
                           seq := g.seq, pc := pcOf g ls, lanes := ls }
      let x : Exprt := { bar := g.spair a.toNat, arr := arr, byt := y = 1#1, grp := g.uid, seq := g.seq, pc := pcOf g ls, lanes := ls }
      let entry (us : List (Nat × BUpdate)) : Group := { g with seq := g.seq + 1, sq := g.sq ++ [{ seq := g.seq, kind := .barrier, upds := us }] }
      (WordReady s g ls 0xA4 st → tok.st ≠ .pend → exec (.texp st k a b y r) s = .next (s.scalarNext g ls st (entry [(g.spair a.toNat, u)]))) ∧
      (∀ o, tok.st = .pend → s.op? tok.op = some o → o.id = tok.op →
        (WordReady s g ls 0xA4 st → o.exprts.length < 4 → exec (.texp st k a b y r) s =
          .next (State.scalarNext { s with ops := s.ops.map fun o => if o.id = tok.op then { o with exprts := o.exprts ++ [x] } else o } g ls st (entry []))) ∧
        (TrapReady s g ls h → acceptsHints 0xA4 (hintsOf g ls) = true → 4 ≤ o.exprts.length →
          exec (.texp st k a b y r) s = .next (s.trapNext g ls h 0xA4 fun _ => (0x40050001#32, 0#64, 0)))))

/-- `BINIT` and `ARV` bind their token and enter the store queue with their descriptor; an invalid descriptor is remembered with its cause (R343, R353,
R354). -/
def Obligations.BarrierWritesBind : Prop :=
  ∀ (s : State) (g : Group) (ls : List Nat) (st : Bool) (k : BitVec 4) (a b : BitVec 8) (p : Phys), a.toNat % 2 = 0 → a.toNat + 2 ≤ 192 →
    b.toNat % 2 = 0 → b.toNat + 2 ≤ 192 →
    let va := g.spair a.toNat
    let q := [({ seq := g.seq, kind := .barrier, op := s.nextId } : QEntry)]
    let part : Part := { lane := 0, va := va, phys := p, size := 32 }
    let w := (g.sget b.toNat).toNat
    (WordReady s g ls 0xA5 st → barrierCheck s (s.issueFor g ls 0xA5 st) va .barrierWr = .ok p →
      exec (.binit st k a b) s = .next (s.boundNext g ls st k.toNat { s.newOp g ls k.toNat (.binit (g.sget b.toNat) (g.sget (b.toNat + 1))) with
        parts := [part], va := va,
        stage := if w % 2 ^ 24 ≠ 0 ∧ w / 2 ^ 24 % 8 ≠ 0 ∧ w / 2 ^ 24 % 8 ≠ 7 ∧ w / 2 ^ 28 = 0 then 0 else 0x82 } q)) ∧
    (∀ e ps : BitVec 1, WordReady s g ls 0xA6 st → barrierCheck s (s.issueFor g ls 0xA6 st) va .barrierWr = .ok p →
      exec (.arv st k a b e ps) s = .next (s.boundNext g ls st k.toNat { s.newOp g ls k.toNat (.arv (w % 2 ^ 16)
          (if e = 1#1 then ((g.sget (b.toNat + 1)).toNat : Int) else -((g.sget (b.toNat + 1)).toNat : Int))
          (if ps = 1#1 then some (BitVec.ofNat 8 (w / 2 ^ 24 % 256)) else none)) with
        parts := [part], va := va,
        stage := if w / 2 ^ 16 % 256 = 0 ∧ (if ps = 1#1 then 0xC0 ≤ w / 2 ^ 24 % 256 else w / 2 ^ 24 % 256 = 0) then 0 else 0x83 } q))

/-- `BWAIT` and `BPOLL` on a barrier whose home is here read it there, where the cluster's copies of its lines go first: a reached barrier acquires at its
scope and is reported; one not reached parks a `BWAIT` on it (R352, R355, R357). -/
def Obligations.BarrierReads : Prop :=
  ∀ (s : State) (g : Group) (ls : List Nat) (st : Bool) (q : BitVec 2) (e t b : BitVec 1) (a r : BitVec 8) (pa : Nat), (hintsOf g ls).dep = none →
    a.toNat % 2 = 0 → a.toNat + 2 ≤ 192 →
    let home := s.dropExtent (clusterOf g.core) pa 32
    let bar := barrierOf (getBytes home.mem pa 32)
    let target := g.sget r.toNat
    let reached := bar.valid = false ∨ (bar.phase + 2 ^ 32 - target.toNat) % 2 ^ 32 < 2 ^ 31
    let acquired := if bar.valid then home.acquire g.core bar.scope else home
    (WordReady s g ls 0xA7 st → r.toNat < 192 → barrierCheck s (s.issueFor g ls 0xA7 st) (g.spair a.toNat) .barrierRd = .ok (.home pa) →
      (reached → bar.valid = true → bar.pois = false → ¬(b = 1#1 ∧ bar.lbad = true) →
        exec (.bwait st q e a r t b) s = .next (acquired.scalarNext g ls st (if e = 1#1 then g.qset q.toNat false else g))) ∧
      (reached → (bar.valid = false ∨ bar.pois = true ∨ b = 1#1 ∧ bar.lbad = true) → t = 0#1 →
        exec (.bwait st q e a r t b) s = .next (acquired.scalarNext g ls st (if e = 1#1 then g.qset q.toNat true else g))) ∧
      (¬reached → exec (.bwait st q e a r t b) s = .next (home.parkNext g ls .wait (.barrier pa target)))) ∧
    (WordReady s g ls 0xA8 st → r.toNat % 2 = 0 → r.toNat + 2 ≤ 192 →
      barrierCheck s (s.issueFor g ls 0xA8 st) (g.spair a.toNat) .barrierRd = .ok (.home pa) →
      (reached → exec (.bpoll st q a r) s = .next (acquired.scalarNext g ls st
        (((g.qset q.toNat true).sset r.toNat (BitVec.ofNat 32 bar.flags)).sset (r.toNat + 1) (BitVec.ofNat 32 bar.phase)))) ∧
      (¬reached → exec (.bpoll st q a r) s = .next (home.scalarNext g ls st
        (((g.qset q.toNat false).sset r.toNat (BitVec.ofNat 32 bar.flags)).sset (r.toNat + 1) (BitVec.ofNat 32 bar.phase)))))

/-! ## Engine words -/

/-- The engine commands bind their token and enter the engine queue of their context: each slice of a copy, the first with its record and the slot that it
publishes to, the others with the gather that they join, and each with the lines of its destination absent; a launch that is yet to be read; the key-value
commands with the scalar operands that they capture; and `DRAIN`, which no queue holds (R216, R218, R224, R226, R238 to R240, R269, R277, R278, R280, R365). -/
def Obligations.EngineCommandsBind : Prop :=
  ∀ (s : State) (g : Group) (ls : List Nat) (st : Bool) (k : BitVec 4) (a b : BitVec 8), g.k.length = 16 → a.toNat % 2 = 0 → a.toNat + 2 ≤ 192 →
    (WordReady s g ls 0xB1 st → ∃ t o, exec (.launch st k a) s = .next t ∧ Binds s g ls st k.toNat t o ∧ t.queued g.asid o.id ∧ o.va = g.spair a.toNat ∧
      ∃ l ∈ t.launches, l.op = o.id ∧ l.va = g.spair a.toNat ∧ l.asid = g.asid ∧ l.phase = .queued ∧ o.kind = .launch l.uid) ∧
    (WordReady s g ls 0xB9 st → b.toNat < 192 → ∃ t o, exec (.kvseal st k a b) s = .next t ∧ Binds s g ls st k.toNat t o ∧ t.queued g.asid o.id ∧
      o.va = g.spair a.toNat ∧ o.kind = .kvseal ∧ o.args = [g.sget b.toNat]) ∧
    (WordReady s g ls 0xBA st → b.toNat < 192 → ∃ t o, exec (.kvhdr st k a b) s = .next t ∧ Binds s g ls st k.toNat t o ∧ t.queued g.asid o.id ∧
      o.va = g.spair a.toNat ∧ o.kind = .kvhdr ∧ o.args = [g.sget b.toNat]) ∧
    (∀ oo ww : BitVec 1, WordReady s g ls 0xB8 st → kvldMemType s (s.issueFor g ls 0xB8 st) (g.spair a.toNat) = false →
      let n := if ww = 1#1 then 4 else 2
      let off := (g.sget (b.toNat + 1)).toNat
      b.toNat % n = 0 → b.toNat + n ≤ 192 →
      ∃ t o, exec (.kvld st k a b oo ww) s = .next t ∧ Binds s g ls st k.toNat t o ∧ t.queued g.asid o.id ∧ o.va = g.spair a.toNat ∧ o.kind = .kvld ∧
        o.args = ((List.range n).map fun i => g.sget (b.toNat + i)) ++ List.replicate (4 - n) 0#32 ++ [oo.setWidth 32, ww.setWidth 32] ∧
        t.absent = s.absent ++ if ww = 1#1 ∨ off % 512 ≠ 0 then [] else
          (teamLines (s.teamOf g) off (min (bitsOf (g.sget b.toNat).toNat 16 16 * 4096) 122880)).map fun l => (g.core, l, o.id)) ∧
    (∀ (oo dd : BitVec 1) (p : Phys) (idx : Nat), WordReady s g ls 0xB0 st → b.toNat % (if oo = 0#1 ∧ dd = 0#1 then 1 else 4) = 0 →
      b.toNat + (if oo = 0#1 ∧ dd = 0#1 then 1 else 4) ≤ 192 → g.spair a.toNat % 128 = 0 →
      recordCheck s (s.issueFor g ls 0xB0 st) (g.spair a.toNat) 128 = .ok p → idx < 32 → g.sget b.toNat = BitVec.ofNat 32 idx →
      let doff := if dd = 1#1 then (g.sget (b.toNat + 1)).toNat else 0
      let soff := if oo = 1#1 then g.spair (b.toNat + 2) else 0
      let sl (id : Nat) : Slice := { idx := idx, op := id, dov := dd = 1#1, sov := oo = 1#1, doff := doff, soff := soff }
      let joined (t : State) (o : Op) (x : Gather) (bs : Bytes) : Prop := exec (.cpy st k a b oo dd) s = .next t ∧ Binds s g ls st k.toNat t o ∧
        t.queued g.asid o.id ∧ o.kind = .copy x.id ∧ t.gather? x.id = some x ∧ x.recd = bs ∧ o.nchunk = ((shapeOf bs).dl + 511) / 512 ∧
        t.absent = s.absent ++ if (shapeOf bs).dkind = 1 then
          (teamLines (s.teamOf g) ((shapeOf bs).dst % 2 ^ 32 + doff) (shapeOf bs).dl).map fun l => (g.core, l, o.id) else []
      (∀ bs, s.gatherFor g.team (g.spair a.toNat) idx = none → s.recordView g p 128 = .bytes bs → idx ≤ (shapeOf bs).slm1 →
        copyCheck bs (s.teamOf g) doff (sextNat soff 64) = 0 → (∀ y ∈ s.gathers, y.id < s.nextId) →
        let slot := if (shapeOf bs).pub then publishSlot (s.teamOf g) (shapeOf bs) doff else none
        ∃ t o x, joined t o x bs ∧ x.team = g.team ∧ x.va = g.spair a.toNat ∧ x.slices = [sl o.id] ∧ x.slot = slot ∧
          x.fail = (if (shapeOf bs).pub ∧ slot = none then some 0x44#8 else none) ∧ (slot = none → t.teams = s.teams) ∧
          ∀ n j tm, slot = some (n, j) → s.team? g.team = some tm → ∃ tm' q, t.team? g.team = some tm' ∧
            (tm'.queues.find? fun q => q.idx == n) = some q ∧ q.slots[j]? = some (.filling, 0#32)) ∧
      (∀ y, s.gatherFor g.team (g.spair a.toNat) idx = some y → s.gather? y.id = some y → idx ≤ (shapeOf y.recd).slm1 →
        ∃ t o x, joined t o x y.recd ∧ x = { y with slices := y.slices ++ [sl o.id] })) ∧
    (∀ m : BitVec 3, (m = 0#3 ∨ m = 5#3 ∨ m = 6#3) → WordReady s g ls 0x0A st → exec (.drain st k m) s =
      .next (s.boundNext g ls st k.toNat (s.newOp g ls k.toNat (.drain (m = 6#3))) []))

/-- The pod commands with a record that passes the checks bind their token with the record, their identifier and their ordinal, and enter the engine queue;
an ordinal counts the commands of its context with one identifier (R318, R321, R322, R331, R336). The model's readings behind it: log entries 54, 55, 160. -/
def Obligations.PodCommandsBind : Prop :=
  ∀ (s : State) (g : Group) (ls : List Nat) (st : Bool) (k : BitVec 4) (a b : BitVec 8) (p : Phys) (bs : Bytes), g.k.length = 16 → a.toNat % 2 = 0 →
    a.toNat + 2 ≤ 192 → b.toNat < 192 → g.spair a.toNat % 256 = 0 → s.recordView g p 256 = .bytes bs →
    let w := (g.sget b.toNat).toNat
    let done (i : Instr) (kind : OpKind) (cid ordn : Nat) : Prop := ∃ t o, exec i s = .next t ∧ Binds s g ls st k.toNat t o ∧ t.queued g.asid o.id ∧
      o.kind = kind ∧ o.recd = bs ∧ o.args = [g.sget b.toNat] ∧ o.cid = cid ∧ o.ordn = ordn
    let nth (kind cid : Nat) : Nat := ((s.ordinals.find? fun o => o.1 == g.asid && o.2.1 == kind && o.2.2.1 == cid).map (·.2.2.2)).getD 0 + 1
    let free (kind cid : Nat) : Prop := ∀ d ∈ s.descs, ¬(d.aux = 7#16 ∧ fieldLe d.data 0 4 = cid ∧ fieldLe d.data 4 4 = nth kind cid ∧
      fieldLe d.data 8 1 = kind)
    (WordReady s g ls 0xBC st → recordCheck s (s.issueFor g ls 0xBC st) (g.spair a.toNat) 256 = .ok p → collCheck bs (s.teamOf g) = 0 →
      free 0 (fieldLe bs 0xA0 4) → done (.coll st k a b) .coll (fieldLe bs 0xA0 4) (nth 0 (fieldLe bs 0xA0 4))) ∧
    (WordReady s g ls 0xBD st → recordCheck s (s.issueFor g ls 0xBD st) (g.spair a.toNat) 256 = .ok p → mcstCheck bs (s.teamOf g) w = 0 →
      done (.mcst st k a b) .mcst 0 0) ∧
    (WordReady s g ls 0xBE st → recordCheck s (s.issueFor g ls 0xBE st) (g.spair a.toNat) 256 = .ok p → dispCheck bs (s.teamOf g) false w = 0 →
      free 1 (dispDid bs) → done (.rte st k a b) .rte (dispDid bs) (nth 1 (dispDid bs))) ∧
    (WordReady s g ls 0xBF st → recordCheck s (s.issueFor g ls 0xBF st) (g.spair a.toNat) 256 = .ok p → dispCheck bs (s.teamOf g) true w = 0 →
      free 2 (dispDid bs) → done (.rtc st k a b) .rtc (dispDid bs) (nth 2 (dispDid bs)))

/-- `SACQ`, `SPOP` and `SREL` move a slot through its states and the queue's pointers on, or park; `SPOP` is the word of R242, which parks unless the next
slot is FILLED; a queue keeps its slots' states as they stood at the start of the cycle (R113, R237, R241 to R243). -/
def Obligations.StreamQueueWords : Prop :=
  ∀ (s : State) (g : Group) (ls : List Nat) (st : Bool) (d c : BitVec 8) (n : BitVec 3) (tm : Team) (q : StreamQ), (hintsOf g ls).dep = none →
    s.team? g.team = some tm → (tm.queues.find? fun x => x.idx == n.toNat) = some q → d.toNat < 192 → c.toNat < 192 →
    let off (j : Nat) : Word := BitVec.ofNat 32 ((q.basel + j * q.slotl) * 512)
    let slot (j : Nat) := q.slots.getD j (.empty, 0#32)
    let upd (j : Nat) (w : SlotState × Word) (f : StreamQ → StreamQ) : State := s.modTeam g.team fun t =>
      let cycle := (s.die (dieOf t.core)).cycles
      { t with queues := mapIf (fun x => x.idx == n.toNat) (fun x => f (x.put cycle j w.1 w.2)) t.queues }
    (∀ cycle j sl w, (q.put cycle j sl w).slots = q.slots.set j (sl, w) ∧
      (q.put cycle j sl w).before cycle = (if q.prev.map (·.1) = some cycle then q.before cycle else q.slots.map (·.1))) ∧
    (WordReady s g ls 0xB2 st →
      ((slot q.aptr).1 = .empty → exec (.sacq st d n) s = .next ((upd q.aptr (.acquired, 0#32) fun x => { x with aptr := (q.aptr + 1) % q.slots.length }).scalarNext g ls st
        (g.sset d.toNat (off q.aptr)))) ∧
      ((slot q.aptr).1 ≠ .empty → exec (.sacq st d n) s = .next (s.parkNext g ls .wait (.slotEmpty n.toNat)))) ∧
    encode (.spop st d c n) = some ((if st then 2 ^ 31 else 0) + 0xB3 * 2 ^ 23 + d.toNat * 2 ^ 11 + c.toNat * 2 ^ 3 + n.toNat) ∧
    (WordReady s g ls 0xB3 st →
      ((slot q.pptr).1 = .filled → exec (.spop st d c n) s = .next ((upd q.pptr (.popped, 0#32) fun x => { x with pptr := (q.pptr + 1) % q.slots.length }).scalarNext g ls st
        ((g.sset d.toNat (off q.pptr)).sset c.toNat (slot q.pptr).2))) ∧
      ((slot q.pptr).1 ≠ .filled → exec (.spop st d c n) s = .next (s.parkNext g ls .wait (.slotFilled n.toNat)))) ∧
    (WordReady s g ls 0xB4 st → ∀ j < q.slots.length, g.sget d.toNat = off j → q.basel + q.slots.length * q.slotl ≤ 512 → 0 < q.slotl →
      ((slot j).1 = .popped → exec (.srel st d 0#1 n) s = .next ((upd j (.empty, 0#32) id).onLanes g ls fun _ t => nextThread s g ls st t)) ∧
      ((slot j).1 = .acquired → exec (.srel st d 1#1 n) s = .next ((upd j (.filled, statusWord .done 0#8) id).onLanes g ls fun _ t => nextThread s g ls st t)))

/-! ## Matrix words -/

/-- An accepted `MMA` of each format binds its token with what it captures of each lane, and joins its tile's order; `ACACQ` binds its token and the tile is
acquiring (R248, R250 to R252, R256). -/
def Obligations.MatrixWordsBind : Prop :=
  ∀ (s : State) (g : Group) (ls : List Nat) (st : Bool) (k : BitVec 4) (c : BitVec 5) (a b : BitVec 7) (tl : Tile), s.tile? g c.toNat = some tl →
    tl.st = .array →
    (∀ row ∈ mmaRows st k c a b, WordReady s g ls row.1 st → a.toNat < s.budget g →
      let d := g.sget b.toNat
      let m := mmaDesc d.toNat
      m.as = false → mmaCode (s.issueFor g ls row.1 st) (s.groupCode g).wbk row.2.2 a.toNat d.toNat = none →
      FreeRegs s g ls (mmaReads row.2.2 a.toNat m) →
      let o := s.newOp g ls k.toNat (.mma row.2.2 c.toNat d ((takersOf g ls 0).map fun l => mmaRow row.2.2 a.toNat m l (g.thread l)))
      exec row.2.1 s = .next ((s.boundNext g ls st k.toNat o []).modTile g.team (g.part / 4) c.toNat fun x => { x with ord := x.ord ++ [s.nextId] })) ∧
    (WordReady s g ls 0xCC st → exec (.acacq st k c) s = .next ((s.boundNext g ls st k.toNat (s.newOp g ls k.toNat (.acacq c.toNat)) []).modTile g.team
      (g.part / 4) c.toNat fun x => { x with st := .acquiring g.idx s.nextId, ord := x.ord ++ [s.nextId] }))

/-- The words on a group's own tile complete: `ACREL` gives it back, `ACZ` clears the rows of the issue set, `ACRD` leaves the rows pending, `ACWR` writes
them (R257 to R259). -/
def Obligations.TileWords : Prop :=
  ∀ (s : State) (g : Group) (ls : List Nat) (st : Bool) (c : BitVec 5) (v b : BitVec 7) (tm : Team) (tl : Tile), (hintsOf g ls).dep = none →
    s.team? g.team = some tm → tm.tile? (g.part / 4) c.toNat = some tl → tl.st = .group g.idx →
    let m := accDesc (g.sget b.toNat).toNat
    let ok := (g.sget b.toNat).toNat < 2 ^ 12 ∧ m.cfmt ≠ 3 ∧ m.c0 + m.nc ≤ 32 ∧ v.toNat + m.regs ≤ s.budget g
    (WordReady s g ls 0xCB st → exec (.acrel st c) s = .next ((s.modTile g.team (g.part / 4) c.toNat fun x => { x with st := .array }).onLanes g ls
      fun _ t => nextThread s g ls st t)) ∧
    (WordReady s g ls 0xCD st → exec (.acz st c) s = .next (State.onLanes { s with
      mem := ls.foldl (fun mm l => putBytes mm (tileElem tm (g.part / 4) c.toNat l 0) (List.replicate 128 0#8)) s.mem } g ls
        fun _ t => nextThread s g ls st t)) ∧
    (WordReady s g ls 0xCE st → ok → v.toNat < s.budget g → FreeRegs s g ls (regRun v.toNat m.regs) →
      exec (.acrd st c v b) s = .next (s.bump.onLanes g ls fun l t => nextThread s g ls st (t.withPending
        ((acrdWords s tm (g.part / 4) c.toNat l m).zipIdx.map fun r => pendingOf s g ls 0xCE (.v (v.toNat + r.2)) (r.1, 0#5))))) ∧
    (WordReady s g ls 0xCF st → ok → v.toNat < s.budget g → FreeRegs s g ls (regRun v.toNat m.regs) →
      exec (.acwr st c v b) s = .next (State.onLanes { s with
        mem := ls.foldl (fun mm l => (List.range m.nc).foldl (fun mm j => putBytes mm (tileElem tm (g.part / 4) c.toNat l (m.c0 + j))
          (natLe 4 (acwrElem (g.thread l) v.toNat m j))) mm) s.mem } g ls fun _ t => nextThread s g ls st t))

/-! ## Parks, preconditions and segments -/

/-- A lane that takes part in a register word of one of the V3 rows and names the target of a PEND token parks before it with nothing done, while the other
lanes go on. A word that takes preconditions and binds no token parks every lane while one of them is PEND; on one that has failed it is skipped, or traps
with that cause, as POL says (R92, R118, R121). The model's readings behind it: log entry 149. -/
def Obligations.ParksBeforeTheWord : Prop :=
  (∀ (s : State) (g : Group) (ls : List Nat) (st : Bool) (d a b : BitVec 7) (gd : BitVec 2), d.toNat < s.budget g → a.toNat < s.budget g → b.toNat < s.budget g →
    let waits (op l : Nat) : List Nat := (namedRegs op d.toNat a.toNat b.toNat).flatMap fun r => trackers s g.uid l r
    let lane (op l : Nat) (t done : Thread) : Thread :=
      if guardOn g ls gd.toNat t then (if waits op l = [] then nextThread s g ls st done else parkedBefore s.timeNs .tokenTarget (.ops (waits op l)) t)
      else nextThread s g ls st t
    (∀ row ∈ intRows st d a b gd, WordReady s g ls row.1 st → exec row.2.1 s = .next (s.onLanes g ls fun l t =>
      lane row.1 l t (t.vset d.toNat (row.2.2 (t.vget a.toNat) (t.vget b.toNat) (t.vget d.toNat))))) ∧
    (∀ row ∈ longRows3 st d a b gd, WordReady s g ls row.1 st → exec row.2.1 s = .next (s.bump.onLanes g ls fun l t =>
      lane row.1 l t (t.withPending [pendingOf s g ls row.1 (.v d.toNat) (row.2.2 (hintsOf g ls) g.fpst (t.vget a.toNat) (t.vget b.toNat) (t.vget d.toNat))]))) ∧
    (∀ row ∈ longRows1 st d a gd, WordReady s g ls row.1 st → exec row.2.1 s = .next (s.bump.onLanes g ls fun l t =>
      lane row.1 l t (t.withPending [pendingOf s g ls row.1 (.v d.toNat) (row.2.2 (hintsOf g ls) (t.vget a.toNat))])))) ∧
  (∀ (s : State) (g : Group) (ls : List Nat) (st : Bool) (f : Fields) (dp : DepHint), (hintsOf g ls).dep = some dp →
    let pend := (samplePre g dp).filter fun p => p.res.isNone
    ∀ row ∈ gatedRows s g st f, row.2.2 →
      (WordReady s g ls row.1 st →
        (pend ≠ [] → exec row.2.1 s = .next (s.parkNext g ls .precondition (.ops (pend.map (·.op))))) ∧
        (pend = [] → dp.pol = 0#2 → (∃ p ∈ samplePre g dp, (preBad dp.badp p).isSome) →
          exec row.2.1 s = .next (s.onLanes g ls fun _ t => nextThread s g ls st t))) ∧
      (∀ h c, TrapReady s g ls h → acceptsHints row.1 (hintsOf g ls) = true → pend = [] → dp.pol = 1#2 →
        (samplePre g dp).findSome? (preBad dp.badp) = some c →
        exec row.2.1 s = .next (s.trapNext g ls h row.1 fun _ => (0x40010000#32 + c.setWidth 32, 0#64, 0))))

/-- A segment closes, whatever results it holds (R121 to R123, R158, R160). The first word in issue order that raised an enabled flag, if any, is named, and
its results are discarded; every flag goes into FPST; each vector register, predicate and scalar register takes the last of its results that is left, in
issue order, or keeps its value; and nothing else of the thread or its group changes. -/
def Obligations.SegmentsClose : Prop :=
  ∀ (g : Group) (t : Thread),
    let bad := t.pend.find? fun p => p.flags &&& p.te != 0#5
    let left := t.pend.filter fun p => !(bad.any fun b => b.wid == p.wid)
    let last (d : Dest) : Option Word := (left.reverse.find? fun p => p.dest == d).map (·.val)
    let r := closeSegment g t
    r.2.2 = bad.map (fun b => (b.pc, b.flags &&& b.te, b.op)) ∧
    r.1 = { g with s := r.1.s, spend := r.1.spend, fpst := g.fpst ||| (t.pend.foldl (fun f p => f ||| p.flags) 0#5).setWidth 32 } ∧
    r.2.1 = { t with v := r.2.1.v, p := r.2.1.p, pend := [] } ∧
    (∀ n < t.v.length, r.2.1.vget n = (last (.v n)).getD (t.vget n)) ∧
    (∀ n < 8, r.2.1.pget n = ((last (.p n)).map fun v => v != 0#32).getD (t.pget n)) ∧
    (let number (p : Pending) : Option Nat := match p.dest with
       | .s id => some id
       | _ => none
     let entry (id : Nat) : Option SPend := g.spend.find? fun x => x.id == id
     (t.pend.filterMap number).Pairwise (· < ·) → (g.spend.map (·.id)).Nodup →
       (∀ n < g.s.length, r.1.sget n = ((left.filterMap number).reverse.findSome? fun id => ((entry id).filter fun x => x.sd == n).map (·.val)).getD (g.sget n)) ∧
       ∀ x, x ∈ r.1.spend ↔ x ∈ g.spend ∧ x.id ∉ t.pend.filterMap number ∧ ∀ id ∈ left.filterMap number, ∀ y, entry id = some y → ¬(x.sd = y.sd ∧ x.id ≤ id))

/-! ## Steps of a core and its memory -/

/-- What happens around issue: the starvation guards, the entry to a handler that has waited, a long-class result that lands and lets its thread go on, and
a fetch ahead of issue (R12, R100, R115, R116, R121, R123, R368). The model's readings behind it: log entries 9, 36, 153. -/
def Obligations.StepsAroundIssue : Prop :=
  ∀ (s : State) (g : Group) (lane : Nat), s.group? g.uid = some g → (∀ x ∈ s.groups, x.uid = g.uid → x = g) → g.threads.length = 32 → lane < 32 →
    let th := g.thread lane
    (th.issues = true → 1024 ≤ th.starve → exec (.threadStarved g.uid lane) s = .next (s.setGroup (g.setThread lane { th with starved := true }))) ∧
    (g.resident = true → g.finished = false → issuable g ≠ [] → 4096 ≤ sinceIssue s g →
      exec (.groupStarvationGuard g.uid) s = .next (s.setGroup { g with owed := true })) ∧
    (∀ r h, th.trap = some r → r.hold = none → (s.groupCode g).trap = some h → g.resident = true → th.stopped = none → th.pend = [] →
      trackers s g.uid lane 0 = [] → trackers s g.uid lane 1 = [] → exec (.trapEntry g.uid lane) s =
        .next ((s.setGroup ((g.setThread lane (handlerThread h lane r.tcode th)).withFrames (putBytes g.frames (64 * lane) (frameBytes th r)))).framesOut g (64 * lane)
          (frameBytes th r))) ∧
    (∀ p n, th.pend = [p] → p.landed = false → p.dest = .v n → p.flags &&& p.te = 0#5 → (s.team? g.team).bind (·.stop) = none →
      (∀ l < 32, l ≠ lane → (g.thread l).pend = [] ∧ (g.thread l).st ≠ .parked .settle) →
      (th.st ≠ .parked .settle → exec (.longResultLand g.uid lane) s = .next (s.setGroup (g.setThread lane { th with pend := [{ p with landed := true }] }))) ∧
      (th.st = .parked .settle → th.wake = .settle → exec (.longResultLand g.uid lane) s = .next (s.setGroup (Group.setThread
        { g with fpst := g.fpst ||| p.flags.setWidth 32 } lane { th with v := th.v.set n p.val, pend := [], st := .runnable, wake := .none })))) ∧
    (∀ l n rest, s.launch? g.launch = some l → issueSet g = lane :: rest → 1 ≤ n → n ≤ 16 → g.resident = true →
      let img := s.groupCode g
      let pc := th.pc.toNat + 4 * n
      let va := img.va + img.codeOff + pc
      pc ∉ g.ahead →
      (img.codeLen ≤ pc → exec (.runAheadFetch g.uid n) s = .next (s.count g.core g.asid g.team 0x041 1)) ∧
      (∀ t, pc < img.codeLen → s.leased l rightsEx va 4 = true → s.tlb? (clusterOf g.core) g.asid va = some t →
        (t.ex = true → t.a = true → t.mig = false → exec (.runAheadFetch g.uid n) s = .next (((s.fillTlb { t with unit := clusterOf g.core }).modGroup g.uid fun g =>
          { g with ahead := g.ahead ++ [pc] }).count g.core g.asid g.team 0x040 1)) ∧
        (t.ex = false ∨ t.a = false ∨ t.mig = true → exec (.runAheadFetch g.uid n) s = .next (s.count g.core g.asid g.team 0x041 1))))

/-- Accesses to HBM are performed: a store leaves its queue into its cluster's cache, or for its home where its cache policy is `.nocc`, and completes as
its line is written home; a load takes each byte from the youngest of its group's earlier stores to it or from the caches and memory; an atomic and a
compare-and-swap give the old value and write the new one at the home; each finishes its token (R93, R186, R187, R193, R195, R196, R198, R203, R206, R207).
The model's readings behind it: log entries 46, 56, 156, 158, 190. -/
def Obligations.AccessesArePerformed : Prop :=
  ∀ (s : State) (g : Group) (o : Op) (p : Part) (pa : Nat) (sc : BitVec 3), InFlight s g o → o.parts = [p] → p.phys = .home pa → p.fin = none →
    g.threads.length = 32 → p.lane < 32 → (∀ l ∈ s.cc, l.data.length = 256 ∧ l.dirty.length = 256) → s.mem.wf = true → pa + 256 < hbmEnd →
    s.acquireBefore o p.lane = false → s.lostIn pa 8 = false →
    let clu := clusterOf g.core
    let word (bs : Bytes) : Word := BitVec.ofNat 32 (leNat bs)
    let old := BitVec.ofNat 32 (getLe s.mem pa 4)
    let reg (t : State) (n : Nat) (x : Word) : Prop := ∃ g', t.group? g.uid = some g' ∧ (g'.thread p.lane).vget n = x
    let only (t : State) (n : Nat) : Prop := ∀ a, a < pa ∨ pa + n ≤ a → memGet t.mem a = memGet s.mem a
    let roomy : Prop := (s.cc.filter fun l => l.clu == clu).length < 8192
    (∀ rest, o.kind = .store false sc → p.size = p.data.length → 0 < p.size → pa % 256 + p.size ≤ 256 → s.loadOverlap clu o p = false →
      s.lostIn pa p.size = false → (∃ t ∈ g.threads, t.st ≠ .exited) → g.sq = { seq := o.seq, kind := .store, op := o.id, lane := p.lane } :: rest →
      ∃ t g', exec (.storeQueueDrain g.uid) s = .next t ∧ t.group? g.uid = some g' ∧ g'.sq = (rest.filter fun x => !(x.op == o.id && x.lane == p.lane)) ∧
        t.op? o.id = some { o with parts := [{ p with sent := true }] } ∧ (∀ i < p.size, t.clusterByte clu (pa + i) = p.data.getD i 0#8) ∧
        (o.cp ≠ 4 → roomy → t.mem = s.mem) ∧ (o.cp = 4 → (∀ l ∈ s.cc, l.clu ≠ clu) → t.mem = putBytes s.mem pa p.data)) ∧
    (o.kind = .store false sc → p.sent = true → p.tgt = [] → ∃ t, exec (.memoryReply o.id p.lane) s = .next t ∧ Finished t o .done 0#8 ∧
      ∀ l, s.ccLine? clu pa = some l → ∀ a, memGet t.mem a =
        if l.pa ≤ a ∧ a < l.pa + 256 ∧ l.dirty.getD (a - l.pa) false = true then l.data.getD (a - l.pa) 0#8 else memGet s.mem a) ∧
    (∀ n, o.kind = .load false sc → p.size = 4 → p.tgt = [n] → n < 128 → (g.thread p.lane).v.length = 128 → s.loadBefore o p.lane = false →
      s.ownBlocked g o.seq p.phys 4 = false → ∃ t, exec (.memoryReply o.id p.lane) s = .next t ∧ Finished t o .done 0#8 ∧ (roomy → t.mem = s.mem) ∧
        reg t n (word ((List.range 4).map fun i => (s.forwarded g o.seq (pa + i)).getD (s.coreByte g.core o.asid (p.va + i) (pa + i))))) ∧
    (∀ n, p.sent = true → p.tgt = [n] → n < 128 → (g.thread p.lane).v.length = 128 → s.atomBefore o pa [p.lane] = false → (∀ l ∈ s.cc, l.clu ≠ clu) →
      (∀ op r, o.kind = .atom op false r 0#2 sc → p.data.length = 4 → ∃ t, exec (.memoryReply o.id p.lane) s = .next t ∧ Finished t o .done 0#8 ∧ only t 4 ∧
        reg t n old ∧ getLe t.mem pa 4 = (atomValue op old (word p.data)).toNat) ∧
      (∀ r x y, o.kind = .cas false r 0#2 sc → p.data = natLe 4 x ++ natLe 4 y → x < 2 ^ 32 → y < 2 ^ 32 → ∃ t, exec (.memoryReply o.id p.lane) s = .next t ∧
        Finished t o .done 0#8 ∧ only t 4 ∧ reg t n old ∧ getLe t.mem pa 4 = if old.toNat = x then y else old.toNat))

/-- A versioned tile: an `STT` makes its tile's version odd, and even again once its data are at their homes; an `LDT` that saw an odd or a changed version
reads it again, and waits while it stays odd (R211 to R213). -/
def Obligations.TileVersions : Prop :=
  ∀ (s : State) (g : Group) (o : Op) (p : Part) (pa : Nat) (sc : BitVec 3), InFlight s g o → o.parts = [p] → p.phys = .home pa → p.fin = none →
    s.mem.wf = true → pa + 256 < hbmEnd → s.lostIn pa 8 = false →
    let w := getLe s.mem pa 8
    let at' (t : State) (v : Nat) : Prop := getLe t.mem pa 8 = v ∧ ∀ a, a < pa ∨ pa + 8 ≤ a → memGet t.mem a = memGet s.mem a
    (o.kind = .stt 0#2 sc → p.sent = true → s.acquireBefore o p.lane = false → s.tileBusy o.id p.lane = false → (∀ l ∈ s.cc, l.clu ≠ clusterOf g.core) →
      (∀ segs spad, p.stage = 0 → tileValid w = true → w % 2 = 0 → s.tileExtent g o p w true = .ok segs spad → ∃ t, exec (.sttProgress o.id p.lane) s = .next t ∧
        at' t (versionUp w 1) ∧ t.op? o.id = some { o with parts := [{ p with tile := w, stage := 1 }] }) ∧
      (p.stage = 2 → p.tgt = [] → p.tile < 2 ^ 64 → ∃ t, exec (.sttProgress o.id p.lane) s = .next t ∧ at' t (versionUp p.tile 2) ∧ Finished t o .done 0#8)) ∧
    (o.kind = .ldt 0#2 sc →
      (p.stage = 1 → p.tile ≠ w → exec (.ldtRetry o.id p.lane) s = .next (s.modPart o.id p.lane fun x => { x with stage := 0 })) ∧
      (p.stage = 1 → p.tile = w → exec (.ldtRetry o.id p.lane) s = .next s) ∧
      (p.stage = 3 → exec (.ldtRetry o.id p.lane) s = .next (s.modPart o.id p.lane fun x => { x with stage := 0 })))

/-! ## Steps of translation and of Ochre's page service -/

/-- A walk returns and fills the cluster's TLB and the home slice, or nothing when its leaf lacks the access's right; a light fault sets A, and D for a
store, in the leaf and shoots its translations down; a page migrates in two occurrences, first MIG, then the copy and the new frame; a team late on a
migrating page is ordered out (R56, R58, R59, R61, R62, R382, R384). The model's readings behind it: log entries 61, 141, 156, 157, 173. -/
def Obligations.PagesAreServed : Prop :=
  ∀ (s : State) (asid va : Nat) (e : Tlb), s.mem.wf = true →
    let same (t : State) (place : Nat) (but : Nat → Prop) : Prop := ∀ i < 64, ¬but i → bitOf (getLe t.mem place 8) i = bitOf (getLe s.mem place 8) i
    let shot (t : State) : Prop := ∀ u a, e.va ≤ a → a < e.va + e.span → t.tlb? u asid a = none
    (∀ clu < 48, ∀ need, (clu, asid, va, need) ∈ s.walkReqs → s.secondLevel clu asid va = some e → e.asid = asid → e.va ≤ va → va < e.va + e.span →
      ∃ t, exec (.tlbWalkReturn clu asid va) s = .next t ∧ (∀ n, (clu, asid, va, n) ∉ t.walkReqs) ∧ t.mem = s.mem ∧
        (e.gives (rightsOf need) = true → localMapped (e.addr va) = true → t.tlb? clu asid va = some { e with unit := clu } ∧
          t.tlb? (slice2 (4 * clu) asid va) asid va = some { e with unit := slice2 (4 * clu) asid va }) ∧
        ((∀ n, (clu, asid, va, n) ∈ s.walkReqs → e.gives (rightsOf n) = false) → t.tlb = s.tlb)) ∧
    (∀ place st, (asid, va, st) ∈ s.lightReqs → s.walk asid va = .leaf e place → place ≠ noEntry → place + 8 ≤ hbmEnd →
      ∃ t, exec (.lightFaultService asid va) s = .next t ∧ bitOf (getLe t.mem place 8) 6 = true ∧
        (bitOf (getLe t.mem place 8) 7 = true ↔ bitOf (getLe s.mem place 8) 7 = true ∨ (asid, va, true) ∈ s.lightReqs) ∧
        same t place (fun i => i = 6 ∨ i = 7) ∧ (∀ a, a < place ∨ place + 8 ≤ a → memGet t.mem a = memGet s.mem a) ∧ shot t ∧ ∀ st, (asid, va, st) ∉ t.lightReqs) ∧
    (∀ place frame, s.walk asid va = .leaf e place → place ≠ noEntry → place + 8 ≤ hbmEnd → e.span = 65536 → e.dev = s.devid → e.mt = 0 → frame % 65536 = 0 →
      frame < hbmEnd → (∀ l ∈ s.cc, l.dirty.any id = false) →
      let old := getLe s.mem place 8 / 2 ^ 16 % 2 ^ 30 * 65536
      frame ≠ old →
      (e.mig = false → s.frameBusy old = false → s.frameFixed e = false → s.migrating = [] → ∃ t, exec (.migration asid va frame) s = .next t ∧ bitOf (getLe t.mem place 8) 10 = true ∧
        same t place (fun i => i = 10) ∧ (old, frame) ∈ t.migrating ∧ shot t) ∧
      (e.mig = true → (old, frame) ∈ s.migrating → (place + 8 ≤ old ∨ old + 65536 ≤ place) → (place + 8 ≤ frame ∨ frame + 65536 ≤ place) →
        ∃ t, exec (.migration asid va frame) s = .next t ∧ bitOf (getLe t.mem place 8) 10 = false ∧ getLe t.mem place 8 / 2 ^ 16 % 2 ^ 30 * 65536 = frame ∧
          same t place (fun i => i = 10 ∨ 16 ≤ i ∧ i < 46) ∧ (∀ i < 65536, memGet t.mem (frame + i) = memGet s.mem (old + i)) ∧ shot t)) ∧
    (∀ tm g th, s.team? tm.uid = some tm → g ∈ s.groups → g.team = tm.uid → th ∈ g.threads → th.st = .parked .migration → th.parkedAt + 50000 ≤ s.timeNs →
      tm.phase = .resident → tm.stop = none → (∀ l ∈ s.launches, l.isCtrl = false) → ∃ t fs, exec (.migrationSwapOut tm.uid) s = .next t ∧ t.mem = s.mem ∧
        t.team? tm.uid = some { tm with stop := some { kind := .swapped, cycle := (s.die (dieOf tm.core)).cycles, ns := s.timeNs, full := true }, away := fs } ∧
        (∀ f ∈ s.movingFrame th.wake, f ∈ fs) ∧
        ∀ x ∈ t.groups, x.team = tm.uid → x.full = true)

/-! ## Steps of engines and arrays -/

/-- A complete copy starts, leaves its queue and finishes; each of its chunks lands in the scratchpad with its line present; an `MMA` starts in its tile's
order and leaves the sums in its tile's rows, but where it wrote them before, of the units as it read them; an `ACACQ` gives the tile to its group (R218,
R219, R227, R230, R231, R248, R252 to R254, R256, R261). The model's readings behind it: log entries 38, 63, 181. -/
def Obligations.EnginesRun : Prop :=
  ∀ (s : State) (g : Group) (o : Op), InFlight s g o → s.mem.wf = true → s.rtx = [] → s.hostReads = [] →
    (∀ x sl tm, o.kind = .copy x.id → s.gather? x.id = some x → x.slices = [sl] → sl.idx = 0 → sl.op = o.id → s.team? x.team = some tm →
      let h := shapeOf x.recd
      (o.started = false → o.acq = false → x.started = false → x.fail = none → h.slm1 = 0 → copyCheck x.recd tm x.doff x.soff = 0 →
        s.controlAway o.asid = false → s.teamSaved o = false → ∃ t, exec (.engineCommandStart o.id) s = .next t ∧ t.mem = s.mem ∧
          t.gather? x.id = some { x with started := true } ∧ t.op? o.id = some { o with started := true } ∧ ∀ c ∈ t.contexts, c.asid = tm.asid → o.id ∉ c.engq) ∧
      (∀ i bs, x.started = true → o.fail = 0#8 → o.stage ≠ 0 → i ∉ o.landed → i ∉ o.dropped → i < chunksOf h.dl → (∀ y ∈ o.got, y.1 ≠ i) → h.dkind = 1 → h.ckv = false →
        h.ckg = false → s.chunkData o h x tm.core tm.spBase i (min 512 (h.dl - 512 * i)) = (0, .ok bs) →
        let dst := spadAddr tm.core (tm.spBase * 512 + h.dstAt x.doff + 512 * i)
        ∃ t o', exec (.chunkLand o.id i) s = .next t ∧ t.op? o.id = some o' ∧ o'.landed = o.landed ++ [i] ∧ getBytes t.mem dst bs.length = bs ∧
          (∀ a, a < dst ∨ dst + bs.length ≤ a → memGet t.mem a = memGet s.mem a) ∧
          ∀ a ∈ t.absent, ¬(a.1 = tm.core ∧ a.2.1 = tm.spBase + (h.dstAt x.doff + 512 * i) / 512 ∧ a.2.2 = o.id)) ∧
      (x.started = true → o.fail = 0#8 → chunksOf h.dl ≤ o.landed.length → h.badl = 0 → x.slot = none → ∃ t, exec (.copyFinish o.id) s = .next t ∧
        t.gather? x.id = none ∧ (o.rel = false → t.mem = s.mem) ∧ Finished t o (if o.bad = [] then .done else .doneBad) 0#8)) ∧
    (∀ fmt acc d rows tm tl, o.kind = .mma fmt acc d rows → s.atHead o acc = some (g, tm, tl) → o.parts = [] →
      let m := mmaDesc d.toNat
      let cell (row j : Nat) := tileElem tm (arrayOf g) acc row j
      (o.started = false → absentOf s tm.core (rowLines tm fmt m rows) = [] → exec (.mmaStart o.id) s = .next (s.modOp o.id fun x => { x with started := true })) ∧
      (o.started = true → (rows.map (·.1)).Nodup → (∀ r ∈ rows, r.1 < 32) → ∃ t, exec (.mmaFinish o.id) s = .next t ∧ Finished t o .done 0#8 ∧
        (∀ r ∈ rows, ∀ j < 32, getLe t.mem (cell r.1 j) 4 = if cell r.1 j ∈ o.wrote then getLe s.mem (cell r.1 j) 4 else
          accCell (o.view s) tm (arrayOf g) fmt m r.2.1 r.2.2.1 r.2.2.2 j (getLe (o.view s).mem (cell r.1 j) 4) % 2 ^ 32) ∧
        ∀ a, (∀ r ∈ rows, a < cell r.1 0 ∨ cell r.1 0 + 128 ≤ a) → memGet t.mem a = memGet s.mem a)) ∧
    (∀ acc tm tl, o.kind = .acacq acc → s.atHead o acc = some (g, tm, tl) → o.parts = [] → ∃ t, exec (.acacqFinish o.id) s = .next t ∧ t.mem = s.mem ∧
      (match tl.mark with
        | none => Finished t o .done 0#8
        | some c => Finished t o .poison c) ∧
      ∃ tm' y, t.team? o.team = some tm' ∧ tm'.tile? (arrayOf g) acc = some y ∧ y.st = .group g.idx ∧ y.mark = none ∧ o.id ∉ y.ord)

/-- Key-value pages change state: a started `KVSEAL` seals its page and lists it; an aged page converts in two occurrences; a converted page moves into the
upper half of another's frame in two occurrences, and its own is freed; a `KVLD` reads again; a `KVHDR` on a converted page takes a whole frame in two
occurrences (R61, R264, R269 to R273, R275, R276, R278, R280). The model's readings behind it: log entries 64, 66, 141, 169, 199. -/
def Obligations.KeyValuePagesChange : Prop :=
  ∀ (s : State) (g : Group) (o : Op) (e : Tlb) (place : Nat), s.mem.wf = true → s.cc = [] → s.ffring = none → e.pa % 0x8000 = 0 → e.pa + 65536 ≤ hbmEnd →
    let pw := s.pageWord e.pa
    let word (t : State) (a st fmt ver : Nat) : Prop := pwValid (t.pageWord a) = true ∧ pwState (t.pageWord a) = st ∧ pwFmt (t.pageWord a) = fmt ∧ pwVer (t.pageWord a) = ver
    (InFlight s g o → o.kind = .kvseal → o.started = true → o.parts = [] → s.kvPage o true = .ok e place → pwValid pw = true → pwState pw = 0 →
      ∀ w : Word, o.args = [w] → w.toNat < 2 ^ 16 → w.toNat * kvHdim s e.pa ≤ 61440 → s.frameBusy (e.pa / 65536 * 65536) = false →
      (s.seals.filter fun x => stackOf x.frame == stackOf (e.pa / 65536 * 65536)).length < 32768 → s.timeNs < 2 ^ 64 →
      ∃ t, exec (.engineCommandStart o.id) s = .next t ∧ Finished t o .done 0#8 ∧ word t e.pa 1 (pwFmt pw) (pwVer pw) ∧ getLe t.mem (e.pa + 0x10) 8 = s.timeNs ∧
        kvRows t e.pa = w.toNat ∧ t.seals = s.seals ++ [{ frame := e.pa / 65536 * 65536, half := (e.pa - e.pa / 65536 * 65536) / 0x8000 }]) ∧
    (e.pa % 65536 = 0 → { frame := e.pa, half := 0 } ∈ s.seals → s.migrating = [] → pwValid pw = true →
      (pwState pw = 1 → pwFmt pw = 3 → s.aged e.pa = true → ∃ t, exec (.kvConversion e.pa 0) s = .next t ∧ word t e.pa 2 3 ((pwVer pw + 1) % 2 ^ 32) ∧ t.seals = s.seals) ∧
      (pwState pw = 2 → ∃ t, exec (.kvConversion e.pa 0) s = .next t ∧ word t e.pa 1 7 ((pwVer pw + 1) % 2 ^ 32) ∧
        getBytes t.mem (e.pa + 0x40) 0xFFC0 = convertPage s e.pa ∧ { frame := e.pa, half := 0 } ∉ t.seals)) ∧
    (∀ asid vp vq q moving, s.pairable asid vp false = some (e, place) → ∀ qplace, s.pairable asid vq moving = some (q, qplace) → e.pa ≠ q.pa →
      q.pa + 65536 ≤ hbmEnd → s.frameBusy e.pa = false → (qplace + 8 ≤ e.pa ∨ e.pa + 65536 ≤ qplace) → qplace + 8 ≤ hbmEnd →
      (moving = false → s.frameBusy q.pa = false → s.migrating = [] → ∃ t, exec (.kvPairing asid vp vq) s = .next t ∧ bitOf (getLe t.mem qplace 8) 10 = true ∧
        (q.pa, e.pa + 0x8000) ∈ t.migrating ∧ (∀ a, a < qplace ∨ qplace + 8 ≤ a → memGet t.mem a = memGet s.mem a) ∧ t.freed = s.freed) ∧
      (moving = true → s.migrating = [(q.pa, e.pa + 0x8000)] → ∃ t, exec (.kvPairing asid vp vq) s = .next t ∧
        (∀ i < 0x8000, memGet t.mem (e.pa + 0x8000 + i) = memGet s.mem (q.pa + i)) ∧ getLe t.mem (e.pa + 0x18) 8 = 2 ^ 63 + q.va / 2 ^ 16 % 2 ^ 41 ∧
        getLe t.mem qplace 8 / 2 ^ 16 % 2 ^ 30 = e.pa / 65536 ∧ bitOf (getLe t.mem qplace 8) 10 = false ∧ t.freed = s.freed ++ [q.pa])) ∧
    (o.kind = .kvld → s.op? o.id = some o → (o.stage = 3 ∨ o.stage = 1 ∧ pw ≠ o.ordn) → s.kvPage o false = .ok e place → pwValid pw = true → pw % 2 = 0 →
      let a := kvldArgs o
      a.dst % 512 = 0 → a.win = true → a.soff = 0 → a.nrow ≠ 0 → a.row0 + a.nrow ≤ kvRows s e.pa → kvGeomOk s e.pa = true →
      s.kvLost e.pa (pwFmt pw) (kvHdim s e.pa) a = false → ∃ t o', exec (.kvldRetry o.id) s = .next t ∧
        t.op? o.id = some o' ∧ o'.stage = 2 ∧ o'.ordn = pw ∧ o'.buf kvldKey = some (0, kvRowsOut s e.pa (pwFmt pw) (kvHdim s e.pa) a) ∧ t.mem = s.mem) ∧
    (∀ new, o.kind = .kvhdr → s.op? o.id = some o → o.stage = 1 → s.walk o.asid o.va = .leaf e place → e.kv = true → e.span = 65536 → pwValid pw = true →
      pwFmt pw = 7 → new % 65536 = 0 → new + 65536 ≤ hbmEnd → new ≠ e.pa / 65536 * 65536 → (place + 8 ≤ new ∨ new + 65536 ≤ place) →
      (place + 8 ≤ e.pa / 65536 * 65536 ∨ e.pa / 65536 * 65536 + 65536 ≤ place) → place + 8 ≤ hbmEnd →
      let old := e.pa / 65536 * 65536
      (∀ rest, e.mig = false → s.refill = new :: rest → s.frameBusy old = false → s.migrating = [] → ∃ t, exec (.kvhdrRefill o.id) s = .next t ∧
        t.refill = rest ∧ bitOf (getLe t.mem place 8) 10 = true ∧ (old, new) ∈ t.migrating ∧
        ∀ a, a < place ∨ place + 8 ≤ a → memGet t.mem a = memGet s.mem a) ∧
      (e.mig = true → s.migrating = [(old, new)] → ∃ t o', exec (.kvhdrRefill o.id) s = .next t ∧ t.op? o.id = some o' ∧ o'.stage = 2 ∧
        getLe t.mem place 8 / 2 ^ 16 % 2 ^ 30 = new / 65536 ∧ bitOf (getLe t.mem place 8) 10 = false ∧
        ∀ i < 0x8000, (i < 0x18 ∨ 0x20 ≤ i) → memGet t.mem (new + i) = memGet s.mem (e.pa + i)))

/-! ## Steps of synchronisation -/

/-- An update lands at its barrier's home: arrivals count down, an exact arrival advances the phase and reloads the counts, too many poison the object; a
remote barrier is read again; a `DRAIN` ends when its context has been quiet (R340, R350 to R352, R364, R365). The model's readings behind it: log entry 68. -/
def Obligations.BarriersAndDrains : Prop :=
  ∀ (s : State), s.mem.wf = true →
    (∀ u rest, s.updates = u :: rest → u.va = 0 → u.op = 0 → u.cause = none → u.bad = false → u.byt = 0 → u.pa + 32 ≤ hbmEnd → s.watches = [] →
      s.cc = [] → s.lostIn u.pa 32 = false → (s.barrierAt u.pa).valid = true →
      let b := s.barrierAt u.pa
      ∃ t, exec (.barrierUpdate 1) s = .next t ∧ t.updates = rest ∧ (∀ a, a < u.pa ∨ u.pa + 32 ≤ a → memGet t.mem a = memGet s.mem a) ∧
        let b' := t.barrierAt u.pa
        b'.expa = b.expa ∧ b'.brld = b.brld ∧ b'.nasid = b.nasid ∧ b'.valid = true ∧ (b'.pois = true ↔ b.pois = true ∨ b.pena < u.arr) ∧
        (u.arr < b.pena ∨ b.penb ≠ 0 → b'.pena = b.pena - u.arr ∧ b'.penb = b.penb ∧ b'.phase = b.phase) ∧
        (b.pena ≤ u.arr ∧ b.penb = 0 → b'.pena = b.expa ∧ b'.penb = b.brld ∧ b'.phase = (b.phase + 1) % 2 ^ 32)) ∧
    (∀ g dev pa more, s.group? g.uid = some g → s.watched g = (dev, pa) :: more → s.rtx.length < 32768 → dev < 1024 → (s.inject dev 0 none).isSome = true →
      ∃ t, exec (.watchReread g.uid) s = .next t ∧ t.barRead g.uid (remoteKey dev pa) = some (none, 0#8) ∧ ∃ r ∈ t.rtx, r.pkt.ty = 1#8 ∧
        r.pkt.dst = BitVec.ofNat 16 dev ∧ r.pkt.addr = BitVec.ofNat 64 pa ∧ r.pkt.len = 32#16 ∧ r.owner = .barRead g.uid (remoteKey dev pa)) ∧
    (∀ g o pod, InFlight s g o → o.kind = .drain pod →
      let ns := if pod then max 2000 (1000 * s.tpod) else 2000
      (s.quietFor o.asid ns = true → o.issuedAt + ns ≤ s.timeNs → (pod = true → s.unanswered o.asid = false) →
        ∃ t, exec (.quiescenceTimer o.id) s = .next t ∧ Finished t o .done 0#8) ∧
      (s.quietFor o.asid ns = false → exec (.quiescenceTimer o.id) s = .next s))

/-! ## Steps of launches, placement and saves -/

/-- A launch goes on: a record of another version is rejected with cause 0x20; a valid image waits for its preconditions; when they hold the launch is
leased, and when its pages are pinned it is admitted; it retires in two occurrences, with its arrival on DONEB, and then its lease ends, or, in a teardown,
with its context once that is quiescent (R26, R28, R34, R54, R240, R401, R402, R405). The model's readings behind it: log entries 73, 84, 163, 164, 185. -/
def Obligations.LaunchesGoOn : Prop :=
  ∀ (s : State) (y : Launch), s.launch? y.uid = some y → y.ended = none → y.isCtrl = false → s.cc = [] → s.toRetire = [] →
    (∀ g o, InFlight s g o → y.op = o.id → y.phase = .reading → s.pinned y = true →
      (∀ bs, o.stage = 0 → o.acq = false → y.pins = [] → y.va % 256 = 0 → s.engineGet o 0 y.va 256 = .ok bs → fieldLe bs 1 1 ≠ 1 → fieldLe bs 0x28 8 = 0 →
        ∃ t, exec (.launchValidation y.uid) s = .next t ∧ Finished t o .poison 0x20#8 ∧ t.launch? y.uid = none) ∧
      (∀ img, o.stage = 2 → s.distGet o y.asid 2 (fieldLe y.recd 8 8) y.img.size = .ok img → imageCause img (fieldLe y.recd 0x1C 4) = 0 →
        ∃ t y', exec (.launchValidation y.uid) s = .next t ∧ t.launch? y.uid = some y' ∧ y'.phase = .waiting ∧
          y'.img = imageOf (fieldLe y.recd 8 8) img (fieldLe y.recd 0x1C 4) ∧ y'.toPin = y.pres.map fun p => barrierPage p.bar false)) ∧
    (∀ o, s.op? y.op = some o → y.phase = .waiting → s.pinned y = true → y.gx * y.gy * y.gz ≠ 0 →
      (∀ p ∈ y.pres, ∃ e pa, s.xlate y.asid p.bar rightsRd = some e ∧ e.mig = false ∧ s.target e p.bar = .home pa ∧ (s.barrierAt pa).valid = true ∧
        (s.barrierAt pa).pois = false ∧ phaseReached (s.barrierAt pa).phase p.phase.toNat = true) →
      ∃ t, exec (.launchPreconditionsHeld y.uid) s = .next t ∧ t.mem = s.mem ∧
        t.launch? y.uid = some { y with phase := .leasing, toPin := y.ranges ++ if y.doneb = 0 then [] else [barrierPage y.doneb true] }) ∧
    (y.phase = .leasing → (∀ g o, InFlight s g o → y.op = o.id → s.pinned y = true → ∃ t, exec (.leasePin y.uid) s = .next t ∧
        Finished t o .done 0#8 ∧ t.launch? y.uid = some { y with phase := .ready }) ∧
      (∀ r rest e place, y.toPin = r :: rest → r.hi ≤ 2 ^ 57 → s.walk y.asid r.lo = .leaf e place → e.gives r.rights = true → e.mig = false → e.dev = s.devid →
        e.a = true → e.kv = false → exec (.leasePin y.uid) s = .next (s.modLaunch y.uid fun z => { z with
          toPin := if min r.hi (e.va + e.span) < r.hi then { r with lo := min r.hi (e.va + e.span) } :: rest else rest
          pins := z.pins ++ [{ dev := e.dev, wr := r.wr, frame := (e.pa + (r.lo - e.va)) / 65536 * 65536
                               span := min r.hi (e.va + e.span) - r.lo / 65536 * 65536 }] }))) ∧
    (∀ tm, s.team? tm.uid = some tm → tm.launch = y.uid → tm.phase = .resident → (∀ g ∈ s.groups, g.team = tm.uid → g.finished = true) →
      s.ops.any (s.usesTeam tm.uid) = false → ∃ t, exec (.teamRetire tm.uid) s = .next t ∧ t.mem = s.mem ∧
        (∃ x, t.team? tm.uid = some x ∧ x.phase = .retired ∧ x.stop = none) ∧ (∀ g ∈ t.groups, g.team = tm.uid → g.resident = false ∧ g.finished = true)) ∧
    (∀ e, y.phase = .ready → s.teamsDone y = true → s.workDone y.uid = true → y.doneb ≠ 0 → y.doneb % 32 = 0 → s.xlate y.asid y.doneb rightsRdWr = some e →
      e.mig = false → e.dev = s.devid → ∃ t u, exec (.launchRetire y.uid) s = .next t ∧ t.launch? y.uid = some { y with phase := .retired } ∧
        t.updates = s.updates ++ [u] ∧ u.pa = e.addr y.doneb ∧ u.va = 0 ∧ u.arr = 1 ∧ u.cause = none ∧ u.asid = y.asid) ∧
    (y.phase = .retired → s.arrivalOut y.asid = false → s.tearing y.asid = false → ∃ t, exec (.launchRetire y.uid) s = .next t ∧ t.launch? y.uid = none ∧
      (∀ g ∈ t.groups, g.launch ≠ y.uid) ∧ ∀ x ∈ t.teams, x.launch ≠ y.uid) ∧
    (∀ c, s.ctx? c.asid = some c → c.tearing = true → (∀ l ∈ s.launches, l.asid = c.asid → l.phase = .retired) → s.arrivalOut c.asid = false →
      (∀ ns ≤ max 2000 (1000 * s.tpod), s.quietFor c.asid ns = true) →
      ∃ t, exec (.teardownRelease c.asid) s = .next t ∧ t.ctx? c.asid = none ∧ (∀ l ∈ t.launches, l.asid ≠ c.asid) ∧ (∀ e ∈ t.tlb, e.asid ≠ c.asid) ∧ (∀ o ∈ t.ops, o.asid ≠ c.asid))

/-- Distributors and saves: a decision places the team of the one eligible launch on the first core with room; a reservation is answered, and a granted one
places its team; a starved launch pre-empts; a control team is placed as its context is created; a team ordered to stop is forced, saved, or ended by the
watchdog, and an access of a saved group is applied to its record (R13, R31, R33, R65, R66, R69 to R73, R382, R384, R385, R390, R394). The model's readings
behind it: log entries 77, 78, 82, 151, 154, 155, 168. -/
def Obligations.TeamsArePlacedAndSaved : Prop :=
  ∀ (s : State) (d : Nat), d < 2 → s.dists.length = 2 → s.mbox.wf = true →
    let newTeam (t : State) (l : Launch) (core index : Nat) : Prop := ∃ tm ∈ t.teams, tm.uid = s.nextId ∧ tm.launch = l.uid ∧ tm.asid = l.asid ∧ tm.core = core ∧
      tm.index = index ∧ tm.phase = .resident
    let groupsOn (t : State) (y : Launch) (k : Claim) (index : Nat) : Prop :=
      ∀ g ∈ startGroups y k.img s.nextId index k.core (s.nextId + 1) (s.die (dieOf k.core)).cycles k.fit.seats, g ∈ t.groups
    (∀ c y k n, (s.dist d).wanted = n + 1 → (s.dist d).asked = none → (s.dist d).todo = none → (s.dist d).preempt = none → s.contexts = [c] → c.asid < 512 →
      s.launches = [y] → y.asid = c.asid → y.die = d → y.prio = 7 → y.starvedAt = none → s.eligible y = true → s.savedTeam? y.uid = none →
      s.imageHere y = true → y.total = y.next + 1 → (s.nextImage y).groupCount ≤ min (c.deficitAt d 7 + 64 * c.weight) 65535 → s.findCore d y = some k → dieOf k.core = d →
      ∃ t y', exec (.placementDecision d) s = .next t ∧ newTeam t y k.core y.next ∧ groupsOn t y k y.next ∧ t.launch? y.uid = some y' ∧
        y'.next = y.next + 1 ∧ (t.dist d).wanted = n ∧ (t.dist d).todo = none) ∧
    (∀ l core, (s.dist (1 - d)).asked = some (l, core, none) → dieOf core = d → s.awaitsMove l = false →
      let c := (s.restStarved.launch? l).bind fun y => s.restStarved.claimOn y core []
      exec (.reservation d) s = .next (s.restStarved.modDist (1 - d) fun x => { x with asked := some (l, core, some c.isSome), granted := c })) ∧
    (∀ y k prio placed, (s.dist d).asked = some (y.uid, k.core, some true) → (s.dist d).granted = some k → (s.dist d).todo = some (prio, [], [], placed) →
      s.launch? y.uid = some y → k.launch = y.uid → k.team = 0 → s.savedTeam? y.uid = none → s.claimWaits k = false →
      s.claimStands k = true →
      ∃ t y', exec (.reservationAnswer d) s = .next t ∧ newTeam t y k.core y.next ∧ groupsOn t y k y.next ∧
        t.launch? y.uid = some y' ∧ y'.next = y.next + 1 ∧ (t.dist d).granted = none ∧ (t.dist d).asked = none ∧ (t.dist d).todo = none) ∧
    (∀ y at_ core v vs, s.launch? y.uid = some y → y.starvedAt = some at_ → s.stillStarved y = true → y.prio ≠ 0 → y.die = d →
      s.pthr.getD y.prio 0xFFFFF ≠ 0xFFFFF → at_ + 1000 * s.pthr.getD y.prio 0xFFFFF < s.timeNs → (s.dist d).preempt = none →
      s.hasClaim y.uid = false →
      s.victims y = some (core, v :: vs) → ∃ t, exec (.preemption y.uid) s = .next t ∧ (t.dist d).preempt = some (y.uid, core, v :: vs) ∧
        (t.dist d).kept = s.claimOn y core (v :: vs) ∧ (∀ u ∈ v :: vs, ∃ x, t.team? u = some x ∧ x.stop.isSome = true) ∧ t.mem = s.mem) ∧
    (∀ y at_, s.launch? y.uid = some y → y.starvedAt = some at_ → at_ + (y.unplaceable + 1) * 100000000 ≤ s.timeNs → s.stillStarved y = true →
      s.victims y = none → s.hasClaim y.uid = false → ∃ t, exec (.unplaceableLog y.uid) s = .next t ∧ t.launch? y.uid = some { y with unplaceable := y.unplaceable + 1 } ∧
        t.box 0x2010 4 = (s.box 0x2010 4 + 1) % 2 ^ 32 ∧ t.box (0x50000 + 32 * (s.box 0x2010 4 % 4096) + 8) 2 = 3 ∧
        t.box (0x50000 + 32 * (s.box 0x2010 4 % 4096) + 16) 8 = y.ltag.toNat) ∧
    (∀ c q y k used fring, s.ctx? c.asid = some c → c.creating = some q →
      (s.launches.find? fun l => l.asid == c.asid && l.isCtrl && l.phase == .ready && l.next == 0 && l.ended.isNone) = some y →
      s.launch? y.uid = some y → s.savedTeam? y.uid = none → s.imageHere y = true → s.controlCore c y = some (k, used) →
      ∃ t, exec (.create c.asid fring) s = .next t ∧ newTeam t y k.core 0 ∧ groupsOn t y k 0 ∧ t.ctx? c.asid = some { c with creating := none }) ∧
    (∀ tm o y, s.team? tm.uid = some tm → tm.stop = some o → tm.phase = .resident → s.launch? tm.launch = some y → y.ended = none →
      (o.cycle + 65536 ≤ (s.die (dieOf tm.core)).cycles → ∃ t, exec (.forcedFullSave tm.uid) s = .next t ∧ t.mem = s.mem ∧
        (∀ g ∈ t.groups, g.team = tm.uid → g.full = true ∨ groupReady (s.teamImage tm) g = true)) ∧
      ((s.groupsOf tm.uid).all (groupReady (s.teamImage tm)) = true → holdsPending (s.groupsOf tm.uid) = none → (∀ g ∈ s.groupsOf tm.uid, g.sq = [] ∧ g.spend = []) →
        s.ops.any (s.holdsSave tm.uid) = false → tm.save ≠ 0 → ∃ t x, exec (.teamSave tm.uid) s = .next t ∧ t.team? tm.uid = some x ∧ x.phase = .saved o.kind ∧
          x.stop = none ∧ x.save = tm.save ∧ x.index = tm.index) ∧
      (s.wdsave ≠ 0xFFFFF → o.ns + 1000 * s.wdsave ≤ s.timeNs → y.isCtrl = false → y.phase = .ready → ∃ t y', exec (.saveWatchdog tm.uid) s = .next t ∧
        t.launch? y.uid = some y' ∧ y'.ended = some 0x20)) ∧
    (∀ g o p pa tm sc, s.op? o.id = some o → s.group? o.grp = some g → g.resident = false → g.finished = false → s.team? g.team = some tm → tm.save ≠ 0 →
      o.bound = true → o.kd < 16 → g.k.length = 16 → o.exprts = [] → o.parts = [p] → o.kind = .store false sc → p.phys = .home pa → p.sent = true → p.fin = none →
      p.tgt = [] → s.cc = [] → s.mem.wf = true → ∃ t, exec (.savedCompletion o.id p.lane) s = .next t ∧ Finished t o .done 0#8 ∧
        getLe t.mem (tm.save + 0x100 + g.idx * 0x5800 + 0x1380 + 16 * o.kd) 4 = 2)

/-! ## Steps of the fabric -/

/-- Links and requests: a link comes into service by hellos; a lost port takes its routes out of use, and a restored one brings them back; requests are held
until the start delay is over, sent again after RTO, and fail after their fourth send; a pin that is not answered fails its launch (R54, R283, R293 to R295,
R302, R305). The model's readings behind it: log entries 89, 90, 96, 97. -/
def Obligations.LinksAndTimers : Prop :=
  ∀ (s : State) (port : Nat), port < 32 →
    let p := s.port? port
    (∀ width pkt, (∃ q ∈ s.ports, q.idx = port) → (width = 1 ∨ width = 2 ∨ width = 4) → p.up = false → p.out = false → pkt.ty = 12#8 → pkt.aux = 1#16 → packetOk pkt = true →
      fieldLe pkt.data 5 1 = 1 → ∃ t, exec (.karicHello port width pkt) s = .next t ∧ (port, helloOf s port) ∈ t.outPkts ∧ t.linkUpAt.isSome = true ∧
        (t.port? port).up = true ∧ (t.port? port).width = width ∧ (t.port? port).nbr = fieldLe pkt.data 0 2 % 1024 ∧
        (t.port? port).epoch = BitVec.ofNat 32 (fieldLe pkt.data 8 4)) ∧
    (p.up = true → ∀ i, (i = .portDegraded port ∨ i = .linkFail port) → ∃ t, exec i s = .next t ∧ (t.port? port).up = false ∧ (t.port? port).out = true ∧
      (∀ r ∈ t.routes, minPort r.2.toNat ≠ some port) ∧ t.mem = s.mem) ∧
    (p.out = true → ∃ t, exec (.portRestored port) s = .next t ∧ t.port? port = { p with up := true, out := false, width := 4, cleared := [] } ∧
      ∀ r ∈ s.routes, r.1 ∈ p.cleared → bitsOf r.2.toNat 58 5 = port → (r.1, r.2 ||| 0x8000000000000000#64) ∈ t.routes) ∧
    (∀ t0 r nm via, s.linkUpAt = some t0 → s.fabricOpen = false → t0 + 10000 * s.tpod ≤ s.timeNs → s.rtx = [r] → r.sends = 0 →
      s.inject r.pkt.dst.toNat (vcOf r.pkt.ty.toNat) none = some (nm, via) → ∃ t r', exec .fabricStartDelay s = .next t ∧ t.fabricOpen = true ∧
        t.rtx = [r'] ∧ r'.pkt.txid = r.pkt.txid ∧ r'.sends = 1 ∧ r'.sentAt = s.timeNs) ∧
    (∀ r, (s.rtx.find? fun x => x.pkt.txid.toNat == r.pkt.txid.toNat) = some r → r.sentAt + s.rto ≤ s.timeNs →
      (∀ nm via, 1 ≤ r.sends → r.sends < 4 → toGroup r.pkt = false → s.mcOpen r = false →
        s.inject r.pkt.dst.toNat (vcOf r.pkt.ty.toNat) (some (if bitOf r.pkt.rf.toNat 2 then r.pkt.via.toNat else 1024)) = some (nm, via) →
        ∃ t, exec (.retransmitTimeout r.pkt.txid.toNat) s = .next t ∧ ∃ r' ∈ t.rtx, r'.pkt.txid = r.pkt.txid ∧ r'.sends = r.sends + 1 ∧ r'.sentAt = s.timeNs) ∧
      (∀ g o q sc, 4 ≤ r.sends → InFlight s g o → o.kind = .store false sc → o.parts = [q] → q.fin = none → r.owner = .part o.id q.lane →
        ∃ t, exec (.retransmitTimeout r.pkt.txid.toNat) s = .next t ∧ Finished t o .poison 0x67#8)) ∧
    (∀ g o y gid, (s.launches.find? fun y => y.pins.any fun p => p.gid == gid && !p.answered && decide (p.askedAt + 1000 * s.tpod < s.timeNs)) = some y →
      InFlight s g o → y.op = o.id → y.phase = .leasing → y.isCtrl = false → y.doneb = 0 →
      ∃ t, exec (.pinTimeout gid) s = .next t ∧ Finished t o .poison 0x2E#8 ∧ t.launch? y.uid = none)

/-- The pod commands go on and finish: a slot is reduced and landed, a chunk of rows combined, a gather request served from its rows, an `RTE`'s choices
counted and placed, and each finishes when all has landed (R310, R316 to R318, R326 to R328, R332, R334 to R336). The model's readings behind it: log
entries 32, 101, 106, 109, 159 to 161, 180. -/
def Obligations.PodCommandsGoOn : Prop :=
  ∀ (s : State) (g : Group) (o : Op), InFlight s g o → o.parts = [] → o.started = true → o.fail = 0#8 → s.rtx = [] → s.hostReads = [] →
    let bs := o.recd
    let own := o.ownIdx s.devid
    (∀ slot ord s1 o1, o.kind = .coll → collOp bs ≠ 0 → collOrd bs ≠ 1 → o.stage = 2 → slot < collN bs → slotHome bs slot = own →
      collG bs ≤ (o.got.filter fun x => x.2.1 == slot && decide (x.1 < 1024)).length → (slotMark, slot, []) ∉ o.got → collG bs ≤ 1024 → o.peers = [] →
      s.slotOrder o slot = .ok ord →
      let r := reduceSlot s.devid o own slot (entries16 ord)
      s.landDest o (if collScat bs then slot % (collN bs / collG bs) else slot) (o.members.getD r.2.2 0) r.2.1 true r.1 = .ok s1 → s1.op? o.id = some o1 →
      ∃ t o', exec (.reductionStep o.id slot) s = .next t ∧ t.mem = s1.mem ∧ t.op? o.id = some o' ∧ (slotMark, slot, []) ∈ o'.got ∧ o'.landed = o1.landed) ∧
    (∀ i s1, o.kind = .rtc → o.stage = 3 → i / o.rowChunks < o.items → i ∉ o.landed →
      (∀ x ∈ o.routesOf (i / o.rowChunks), o.requested x.1 = true ∧ o.rowChunks ≤ (o.gathered x.1).length) →
      let r := combineChunk s.devid (shapeOf bs).fmt ((o.routesOf (i / o.rowChunks)).map fun x =>
        (fieldLe (o.kept 2) (4 * x.1) 4, x.2.2.1, (o.gathered x.1).getD (i % o.rowChunks) (0, [])))
      s.landDest o i r.2.2 r.2.1 true r.1 = .ok s1 → ∃ t, exec (.combineStep o.id i) s = .next t ∧ t.mem = s1.mem) ∧
    (∀ p segs es, o.kind = .rtc → s.held = [p] → s.serverOf p = some o → fieldLe p.data 8 2 < dispNexp bs → expDev o.experts (fieldLe p.data 8 2) = s.devid →
      o.rowChunks ≤ 32768 → pathTo s p.src.toNat 2 →
      piecesOf s o.asid rightsRd false (pageRuns (expBuf o.experts (fieldLe p.data 8 2) + fieldLe p.data 12 4 * (shapeOf bs).e0) (shapeOf bs).e0) = .ok segs →
      homeExtents segs = some es → (∀ x ∈ es, s.granted p.src.toNat p.sasid.toNat x.1 x.2 rightsRd = true) → s.lostPieces segs = false →
      ∃ t, exec (.gatherServe o.id 0) s = .next t ∧ t.held = [] ∧ t.mem = s.mem ∧
        ∀ c < o.rowChunks, ∃ r ∈ t.rtx, r.pkt.ty = 9#8 ∧ r.pkt.dst = p.src ∧ r.pkt.data = sliceBytes (s.readNear segs) (512 * c) 512) ∧
    (o.kind = .rte →
      (∀ xs, o.stage = 2 → o.peers = [] → s.engineGet o (podKey 0 4) (fieldLe bs 0x98 8) (2 * o.items * dispK bs) = .ok xs →
        (∀ x ∈ entries16 xs, x < dispNexp bs ∨ x = 0xFFFF) → ∃ t o', exec (.dispatchPlacement o.id) s = .next t ∧ t.op? o.id = some o' ∧ o'.stage = 3 ∧
          o'.choices = entries16 xs) ∧
      (∀ cs, o.stage = 3 → s.rows = [] → o.allCounts s.devid = some cs → s.checkRows o o.experts (o.placement s.devid cs) = .ok [] →
        ∃ t o', exec (.dispatchPlacement o.id) s = .next t ∧ t.op? o.id = some o' ∧ o'.stage = 4 ∧ t.mem = s.mem ∧
          o'.kept 2 = (o.placement s.devid cs).flatMap fun p => natLe 8 (p.entry o.experts)) ∧
      (o.stage = 8 → s.rowsLanded o = true → (shapeOf bs).badl = 0 → fieldLe bs 0xB8 8 = 0 → ∃ t, exec (.dispatchFinish o.id) s = .next t ∧
        Finished t o (if o.bad = [] then .done else .doneBad) 0#8)) ∧
    (o.kind = .rtc → o.stage = 3 → o.items * o.rowChunks ≤ o.landed.length → (shapeOf bs).badl = 0 → fieldLe bs 0xB8 8 = 0 →
      ∃ t, exec (.dispatchFinish o.id) s = .next t ∧ Finished t o (if o.bad = [] then .done else .doneBad) 0#8 ∧ ∃ x ∈ t.served, x.id = o.id) ∧
    (o.kind = .coll → o.stage = 2 → o.nchunk ≤ o.landed.length → (∀ i < collN bs, collTargets bs own i = [] ∨ (readMark, i, []) ∈ o.got) →
      (collOp bs = 0 ∨ ∀ i < collN bs, slotHome bs i ≠ own ∨ (slotMark, i, []) ∈ o.got) → (shapeOf bs).badl = 0 → fieldLe bs 0x98 8 = 0 →
      ∃ t, exec (.collectiveFinish o.id) s = .next t ∧ Finished t o (if o.bad = [] then .done else .doneBad) 0#8)

/-- Packets that arrive: one for another device goes on with HOPS one more; a load, store, atomic, chunk or release flag that a grant lets in is performed
at its home and answered; a chunk whose check does not hold lands as zeros; counts are recorded; and an answer finishes the access it belongs to, or fails
it (R287, R292, R297, R299, R300, R303, R304, R309, R327). The model's readings behind it: log entries 27, 28, 63, 102, 175, 176. -/
def Obligations.PacketsArrive : Prop :=
  ∀ (s : State) (port : Nat) (p : Packet), s.arrived = some (port, p) → packetOk p = true → toGroup p = false → s.mem.wf = true →
    (∀ q, targetOf s p ≠ s.devid → p.ty ≠ 9#8 → minPort (s.routeEntry (targetOf s p)) = some q → portUp s q → bitsOf (pastVia s p).rf.toNat 0 2 ≠ 3 →
      ∃ t, exec .karicForward s = .next t ∧ t.arrived = none ∧ (q, hopped (pastVia s p)) ∈ t.outPkts ∧ t.mem = s.mem) ∧
    (targetOf s p = s.devid → pathTo s p.src.toNat 1 → paOf p + 512 < hbmEnd →
      let n := p.data.length
      (p.ty = 1#8 → s.entry p (paOf p) p.len.toNat rightsRd true = .ok →
        (bitOf p.cf.toNat 0 = false → accessAligned (paOf p) p.len.toNat = true → ∃ t, exec .karicRdreq s = .next t ∧ t.mem = s.mem ∧
          answeredWith t p 4 0 (getBytes s.mem (paOf p) p.len.toNat)) ∧
        (bitOf p.cf.toNat 0 = true → s.upset = none → pathTo s p.src.toNat 2 → ∃ t, exec .karicRdreq s = .next t ∧ t.mem = s.mem ∧
          answeredWith t p 9 0 (getBytes s.mem (paOf p) p.len.toNat))) ∧
      (p.ty = 2#8 → accessAligned (paOf p) p.len.toNat = true → s.entry p (paOf p) p.len.toNat rightsWr true = .ok → ∃ t, exec .karicWr s = .next t ∧ t.mem = putBytes s.mem (paOf p) p.data ∧
        answeredWith t p 5 0 []) ∧
      (p.ty = 3#8 → p.aux.toNat < 8 → s.heldAtoms = [] → n = 4 → paOf p % 4 = 0 → s.entry p (paOf p) 4 rightsRdWr true = .ok → ∃ t, exec .karicAtom s = .next t ∧
        getLe t.mem (paOf p) 4 = (atomValue (p.aux.setWidth 3) (BitVec.ofNat 32 (getLe s.mem (paOf p) 4)) (BitVec.ofNat 32 (leNat p.data))).toNat ∧
        (∀ a, a < paOf p ∨ paOf p + 4 ≤ a → memGet t.mem a = memGet s.mem a) ∧ answeredWith t p 6 0 (getBytes s.mem (paOf p) 4)) ∧
      (p.ty = 9#8 → s.ops = [] → s.sourceReq p = none → s.lateSource p = false → s.upset = none → bitOf p.cf.toNat 1 = false → n ≤ 512 →
        s.entry p (paOf p) n rightsWr true = .ok →
        (checkFails p = false → ∃ t, exec .karicChunk s = .next t ∧ t.mem = putBytes s.mem (paOf p) p.data ∧ answeredWith t p 7 0 []) ∧
        (checkFails p = true → ∃ t, exec .karicChunk s = .next t ∧ t.mem = putBytes s.mem (paOf p) (List.replicate n 0#8) ∧ answeredWith t p 7 1 [])) ∧
      (∀ f, p.ty = 11#8 → fieldLe p.data 4 4 = s.epoch.toNat → fieldLe p.data 8 1 = 1 → (s.flagsIn.find? fun x => x.dev == p.src.toNat) = some f →
        f.epoch.toNat = fieldLe p.data 0 4 → f.marks = [] → f.floor < 2 ^ 32 → p.sqf.toNat = (f.floor + 1) % 2 ^ 32 →
        accessAligned (paOf p) (fieldLe p.data 9 1) = true → s.entry p (paOf p) (fieldLe p.data 9 1) rightsWr true = .ok →
        ∃ t, exec .karicFlag s = .next t ∧ t.mem = putBytes s.mem (paOf p) (p.data.drop 32) ∧ answeredWith t p 5 0 [] ∧
          { f with floor := (f.floor + 1) % 2 ^ 32 } ∈ t.flagsIn) ∧
      (∀ o, p.ty = 10#8 → s.ops = [o] → s.kept? p = none → o.kind = .rte → o.started = true → 1 ≤ o.stage → o.asid = p.sasid.toNat → o.cid = p.addr.toNat % 2 ^ 32 →
        o.ordn = p.sqf.toNat → p.src.toNat ∈ o.peers →
        let i := bitsOf p.addr.toNat 32 20
        n = 4 * min 128 (dispNexp o.recd - 128 * i) → 0 < n → (∀ x ∈ o.got, ¬(x.1 = p.src.toNat ∧ x.2.1 = i)) → ∃ t o', exec .karicDisp s = .next t ∧
          t.op? o.id = some o' ∧ answeredWith t p 7 0 [] ∧
          o'.got = o.got ++ [(p.src.toNat, i, (List.range (min 128 (dispNexp o.recd - 128 * i))).map fun q => fieldLe p.data (4 * q) 4)])) ∧
    (∀ r, targetOf s p = s.devid → (s.rtx.find? fun x => x.pkt.txid == p.txid && (toGroup x.pkt || x.pkt.dst == p.src)) = some r → r.pkt.dst = p.src →
      toGroup r.pkt = false →
      (p.ty = 7#8 → (∃ id key, r.owner = .chunk id key ∧ s.op? id = none) → ∃ t, exec .karicChack s = .next t ∧ t.mem = s.mem ∧
        ∀ x ∈ t.rtx, x.pkt.txid ≠ p.txid) ∧
      (∀ g o q, InFlight s g o → o.parts = [q] → q.fin = none → r.owner = .part o.id q.lane →
        (∀ sc, o.kind = .store false sc → q.tgt = [] →
          (p.ty = 5#8 → ∃ t, exec .karicWrack s = .next t ∧ Finished t o .done 0#8) ∧
          (p.ty = 8#8 → (s.rtx.find? fun x => x.pkt.txid == p.txid && x.pkt.dst == p.src) = some r → p.aux.toNat < 0x60 → 0 < p.aux.toNat →
            ∃ t, exec .karicNack s = .next t ∧ Finished t o .poison (BitVec.ofNat 8 p.aux.toNat))) ∧
        (∀ m, q.lane < 32 → g.threads.length = 32 → q.tgt = [m] → m < 128 → (g.thread q.lane).v.length = 128 → p.data.length = 4 →
          let landed (t : State) : Prop := Finished t o .done 0#8 ∧ ∃ g', t.group? g.uid = some g' ∧ (g'.thread q.lane).vget m = BitVec.ofNat 32 (leNat p.data)
          (∀ sc, p.ty = 4#8 → o.kind = .load false sc → ∃ t, exec .karicRdrsp s = .next t ∧ landed t) ∧
          (∀ op sc, p.ty = 6#8 → o.kind = .atom op false false 0#2 sc → ∃ t, exec .karicAtrsp s = .next t ∧ landed t))))

/-- Management packets: a pin is granted and answered, an answered pin stands, an unpin ends its grant; descriptors and gather requests are kept for their
commands; a cancel poisons its command; a barrier's watch is kept, or told at once of a phase that has come; and a report of a phase is recorded (R54, R55,
R288, R297, R318, R331, R335, R352). The model's readings behind it: log entries 98, 100, 160. -/
def Obligations.ManagementPacketsArrive : Prop :=
  ∀ (s : State) (port : Nat) (p : Packet), s.arrived = some (port, p) → packetOk p = true → forMe s 12 p = true →
    let d := p.data
    (p.aux = 2#16 → s.migrating = [] → fieldLe d 8 8 % 65536 = 0 → fieldLe d 16 8 % 65536 = 0 → 0 < fieldLe d 16 8 → fieldLe d 8 8 + fieldLe d 16 8 ≤ hbmEnd →
      pathTo s p.src.toNat 5 → ∃ t x, exec .mgmtPin s = .next t ∧ t.grants = s.grants ++ [x] ∧ x.gid = fieldLe d 0 4 ∧ x.dev = p.src.toNat ∧ x.sasid = fieldLe d 4 2 ∧
        x.frame = fieldLe d 8 8 ∧ x.span = fieldLe d 16 8 ∧ x.rd = bitOf (fieldLe d 6 1) 0 ∧ x.wr = bitOf (fieldLe d 6 1) 1 ∧ x.ex = bitOf (fieldLe d 6 1) 2 ∧
        sentOut t 12 p.src.toNat 3 (natLe 4 (fieldLe d 0 4) ++ natLe 4 0)) ∧
    (∀ y, p.aux = 3#16 → fieldLe d 4 1 = 0 → s.launch? y.uid = some y →
      (s.launches.find? fun y => y.pins.any fun x => x.gid == fieldLe d 0 4 && x.dev == p.src.toNat && !x.answered) = some y →
      ∃ t y', exec .mgmtPinans s = .next t ∧ t.launch? y.uid = some y' ∧ y'.pins.map (·.frame) = y.pins.map (·.frame) ∧
        ∀ x ∈ y'.pins, x.gid = fieldLe d 0 4 → x.answered = true) ∧
    (p.aux = 4#16 → s.toRetire = [] → ∃ t, exec .mgmtUnpin s = .next t ∧
      t.grants = s.grants.filter fun g => !(g.dev == p.src.toNat && g.gid == fieldLe d 0 4)) ∧
    (p.aux = 5#16 → p ∉ s.descs → s.wasIssued p.sasid.toNat 0 (fieldLe d 0 4) (fieldLe d 4 4) = false → ∃ t, exec .mgmtCdesc s = .next t ∧ t.descs = s.descs ++ [p]) ∧
    (p.aux = 6#16 → p ∉ s.descs → s.wasIssued p.sasid.toNat (if fieldLe d 14 1 = 0 then 1 else 2) (fieldLe d 0 4) (fieldLe d 4 4) = false →
      ∃ t, exec .mgmtDdesc s = .next t ∧ t.descs = s.descs ++ [p]) ∧
    (∀ g o, p.aux = 7#16 → InFlight s g o → o.parts = [] → s.podOp p.sasid.toNat (fieldLe d 8 1) (fieldLe d 0 4) (fieldLe d 4 4) = some o →
      ∃ t, exec .mgmtCancel s = .next t ∧ Finished t o .poison (BitVec.ofNat 8 (fieldLe d 9 1))) ∧
    (p.aux = 8#16 → p ∉ s.held → ∃ t, exec .mgmtGather s = .next t ∧ t.held = s.held ++ [p]) ∧
    (p.aux = 9#16 →
      let pa := fieldLe d 0 8
      let b := s.barrierAt pa
      (b.valid = true → phaseReached b.phase (fieldLe d 8 4) = true → pathTo s p.src.toNat 5 → ∃ t, exec .mgmtWatch s = .next t ∧ t.watches = s.watches ∧
        sentOut t 12 p.src.toNat 10 (natLe 8 pa ++ natLe 4 b.phase ++ natLe 4 0)) ∧
      (phaseReached b.phase (fieldLe d 8 4) = false → (p.src.toNat, pa, BitVec.ofNat 32 (fieldLe d 8 4), pa) ∉ s.watches →
        ∃ t, exec .mgmtWatch s = .next t ∧ t.watches = s.watches ++ [(p.src.toNat, pa, BitVec.ofNat 32 (fieldLe d 8 4), pa)])) ∧
    (p.aux = 10#16 → (∀ a ∈ s.advanced, ¬(a.1 = p.src.toNat ∧ a.2.1 = fieldLe d 0 8)) →
      ∃ t, exec .mgmtAdvanced s = .next t ∧ (p.src.toNat, fieldLe d 0 8, BitVec.ofNat 32 (fieldLe d 8 4)) ∈ t.advanced)

/-! ## Steps of the host, of errors and of power -/

/-- What the host does to the device. A doorbell write is queued with its slot and update, or dropped and logged with its reason. A queued doorbell updates
the barrier that its slot's entry names, which may advance and send its message, or is dropped with reason 5. A BAR2 write is performed in HBM, and a line
of it in L2 is the host's; a BAR2 read gives the bytes, or ones outside HBM. A vector is unmasked with one message when it is pending. A load through the
host aperture ends with the completion's data, or fails with 0x34 by its status or after 10 ms. A byte written to BAR0 reaches the recovery window, a
vector's mask, or the mailbox where system software writes it, and no other place (R36, R37, R38, R39, R41, R43, R395, R407, R408, R419). The model's
readings behind it: log entries 111 to 113, 115, 117. -/
def Obligations.HostReachesTheDevice : Prop :=
  ∀ (s : State), s.mem.wf = true → s.mbox.wf = true →
    let logged (t : State) (code : Nat) : Prop := t.box 0x2010 4 = (s.box 0x2010 4 + 1) % 2 ^ 32 ∧ t.box (0x50000 + 32 * (s.box 0x2010 4 % 4096) + 8) 2 = code
    let logData (t : State) (i : Nat) : Nat := t.box (0x50000 + 32 * (s.box 0x2010 4 % 4096) + 16 + i) 1
    let dropped (t : State) (slot reason : Nat) : Prop := logged t 1 ∧ logData t 0 = slot ∧ logData t 1 = reason ∧ t.mem = s.mem ∧ t.recWin = s.recWin
    (∀ page off data, page < 512 →
      let w := leNat data
      let drops (reason : Nat) : Prop := ∃ t, exec (.doorbell page off data) s = .next t ∧ dropped t (w % 256) reason ∧ t.doorbells = s.doorbells
      (data.length ≠ 8 ∨ off ≠ 0 → drops 3) ∧ (data.length = 8 → off = 0 → (s.ctx? page = none → drops 4) ∧ ∀ c, s.ctx? page = some c →
        (bitsOf w 9 7 ≠ 0 → drops 2) ∧ (bitsOf w 9 7 = 0 → (c.hacnt ≤ bitsOf w 0 8 → drops 1) ∧ (bitsOf w 0 8 < c.hacnt →
          let byt : Int := if bitOf w 8 then bitsOf w 32 32 else -bitsOf w 32 32
          exec (.doorbell page off data) s = .next { s with doorbells := s.doorbells ++ [⟨page, bitsOf w 0 8, bitsOf w 16 16, byt⟩] })))) ∧
    (∀ n d c, s.doorbells[n]? = some d → s.ctx? d.asid = some c → d.slot < 256 →
      let w := getLe s.mem (c.hat + 16 * d.slot) 8
      let pa := bitsOf w 5 51 * 32 % 2 ^ 46
      let b := s.barrierAt pa
      let penb := (((b.penb : Int) + d.byt) % (2 ^ 64 : Nat)).toNat
      (bitOf w 0 = false ∨ bitsOf w 1 4 ≠ 0 ∨ bitsOf w 56 8 ≠ 0 ∨ getLe s.mem (c.hat + 16 * d.slot + 8) 8 ≠ 0 → ∃ t, exec (.doorbellApply n) s = .next t ∧
        dropped t d.slot 5 ∧ t.doorbells = s.doorbells.eraseIdx n) ∧
      (bitOf w 0 = true → bitsOf w 1 4 = 0 → bitsOf w 56 8 = 0 → getLe s.mem (c.hat + 16 * d.slot + 8) 8 = 0 → bitsOf w 5 51 * 32 / 2 ^ 46 = s.devid → pa < hbmEnd →
        s.lostIn pa 32 = false → b.valid = true → d.arr ≤ b.pena →
        (¬(d.arr = b.pena ∧ penb = 0) → ∃ t, exec (.doorbellApply n) s = .next t ∧ t.doorbells = s.doorbells.eraseIdx n ∧
          t.mem = putBytes s.mem pa { b with pena := b.pena - d.arr, penb := penb }.bytes) ∧
        (d.arr = b.pena → penb = 0 → ∃ t, exec (.doorbellApply n) s = .next t ∧ t.mem = putBytes s.mem pa b.advance.bytes ∧
          ∀ vec, bitOf b.flags 20 = true → (s.ctx? b.nasid).map (·.vec) = some vec → HostOut.msix vec ∈ t.hostOut ∨ vec ∈ t.msixPend))) ∧
    (s.boot = .running → let window := s.box 0x1008 8 / 2 ^ s.bar2Bits * 2 ^ s.bar2Bits;
      (∀ off data, data ≠ [] → data.length ≤ 512 → off + data.length ≤ 2 ^ s.bar2Bits → window + off + data.length ≤ hbmEnd →
        s.lostIn (window + off) data.length = false → s.freed = [] → ∃ t, exec (.bar2Write off data) s = .next t ∧ t.mem = putBytes s.mem (window + off) data ∧
          (∃ x ∈ t.l2, x.pa = (window + off + data.length - 1) / 256 * 256 ∧ x.tag = 0x200) ∧
          ∀ x ∈ t.l2, x.pa % 256 = 0 → window + off < x.pa + 256 → x.pa < window + off + data.length → x.tag = 0x200) ∧
      (∀ off len, 0 < len → len ≤ 4096 → off + len ≤ 2 ^ s.bar2Bits → s.lostIn (window + off) len = false → exec (.bar2Read off len) s =
        .next { s with hostOut := s.hostOut ++
          [.bar2 off (if window + off + len ≤ hbmEnd then getBytes s.mem (window + off) len else List.replicate len 0xFF#8)] })) ∧
    (∀ vec, vec < 2048 → vec ∉ s.msixOpen → ∃ t, exec (.msixUnmask vec) s = .next t ∧ vec ∈ t.msixOpen ∧ vec ∉ t.msixPend ∧
      t.hostOut = s.hostOut ++ (if vec ∈ s.msixPend then [.msix vec] else [])) ∧
    (∀ r g o q m sc, (s.hostReads.find? fun x => x.rid == r.rid) = some r → InFlight s g o → o.id ≠ 0 → r.op = o.id → r.lane = q.lane → o.parts = [q] → q.fin = none →
      o.kind = .load false sc → q.tgt = [m] → m < 128 → q.lane < 32 → g.threads.length = 32 → (g.thread q.lane).v.length = 128 → r.len = 4 →
      (∀ data, data.length = 4 → ∃ t, exec (.hostReadCompletion r.rid 0 data) s = .next t ∧ Finished t o .done 0#8 ∧
        ∃ g', t.group? g.uid = some g' ∧ (g'.thread q.lane).vget m = BitVec.ofNat 32 (leNat data)) ∧
      (∀ i st data, 0 < st → st ≤ 3 → (i = .hostReadCompletion r.rid st data ∨ i = .hostReadTimeout r.rid ∧ r.at0 + 10000000 ≤ s.timeNs) →
        ∃ t, exec i s = .next t ∧ Finished t o .poison 0x34#8 ∧ logged t 10 ∧ logData t 0 = r.win % 256 ∧
          ∃ g', t.group? g.uid = some g' ∧ (g'.thread q.lane).vget m = (g.thread q.lane).vget m)) ∧
    (s.replies = [] → (∀ a b, s.box 0x2000 4 = s.box 0x2004 4 → (0x1000 ≤ a ∧ a < 0x1004 ∨ 0x1008 ≤ a ∧ a < 0x1010 ∨ 0x200C ≤ a ∧ a < 0x2010 ∨
        0x10000 ≤ a ∧ a < 0x30000 ∨ 0x800000 ≤ a ∧ a < 0x808000 ∧ a % 16 < 12) →
        exec (.registerWrite a [b]) s = .next { s with mbox := memPut s.mbox a b })) ∧
    (s.replies = [] → 1 ≤ fieldLe s.headRequest 0 2 → fieldLe s.headRequest 0 2 ≤ 0x12 →
      (∀ a b, 0x02000000 ≤ a → a < 0x04000000 → exec (.registerWrite a [b]) s = .next { s with recWin := memPut s.recWin (a - 0x02000000) b }) ∧
      (∀ x, exec (.registerWrite 0x2000 (natLe 4 x)) s = .next { s with mbox := putBytes s.mbox 0x2000 (natLe 4 x) }) ∧
      (∀ a b, (a < 0x1000 ∨ 0x1004 ≤ a ∧ a < 0x1008 ∨ 0x1010 ≤ a ∧ a < 0x2000 ∨ 0x2004 ≤ a ∧ a < 0x200C ∨ 0x2010 ≤ a ∧ a < 0x10000 ∨
        0x30000 ≤ a ∧ a < 0x800000 ∨ 0x800000 ≤ a ∧ a < 0x808000 ∧ 12 < a % 16 ∨ 0x808000 ≤ a ∧ a < 0x02000000 ∨ 0x04000000 ≤ a) →
        exec (.registerWrite a [b]) s = .next s) ∧
      (∀ vec b, vec < 2048 → b.getLsbD 0 = true → exec (.registerWrite (0x800000 + 16 * vec + 12) [b]) s =
        .next { s with msixOpen := s.msixOpen.filter fun v => v != vec }))

/-- Errors, power and reset: a dirty line's error ends its owner's context, or is reported; a lost line reads zero and its frame is retired; other errors
are counted; the clock steps by 100 MHz between 1.0 and 3.3 GHz; the thermal limits hold; and a reset keeps flash, fuses and the epoch, which it raises
(R305, R395 to R398, R418, R419, R424). The model's readings behind it: log entries 10, 12, 120 to 125. -/
def Obligations.ErrorsPowerAndReset : Prop :=
  ∀ (s : State) (line die : Nat),
    let counted (t : State) (core event : Nat) : Prop := ∀ c ∈ s.counters, c.core = core → c.on = true → c.event = event → c.mode = 1 → c.own = none →
      ∃ c' ∈ t.counters, c'.core = c.core ∧ c'.idx = c.idx ∧ c'.event = event ∧ c'.val = (c.val + 1) % 2 ^ 48
    let lostNow (t : State) : Prop := line ∈ t.lost ∧ (∀ x ∈ t.l2, x.pa ≠ line) ∧ (line / 65536 * 65536 ∈ t.toRetire ∨ line / 65536 * 65536 ∈ t.retired) ∧
      (∀ a, line ≤ a → a < line + 256 → memGet t.mem a = 0#8)
    let d := s.die die
    let slot (i : Nat) : Nat := 0x30000 + 128 * (s.box 0x2008 4 % 1024) + i
    let posted (t : State) (kind : Nat) : Prop := getLe t.mbox (slot 0) 2 = 0x82 ∧ getLe t.mbox (slot 16) 8 = (s.devid * 2 ^ 46 + line) % 2 ^ 64 ∧
      getLe t.mbox (slot 24) 2 = kind
    let room : Prop := s.replies = [] ∧ (s.box 0x2008 4 + 2 ^ 32 - s.box 0x200C 4) % 2 ^ 32 < 1024 ∧ s.mbox.wf = true ∧ s.toRetire.length + s.retired.length < 65535
    (∀ x, (s.l2.find? fun x => x.pa == line) = some x →
      (∀ c y, s.ctx? x.tag = some c → x.tag < 512 → room → s.launches = [y] → y.asid = x.tag → y.phase = .ready → y.ended = none →
        ∃ t y', exec (.l2UncorrectableError line) s = .next t ∧ line ∈ t.lost ∧ t.launch? y.uid = some y' ∧ y'.ended = some 0x30 ∧
          getLe t.mbox (slot 0) 2 = 0x81 ∧ getLe t.mbox (slot 8) 2 = x.tag ∧ getLe t.mbox (slot 16) 2 = 0x30) ∧
      (s.ctx? x.tag = none → room → ∃ t, exec (.l2UncorrectableError line) s = .next t ∧ line ∈ t.lost ∧ (∀ y ∈ t.l2, y.pa ≠ line) ∧ posted t 1 ∧
        t.contexts = s.contexts)) ∧
    (line % 256 = 0 → line < hbmEnd → (∀ x ∈ s.l2, x.pa ≠ line) →
      (∃ t, exec (.cleanLineError line) s = .next t ∧ counted t 0xFFFF 0x108 ∧ t.mem = s.mem ∧ t.l2 = s.l2 ∧ t.lost = s.lost) ∧
      (line ∉ s.lost → room → s.mem.wf = true → ∃ t, exec (.hbmUncorrectableError line) s = .next t ∧ lostNow t ∧ posted t 2 ∧ t.contexts = s.contexts ∧
        ∀ a, (a < line ∨ line + 256 ≤ a) → memGet t.mem a = memGet s.mem a)) ∧
    (∀ u, ∃ t, exec (.correctedSoftError u) s = .next t ∧ (u < 192 → counted t u 0x50) ∧ (192 ≤ u → counted t 0xFFFF 0x108) ∧
      (193 ≤ u → counted t 0xFFFF 0x102) ∧ t.mem = s.mem ∧ t.groups = s.groups) ∧
    (die < 2 →
      ((s.limitW < s.pwr ∨ 95 ≤ d.temp) → d.steppedAt + 10000 ≤ s.timeNs → ∃ t, exec (.clockStepDown die) s = .next t ∧
        t.die die = { d with clk := max 10 (d.clk - 1), limited := true, steppedAt := s.timeNs } ∧ t.die (1 - die) = s.die (1 - die) ∧ t.mem = s.mem) ∧
      (s.pwr ≤ s.limitW → d.temp ≤ 92 → d.hold = false → d.steppedAt + 100000 ≤ s.timeNs → d.clk < 33 → ∃ t, exec (.clockStepUp die) s = .next t ∧
        t.die die = { d with clk := d.clk + 1, limited := false, steppedAt := s.timeNs } ∧ t.die (1 - die) = s.die (1 - die) ∧ t.mem = s.mem) ∧
      (105 ≤ d.temp → d.hold = false → ∃ t, exec (.thermalLimit die) s = .next t ∧ (t.die die).clk = 10 ∧ (t.die die).hold = true ∧
        t.die (1 - die) = s.die (1 - die) ∧ t.mem = s.mem) ∧
      (d.temp < 105 → d.hold = true → ∃ t, exec (.thermalLimitClear die) s = .next t ∧ t.die die = { d with hold := false } ∧ t.mem = s.mem) ∧
      (115 ≤ d.temp → ∃ t, exec .thermalShutdown s = .next t ∧ t.contexts = [] ∧ t.groups = [] ∧ t.mem = State.reset.mem ∧ t.flash = s.flash ∧ t.floor = s.floor ∧
        t.epoch = s.epoch)) ∧
    (∃ t, exec .deviceReset s = .next t ∧ t.epoch = s.epoch + 1#32 ∧ t.flash = s.flash ∧ t.floor = s.floor ∧ t.contexts = [] ∧ t.groups = [] ∧ t.ops = [] ∧ t.mem = State.reset.mem ∧
      (∀ img, Config.bootImage s.flash = some img → s.floor ≤ img.svn → img.key.length = 32 → sha256 img.key = Config.keyDigest → img.sig.length = 7856 →
        Config.slhVerify img.key img.signed img.sig = true → t.boot = .running ∧ t.svn = img.svn ∧ t.measure = sha256 img.bytes) ∧
      (∀ img, Config.bootImage s.flash = some img → (img.svn < s.floor ∨ img.key.length ≠ 32 ∨ sha256 img.key ≠ Config.keyDigest ∨ img.sig.length ≠ 7856 ∨
        Config.slhVerify img.key img.signed img.sig = false) → t.boot = .recovery)) ∧
    (s.boot = .recovery → ∃ t, exec .recoveryGo s = .next t ∧ t.flash = s.flash ∧ t.epoch = s.epoch ∧ t.mem = s.mem ∧
      (∀ img, Config.bootImage (getBytes s.recWin 0 (2 ^ 25)) = some img → s.floor ≤ img.svn → img.key.length = 32 → sha256 img.key = Config.keyDigest →
        img.sig.length = 7856 → Config.slhVerify img.key img.signed img.sig = true → t.boot = .running ∧ t.svn = img.svn) ∧
      (Config.bootImage (getBytes s.recWin 0 (2 ^ 25)) = none → t.boot = .recovery))

/-! ## The mailbox -/

/-- Each mailbox request, taken alone from the head of the ring, has its effect and its reply; a request that cannot be met has its status and no effect
(R42, R52, R58, R291, R296, R392, R397, R405, R409, R410, R412, R415, R420, R423, R424). The model's readings behind it: log entries 125, 126, 128 to 137,
140. -/
def Obligations.MailboxRequests : Prop :=
  ∀ (s : State), s.mbox.wf = true → s.requestHeld = true → s.box 0x2000 4 = (s.box 0x2004 4 + 1) % 2 ^ 32 → s.versionOk = true →
    let q := s.headRequest
    let code := fieldLe q 0 2
    let asid := fieldLe q 8 2
    let arg (off n : Nat) : Nat := fieldLe q (16 + off) n
    let live (c : Context) : Prop := s.ctx? asid = some c ∧ asid < 512
    let slot (i : Nat) : Nat := 0x30000 + 128 * (s.box 0x2008 4 % 1024) + i
    let answered (t : State) (st : Nat) (payload : Bytes) : Prop := t.box 0x2004 4 = (s.box 0x2004 4 + 1) % 2 ^ 32 ∧ t.box 0x2008 4 = (s.box 0x2008 4 + 1) % 2 ^ 32 ∧
      getLe t.mbox (slot 0) 2 = code ∧ getLe t.mbox (slot 2) 2 = st ∧ getLe t.mbox (slot 4) 4 = fieldLe q 4 4 ∧ getLe t.mbox (slot 8) 2 = asid ∧
      getBytes t.mbox (slot 16) payload.length = payload
    let own (a n : Nat) : Prop := a / 2 ^ 46 = s.devid ∧ a % 2 ^ 46 + n ≤ hbmEnd
    let near (a : Nat) : Nat := a % 2 ^ 46
    fieldLe q 2 2 = 0 → fieldLe q 10 6 = 0 → (asid = 0xFFFF ∨ ∃ c, live c) →
    (∀ c, code = 2 → live c → restZero q [] = true → ∃ t c', exec .teardown s = .next t ∧ t.ctx? asid = some c' ∧ c'.tearing = true ∧ c'.answer = c.answer ++ [q] ∧
      ∀ y, s.launches = [y] → y.asid = asid → y.phase = .ready → y.ended = none → (t.launch? y.uid).bind (·.ended) = some 0x40) ∧
    (∀ c, code = 3 → live c → restZero q [] = true → c.creating = none → ∃ t c', exec .deschedule s = .next t ∧ t.ctx? asid = some c' ∧ c'.descheduled = true ∧
      (∀ x ∈ s.teams, x.asid = asid → x.phase = .resident → ∃ x', t.team? x.uid = some x' ∧ x'.stop.isSome = true) ∧
      ((∀ x ∈ s.teams, x.asid = asid → x.phase ≠ .resident) → c.stopAns = [] → answered t 0 []) ∧
      ((∃ x ∈ s.teams, x.asid = asid ∧ x.phase = .resident) → c'.stopAns = c.stopAns ++ [q])) ∧
    (∀ c, code = 4 → live c → restZero q [] = true → c.creating = none → c.stopAns = [] →
      ((∀ l ∈ s.launches, l.asid = asid → l.isCtrl = true → s.savedTeam? l.uid = none) → ∃ t c', exec .reschedule s = .next t ∧ t.ctx? asid = some c' ∧
        c'.descheduled = false ∧ (t.dists.map (·.wanted) = s.dists.map fun d => d.wanted + 1) ∧ answered t 0 []) ∧
      (∀ x l k used, (s.launches.find? fun l => l.asid == asid && l.isCtrl && (s.savedTeam? l.uid).isSome) = some l → s.launch? l.uid = some l →
        s.savedTeam? l.uid = some x → s.team? x.uid = some x → x.uid ≠ 0 → s.consume.controlCore c l = some (k, used) →
        ∃ t x', exec .reschedule s = .next t ∧ t.team? x.uid = some x' ∧ x'.phase = .resident ∧ x'.core = k.core ∧ x'.index = x.index)) ∧
    (∀ c, code = 5 → live c → restZero q [(0, 32)] = true → own (arg 0 8) 8 → arg 0 8 % 8 = 0 → arg 24 8 < 2 ^ 57 →
      let pa := near (arg 0 8)
      let found := getLe s.mem pa 8
      (bitOf found 0 = false ∨ bitOf found 1 = false ∨ bitOf found 10 = false) →
      (found ≠ arg 8 8 → ∃ t, exec .pte s = .next t ∧ answered t 6 (natLe 8 found) ∧ t.mem = s.mem ∧ t.tlb = s.tlb) ∧
      (found = arg 8 8 → s.leasedChange asid (arg 24 8) (entrySpan s (arg 24 8) pa 4 (c.root % 2 ^ 46)) (arg 8 8) (arg 16 8) = true →
        ∃ t, exec .pte s = .next t ∧ answered t 1 (natLe 8 found) ∧ t.mem = s.mem ∧ t.tlb = s.tlb) ∧
      (found = arg 8 8 → s.leasedChange asid (arg 24 8) (entrySpan s (arg 24 8) pa 4 (c.root % 2 ^ 46)) (arg 8 8) (arg 16 8) = false →
        ∃ t, exec .pte s = .next t ∧ answered t 0 (natLe 8 found) ∧ t.mem = putBytes s.mem pa (natLe 8 (arg 16 8)) ∧
          ∀ e ∈ t.tlb, e.asid = asid → arg 24 8 < e.va ∨ e.va + e.span ≤ arg 24 8)) ∧
    (∀ c y, code = 6 → live c → restZero q [(0, 5)] = true → (s.launches.find? fun y => y.asid == asid && (y.resid.map (·.1)) == some (arg 0 4)) = some y →
      s.launch? y.uid = some y →
      (arg 4 1 = 0 → ∃ t, exec .residency s = .next t ∧ t.launch? y.uid = some { y with resid := none } ∧ answered t 0 []) ∧
      (∀ g o, arg 4 1 = 1 → InFlight s g o → y.op = o.id → y.phase = .leasing → y.isCtrl = false → y.doneb = 0 →
        ∃ t, exec .residency s = .next t ∧ Finished t o .poison 0x2E#8 ∧ t.launch? y.uid = none)) ∧
    (code = 7 → restZero q [(0, 2), (4, 4)] = true →
      (arg 0 1 = 0 → 1 ≤ arg 1 1 → arg 1 1 ≤ 7 → arg 4 4 < 2 ^ 20 → ∃ t, exec .thresholds s = .next t ∧ t.pthr = s.pthr.set (arg 1 1) (arg 4 4) ∧
        answered t 0 (natLe 4 (s.pthr.getD (arg 1 1) 0))) ∧
      (∀ c, arg 0 1 = 1 → live c → arg 1 1 ≤ 15 → ∃ t, exec .thresholds s = .next t ∧
        t.ctx? asid = some { c with ages := c.ages.set (arg 1 1) (BitVec.ofNat 32 (arg 4 4)) } ∧ answered t 0 (natLe 4 (c.ages.getD (arg 1 1) 0#32).toNat)) ∧
      (arg 0 1 = 2 → arg 4 4 < 2 ^ 20 → ∃ t, exec .thresholds s = .next t ∧ t.wdsave = arg 4 4 ∧ answered t 0 (natLe 4 s.wdsave)) ∧
      (arg 0 1 = 3 → ∃ t, exec .thresholds s = .next t ∧ t.adth = arg 4 4 ∧ answered t 0 (natLe 4 s.adth)) ∧
      (arg 0 1 = 4 → arg 4 4 < 2 ^ 20 → ∃ t, exec .thresholds s = .next t ∧ t.tpod = arg 4 4 ∧ answered t 0 (natLe 4 s.tpod))) ∧
    (code = 8 → restZero q [(0, 12)] = true → own (arg 0 8) (64 + 8 * arg 8 4) → near (arg 0 8) % 4096 = 0 → (∃ i ≤ 8, arg 8 4 = 2 ^ (8 + i)) →
      (s.ffring = none → s.freed = [] → ∃ t, exec .ffring s = .next t ∧ t.ffring = some (near (arg 0 8), arg 8 4) ∧ answered t 0 [] ∧ t.mem = s.mem) ∧
      (s.ffring ≠ none → ∃ t, exec .ffring s = .next t ∧ t.ffring = s.ffring ∧ answered t 1 [] ∧ t.mem = s.mem)) ∧
    (let n := arg 0 4
     let fs := (List.range n).map fun i => arg (8 + 8 * i) 8
     code = 9 → 1 ≤ n → n ≤ 12 → restZero q [(0, 4), (8, 8 * n)] = true → (∀ f ∈ fs, f % 65536 = 0 ∧ f + 65536 ≤ hbmEnd) → s.refill.length ≤ 4096 →
      ∃ t, exec .refill s = .next t ∧ t.refill = s.refill ++ fs.take (4096 - s.refill.length) ∧ answered t 0 (natLe 4 (min n (4096 - s.refill.length)))) ∧
    (∀ c, code = 0xA → live c → restZero q [(0, 16)] = true → own (arg 0 8) (arg 8 8) → near (arg 0 8) % 65536 = 0 → arg 8 8 % 65536 = 0 → 0 < arg 8 8 →
      ∃ t, exec .savepool s = .next t ∧ t.ctx? asid = some { c with pool := c.pool ++ [(near (arg 0 8), arg 8 8)] } ∧ answered t 0 []) ∧
    (code = 0xB → restZero q [(0, 4)] = true → ∃ t, exec .retired s = .next t ∧ t.retired = s.retired ∧ answered t 0 (natLe 4 s.retired.length ++
      natLe 4 ((s.retired.drop (arg 0 4)).take 12).length ++ ((s.retired.drop (arg 0 4)).take 12).flatMap (natLe 8))) ∧
    (code = 0xC → restZero q [(0, 8)] = true → own (arg 0 8) 256 → near (arg 0 8) % 256 = 0 → near (arg 0 8) ∈ s.lost → ∃ t, exec .clearlost s = .next t ∧
      near (arg 0 8) ∉ t.lost ∧ (∀ l ∈ s.lost, l ≠ near (arg 0 8) → l ∈ t.lost) ∧ answered t 0 [] ∧
      ∀ a, memGet t.mem a = if near (arg 0 8) ≤ a ∧ a < near (arg 0 8) + 256 then 0#8 else memGet s.mem a) ∧
    (code = 0xD → restZero q [(0, 2), (8, 8)] = true → arg 0 1 < 64 → arg 1 1 ≤ 1 → arg 8 8 % 2 ^ 32 = 0 → ∃ t, exec .aperture s = .next t ∧ answered t 0 [] ∧
      (∀ b, (arg 0 1, b) ∈ t.aperture ↔ arg 1 1 = 1 ∧ b = arg 8 8) ∧ ∀ x, x.1 ≠ arg 0 1 → (x ∈ t.aperture ↔ x ∈ s.aperture)) ∧
    (let n := arg 8 4
     let entry (i : Nat) : Nat := arg (16 + 8 * i) 8
     code = 0xE → 1 ≤ n → n ≤ 12 → restZero q [(0, 1), (4, 8), (16, 8 * n)] = true →
      (arg 0 1 = 0 → (∀ i < n, arg 4 4 + i < 1024 ∧ bitsOf (entry i) 40 15 = 0 ∧ bitsOf (entry i) 55 3 ≤ 4 ∧ (993 ≤ arg 4 4 + i → entry i = 0)) →
        ∃ t, exec .fabric s = .next t ∧ answered t 0 [] ∧ (∀ i < n, t.routeEntry (arg 4 4 + i) = entry i) ∧ t.mcast = s.mcast) ∧
      (arg 0 1 = 1 → (∀ i < n, arg 4 4 + i < 65536 ∧ bitsOf (entry i) 33 30 = 0) →
        ∃ t, exec .fabric s = .next t ∧ answered t 0 [] ∧ (∀ i < n, t.mcastEntry (arg 4 4 + i) = entry i) ∧ t.routes = s.routes)) ∧
    (let core := arg 2 2
     let n := arg 1 1
     code = 0xF → restZero q [(0, 5), (6, 4)] = true → (core < 192 ∧ n < 8 ∨ core = 0xFFFF ∧ n < 16) →
      (arg 0 1 = 0 → arg 4 1 ≤ 2 → (arg 4 1 = 2 → arg 6 2 < 512) → (arg 4 1 ≠ 2 → arg 6 2 = 0) → arg 8 2 < 4096 →
        (core < 192 → arg 8 2 = 0 → ∃ t, exec .counters s = .next t ∧ answered t 0 [] ∧
          t.counter core n = { s.counter core n with mode := arg 4 1, casid := arg 6 2, val := 0, base := 0 }) ∧
        (core = 0xFFFF → ∃ t, exec .counters s = .next t ∧ answered t 0 [] ∧
          t.counter core n = { s.counter core n with mode := arg 4 1, casid := arg 6 2, val := 0, base := 0, event := arg 8 2, on := arg 4 1 != 0 })) ∧
      (arg 0 1 = 1 → ∃ t, exec .counters s = .next t ∧ answered t 0 (natLe 8 (s.counter core n).val) ∧ t.counters = s.counters)) ∧
    (code = 0x10 → restZero q [(0, 2)] = true → 1000 ≤ arg 0 2 → arg 0 2 ≤ 3000 → ∃ t, exec .power s = .next t ∧ t.limitW = arg 0 2 ∧ answered t 0 (natLe 2 (arg 0 2))) ∧
    (let digest := if s.cfgOk then sha256 s.cfgRec else List.replicate 32 0#8
     let bs := lengthed (Config.attestReport s.measure (sliceBytes q 16 32) digest s.devid s.svn s.cfgCount s.viaRecovery) ++ lengthed (Config.aliasCert s.measure) ++
       lengthed Config.identityCert
     code = 0x11 → restZero q [(0, 44)] = true → own (arg 0x20 8) (arg 0x28 4) → bs.length ≤ arg 0x28 4 → ∃ t, exec .attest s = .next t ∧
       t.mem = putBytes s.mem (near (arg 0x20 8)) bs ∧ answered t 0 (natLe 4 bs.length)) ∧
    (let bs := getBytes s.mem (near (arg 0 8)) (arg 8 4)
     code = 0x12 → restZero q [(0, 13), (16, 4)] = true → own (arg 0 8) (arg 8 4) → arg 8 4 ≤ 2 ^ 25 → arg 12 1 ≤ 1 →
      (∀ img, Config.bootImage bs = some img → s.floor ≤ img.svn → img.key.length = 32 → sha256 img.key = Config.keyDigest → img.sig.length = 7856 →
        Config.slhVerify img.key img.signed img.sig = true → arg 16 4 ≤ s.svn → ∃ t, exec .fwupdate s = .next t ∧ t.flash = bs ∧ answered t 0 [] ∧
          t.floor = if arg 12 1 = 1 then max s.floor (arg 16 4) else s.floor) ∧
      ((Config.bootImage bs = none ∨ s.svn < arg 16 4) → ∃ t, exec .fwupdate s = .next t ∧ t.flash = s.flash ∧ t.floor = s.floor ∧ answered t 1 []))

/-! ## Words, steps and reset -/

/-- Decoding inverts encoding for every word and every operand, and no two words stand for one instruction (R78 to R97). -/
def Obligations.DecodeInvertsEncode : Prop :=
  (∀ (i : Instr) (w : Nat), encode i = some w → w < 2 ^ 32 ∧ decodeWord w = .ok i ∧ decodeTableWord 32 w = some i ∧
    ∀ rest, decodeBytes (natLe 4 w ++ rest) = .ok (i, rest)) ∧
  (∀ (w : Nat) (i : Instr), w < 2 ^ 32 → decodeWord w = .ok i → encode i = some w)

/-- Words written out field by field from R79 to R97 decode to the instructions that they stand for, and one with a reserved bit, a settled hint and an
unassigned opcode are rejected by name (R83, R88, R98). -/
def Obligations.WordsDecode : Prop :=
  decodeWord (0#1 ++ 0x02#8 ++ 0x8001#16 ++ 2#2 ++ 1#1 ++ 0#4).toNat = .ok (.hdep 0x8001#16 2#2 1#1) ∧
  decodeWord (0#1 ++ 0x05#8 ++ 0#23).toNat = .ok (.nop false) ∧
  decodeWord (0#1 ++ 0x10#8 ++ 0x7FFFFE#23).toNat = .ok (.bra false 0x7FFFFE#23) ∧
  decodeWord (1#1 ++ 0x30#8 ++ 5#7 ++ 3#7 ++ 127#7 ++ 2#2).toNat = .ok (.iadd true 5#7 3#7 127#7 2#2) ∧
  decodeWord (0#1 ++ 0x52#8 ++ 191#8 ++ 4#8 ++ 127#7).toNat = .ok (.ssub false 191#8 4#8 127#7) ∧
  decodeWord (0#1 ++ 0x63#8 ++ 1#7 ++ 2#7 ++ 3#7 ++ 3#2).toNat = .ok (.ffma false 1#7 2#7 3#7 3#2) ∧
  decodeWord (0#1 ++ 0x90#8 ++ 10#7 ++ 12#7 ++ 15#4 ++ 4#3 ++ 1#2).toNat = .ok (.ld false 10#7 12#7 15#4 4#3 1#2) ∧
  decodeWord (0#1 ++ 0xC2#8 ++ 9#4 ++ 31#5 ++ 100#7 ++ 6#7).toNat = .ok (.mmaE4m3 false 9#4 31#5 100#7 6#7) ∧
  decodeWord (0#1 ++ 0x05#8 ++ 1#23).toNat = .error .reservedBit ∧ decodeWord (1#1 ++ 0x01#8 ++ 0#23).toNat = .error .settledHint ∧
  decodeWord (0#1 ++ 0x00#8 ++ 0#23).toNat = .error .unassigned ∧ decodeWord (0#1 ++ 0xD0#8 ++ 0#23).toNat = .error .unassigned

/-- A step that gives an issue slot runs the instruction that the four bytes at the PC of the chosen group's issue set decode to, or the illegal-instruction
trap for bytes that decode to none; what stands around it is the start and the end of the issue, and the quiescence tree's observation. A step of the device
on the agenda is its own instruction (R78, R98, R99, R112). The model's readings behind it: log entries 8, 26, 47, 162. -/
def Obligations.StepRunsTheDecodedInstruction : Prop :=
  (∀ (s : State) (core part : Nat) (rest : List Happening) (g : Group) (pa : Nat), s.agenda = .slot core part :: rest →
    let v := State.wakePart { s with agenda := rest } core part
    let a := v.askPart core part
    let b := (a.noteSlot core part).beginIssue g (issueSet g)
    let x := b.issueOf ((b.group? g.uid).getD g) (issueSet g)
    let w := getLe s.mem pa 4
    v.slotGone core part = false → arbitrate a core part = some g → x.pc.toNat < (b.groupCode x.g).codeLen →
    accessCheck b x (x.lanes.headD 0) .fetch (codeVa (b.groupCode x.g) x.pc) 4 false = .ok (.home pa) → b.lostIn pa 4 = false →
      (∀ i, decodeWord w = .ok i → step s = observedNext (afterIssue x (opcodeOf w) (exec i b))) ∧
      (∀ e, decodeWord w = .error e → step s = observedNext (afterIssue x (opcodeOf w) (exec (.illegalInstruction (rejectDetail x w e)) b)))) ∧
  (∀ (s : State) (i : Instr) (rest : List Happening), s.agenda = .row i :: rest → encode i = none → (∀ d, i ≠ .illegalInstruction d) →
    step s = observedNext (exec i { s with agenda := rest }))

/-- Every step keeps the canonical form of the device's memories: addresses strictly rising, and no listed byte zero. The model's readings behind it: log
entries 1, 143. -/
def Obligations.MemoriesStayCanonical : Prop := ∀ (s t : State), s.memWf → step s = .next t → t.memWf

/-- Reset: no context, team, operation or pin exists, the ring indices are zero, the routing and multicast tables are empty, ADTH, TPOD, PTHR and WDSAVE
have their reset values, the pattern tables read 0x8000, the counters read zero, and the memories have the canonical form (R20, R70, R72, R291, R296, R394,
R408, R415). The model's readings behind it: log entries 1, 23. -/
def Obligations.ResetState : Prop :=
  let s := State.reset
  s.memWf ∧ s.contexts = [] ∧ s.launches = [] ∧ s.teams = [] ∧ s.groups = [] ∧ s.ops = [] ∧ s.grants = [] ∧
  (∀ off ∈ [0, 4, 8, 12, 16], s.box (0x2000 + off) 4 = 0) ∧ (∀ d, s.routeEntry d = 0) ∧ (∀ g, s.mcastEntry g = 0) ∧
  s.adth = 64 ∧ s.tpod = 10 ∧ s.wdsave = 10000 ∧ (List.range 7).map (fun i => s.pthr.getD (7 - i) 0) = [20, 50, 100, 200, 500, 1000, 2000] ∧
  (∀ core n lane, s.patEntry core n lane = 0x8000) ∧ (∀ core n, (s.counter core n).val = 0) ∧
  (∀ d < 2, (s.dist d).rotation = 0 ∧ ∀ p < 8, (s.dist d).rounds.getD p 1 = 0) ∧ s.retired = [] ∧ s.refill = [] ∧ s.ffring = none

end
end

