-- ==== Sys2Proof/Laws/State.lean ====
section
/-!
SUPPORT. What each update of the state does to each field (written by a generator from the fields of `State`).
-/
namespace Sys2Proof.Machine
open Sys2Proof

/-! ## `State.setGroup` -/

@[simp] theorem State.setGroup_sel (s : State) (g : Group) : (s.setGroup g).sel = s.sel := rfl
@[simp] theorem State.setGroup_agenda (s : State) (g : Group) : (s.setGroup g).agenda = s.agenda := rfl
@[simp] theorem State.setGroup_turn (s : State) (g : Group) : (s.setGroup g).turn = s.turn := rfl
@[simp] theorem State.setGroup_issued (s : State) (g : Group) : (s.setGroup g).issued = s.issued := rfl
@[simp] theorem State.setGroup_groups (s : State) (g : Group) : (s.setGroup g).groups = mapIf (fun x => x.uid == g.uid) (fun _ => g) s.groups := rfl
@[simp] theorem State.setGroup_teams (s : State) (g : Group) : (s.setGroup g).teams = s.teams := rfl
@[simp] theorem State.setGroup_launches (s : State) (g : Group) : (s.setGroup g).launches = s.launches := rfl
@[simp] theorem State.setGroup_contexts (s : State) (g : Group) : (s.setGroup g).contexts = s.contexts := rfl
@[simp] theorem State.setGroup_ops (s : State) (g : Group) : (s.setGroup g).ops = s.ops := rfl
@[simp] theorem State.setGroup_gathers (s : State) (g : Group) : (s.setGroup g).gathers = s.gathers := rfl
@[simp] theorem State.setGroup_nextId (s : State) (g : Group) : (s.setGroup g).nextId = s.nextId := rfl
@[simp] theorem State.setGroup_free (s : State) (g : Group) : (s.setGroup g).free = s.free := rfl
@[simp] theorem State.setGroup_mem (s : State) (g : Group) : (s.setGroup g).mem = s.mem := rfl
@[simp] theorem State.setGroup_l1 (s : State) (g : Group) : (s.setGroup g).l1 = s.l1 := rfl
@[simp] theorem State.setGroup_cc (s : State) (g : Group) : (s.setGroup g).cc = s.cc := rfl
@[simp] theorem State.setGroup_l2 (s : State) (g : Group) : (s.setGroup g).l2 = s.l2 := rfl
@[simp] theorem State.setGroup_lost (s : State) (g : Group) : (s.setGroup g).lost = s.lost := rfl
@[simp] theorem State.setGroup_ways (s : State) (g : Group) : (s.setGroup g).ways = s.ways := rfl
@[simp] theorem State.setGroup_retired (s : State) (g : Group) : (s.setGroup g).retired = s.retired := rfl
@[simp] theorem State.setGroup_toRetire (s : State) (g : Group) : (s.setGroup g).toRetire = s.toRetire := rfl
@[simp] theorem State.setGroup_tlb (s : State) (g : Group) : (s.setGroup g).tlb = s.tlb := rfl
@[simp] theorem State.setGroup_walkReqs (s : State) (g : Group) : (s.setGroup g).walkReqs = s.walkReqs := rfl
@[simp] theorem State.setGroup_lightReqs (s : State) (g : Group) : (s.setGroup g).lightReqs = s.lightReqs := rfl
@[simp] theorem State.setGroup_absent (s : State) (g : Group) : (s.setGroup g).absent = s.absent := rfl
@[simp] theorem State.setGroup_pats (s : State) (g : Group) : (s.setGroup g).pats = s.pats := rfl
@[simp] theorem State.setGroup_updates (s : State) (g : Group) : (s.setGroup g).updates = s.updates := rfl
@[simp] theorem State.setGroup_migrating (s : State) (g : Group) : (s.setGroup g).migrating = s.migrating := rfl
@[simp] theorem State.setGroup_waiting (s : State) (g : Group) : (s.setGroup g).waiting = s.waiting := rfl
@[simp] theorem State.setGroup_dists (s : State) (g : Group) : (s.setGroup g).dists = s.dists := rfl
@[simp] theorem State.setGroup_pthr (s : State) (g : Group) : (s.setGroup g).pthr = s.pthr := rfl
@[simp] theorem State.setGroup_wdsave (s : State) (g : Group) : (s.setGroup g).wdsave = s.wdsave := rfl
@[simp] theorem State.setGroup_seals (s : State) (g : Group) : (s.setGroup g).seals = s.seals := rfl
@[simp] theorem State.setGroup_refill (s : State) (g : Group) : (s.setGroup g).refill = s.refill := rfl
@[simp] theorem State.setGroup_freed (s : State) (g : Group) : (s.setGroup g).freed = s.freed := rfl
@[simp] theorem State.setGroup_ffring (s : State) (g : Group) : (s.setGroup g).ffring = s.ffring := rfl
@[simp] theorem State.setGroup_devid (s : State) (g : Group) : (s.setGroup g).devid = s.devid := rfl
@[simp] theorem State.setGroup_epoch (s : State) (g : Group) : (s.setGroup g).epoch = s.epoch := rfl
@[simp] theorem State.setGroup_ports (s : State) (g : Group) : (s.setGroup g).ports = s.ports := rfl
@[simp] theorem State.setGroup_routes (s : State) (g : Group) : (s.setGroup g).routes = s.routes := rfl
@[simp] theorem State.setGroup_mcast (s : State) (g : Group) : (s.setGroup g).mcast = s.mcast := rfl
@[simp] theorem State.setGroup_adth (s : State) (g : Group) : (s.setGroup g).adth = s.adth := rfl
@[simp] theorem State.setGroup_tpod (s : State) (g : Group) : (s.setGroup g).tpod = s.tpod := rfl
@[simp] theorem State.setGroup_linkUpAt (s : State) (g : Group) : (s.setGroup g).linkUpAt = s.linkUpAt := rfl
@[simp] theorem State.setGroup_fabricOpen (s : State) (g : Group) : (s.setGroup g).fabricOpen = s.fabricOpen := rfl
@[simp] theorem State.setGroup_rtx (s : State) (g : Group) : (s.setGroup g).rtx = s.rtx := rfl
@[simp] theorem State.setGroup_outPkts (s : State) (g : Group) : (s.setGroup g).outPkts = s.outPkts := rfl
@[simp] theorem State.setGroup_arrived (s : State) (g : Group) : (s.setGroup g).arrived = s.arrived := rfl
@[simp] theorem State.setGroup_upset (s : State) (g : Group) : (s.setGroup g).upset = s.upset := rfl
@[simp] theorem State.setGroup_mgmtHeld (s : State) (g : Group) : (s.setGroup g).mgmtHeld = s.mgmtHeld := rfl
@[simp] theorem State.setGroup_ccache (s : State) (g : Group) : (s.setGroup g).ccache = s.ccache := rfl
@[simp] theorem State.setGroup_atomNext (s : State) (g : Group) : (s.setGroup g).atomNext = s.atomNext := rfl
@[simp] theorem State.setGroup_grants (s : State) (g : Group) : (s.setGroup g).grants = s.grants := rfl
@[simp] theorem State.setGroup_flagsOut (s : State) (g : Group) : (s.setGroup g).flagsOut = s.flagsOut := rfl
@[simp] theorem State.setGroup_flagsIn (s : State) (g : Group) : (s.setGroup g).flagsIn = s.flagsIn := rfl
@[simp] theorem State.setGroup_held (s : State) (g : Group) : (s.setGroup g).held = s.held := rfl
@[simp] theorem State.setGroup_served (s : State) (g : Group) : (s.setGroup g).served = s.served := rfl
@[simp] theorem State.setGroup_inbox (s : State) (g : Group) : (s.setGroup g).inbox = s.inbox := rfl
@[simp] theorem State.setGroup_rows (s : State) (g : Group) : (s.setGroup g).rows = s.rows := rfl
@[simp] theorem State.setGroup_atomIn (s : State) (g : Group) : (s.setGroup g).atomIn = s.atomIn := rfl
@[simp] theorem State.setGroup_heldAtoms (s : State) (g : Group) : (s.setGroup g).heldAtoms = s.heldAtoms := rfl
@[simp] theorem State.setGroup_mcIn (s : State) (g : Group) : (s.setGroup g).mcIn = s.mcIn := rfl
@[simp] theorem State.setGroup_descs (s : State) (g : Group) : (s.setGroup g).descs = s.descs := rfl
@[simp] theorem State.setGroup_watches (s : State) (g : Group) : (s.setGroup g).watches = s.watches := rfl
@[simp] theorem State.setGroup_advanced (s : State) (g : Group) : (s.setGroup g).advanced = s.advanced := rfl
@[simp] theorem State.setGroup_barReads (s : State) (g : Group) : (s.setGroup g).barReads = s.barReads := rfl
@[simp] theorem State.setGroup_ordinals (s : State) (g : Group) : (s.setGroup g).ordinals = s.ordinals := rfl
@[simp] theorem State.setGroup_mbox (s : State) (g : Group) : (s.setGroup g).mbox = s.mbox := rfl
@[simp] theorem State.setGroup_replies (s : State) (g : Group) : (s.setGroup g).replies = s.replies := rfl
@[simp] theorem State.setGroup_doorbells (s : State) (g : Group) : (s.setGroup g).doorbells = s.doorbells := rfl
@[simp] theorem State.setGroup_hostOut (s : State) (g : Group) : (s.setGroup g).hostOut = s.hostOut := rfl
@[simp] theorem State.setGroup_hostReads (s : State) (g : Group) : (s.setGroup g).hostReads = s.hostReads := rfl
@[simp] theorem State.setGroup_msixOpen (s : State) (g : Group) : (s.setGroup g).msixOpen = s.msixOpen := rfl
@[simp] theorem State.setGroup_msixPend (s : State) (g : Group) : (s.setGroup g).msixPend = s.msixPend := rfl
@[simp] theorem State.setGroup_aperture (s : State) (g : Group) : (s.setGroup g).aperture = s.aperture := rfl
@[simp] theorem State.setGroup_bar2Bits (s : State) (g : Group) : (s.setGroup g).bar2Bits = s.bar2Bits := rfl
@[simp] theorem State.setGroup_poisoned (s : State) (g : Group) : (s.setGroup g).poisoned = s.poisoned := rfl
@[simp] theorem State.setGroup_counters (s : State) (g : Group) : (s.setGroup g).counters = s.counters := rfl
@[simp] theorem State.setGroup_die0 (s : State) (g : Group) : (s.setGroup g).die0 = s.die0 := rfl
@[simp] theorem State.setGroup_die1 (s : State) (g : Group) : (s.setGroup g).die1 = s.die1 := rfl
@[simp] theorem State.setGroup_timeNs (s : State) (g : Group) : (s.setGroup g).timeNs = s.timeNs := rfl
@[simp] theorem State.setGroup_pwr (s : State) (g : Group) : (s.setGroup g).pwr = s.pwr := rfl
@[simp] theorem State.setGroup_limitW (s : State) (g : Group) : (s.setGroup g).limitW = s.limitW := rfl
@[simp] theorem State.setGroup_tempUmber (s : State) (g : Group) : (s.setGroup g).tempUmber = s.tempUmber := rfl
@[simp] theorem State.setGroup_tempHbm (s : State) (g : Group) : (s.setGroup g).tempHbm = s.tempHbm := rfl
@[simp] theorem State.setGroup_boot (s : State) (g : Group) : (s.setGroup g).boot = s.boot := rfl
@[simp] theorem State.setGroup_svn (s : State) (g : Group) : (s.setGroup g).svn = s.svn := rfl
@[simp] theorem State.setGroup_floor (s : State) (g : Group) : (s.setGroup g).floor = s.floor := rfl
@[simp] theorem State.setGroup_flash (s : State) (g : Group) : (s.setGroup g).flash = s.flash := rfl
@[simp] theorem State.setGroup_cfgRec (s : State) (g : Group) : (s.setGroup g).cfgRec = s.cfgRec := rfl
@[simp] theorem State.setGroup_recWin (s : State) (g : Group) : (s.setGroup g).recWin = s.recWin := rfl
@[simp] theorem State.setGroup_measure (s : State) (g : Group) : (s.setGroup g).measure = s.measure := rfl
@[simp] theorem State.setGroup_cfgOk (s : State) (g : Group) : (s.setGroup g).cfgOk = s.cfgOk := rfl
@[simp] theorem State.setGroup_cfgCount (s : State) (g : Group) : (s.setGroup g).cfgCount = s.cfgCount := rfl
@[simp] theorem State.setGroup_viaRecovery (s : State) (g : Group) : (s.setGroup g).viaRecovery = s.viaRecovery := rfl

/-! ## `State.modGroup` -/

@[simp] theorem State.modGroup_sel (s : State) (u : Nat) (f : Group → Group) : (s.modGroup u f).sel = s.sel := rfl
@[simp] theorem State.modGroup_agenda (s : State) (u : Nat) (f : Group → Group) : (s.modGroup u f).agenda = s.agenda := rfl
@[simp] theorem State.modGroup_turn (s : State) (u : Nat) (f : Group → Group) : (s.modGroup u f).turn = s.turn := rfl
@[simp] theorem State.modGroup_issued (s : State) (u : Nat) (f : Group → Group) : (s.modGroup u f).issued = s.issued := rfl
@[simp] theorem State.modGroup_groups (s : State) (u : Nat) (f : Group → Group) : (s.modGroup u f).groups = mapIf (fun x => x.uid == u) f s.groups := rfl
@[simp] theorem State.modGroup_teams (s : State) (u : Nat) (f : Group → Group) : (s.modGroup u f).teams = s.teams := rfl
@[simp] theorem State.modGroup_launches (s : State) (u : Nat) (f : Group → Group) : (s.modGroup u f).launches = s.launches := rfl
@[simp] theorem State.modGroup_contexts (s : State) (u : Nat) (f : Group → Group) : (s.modGroup u f).contexts = s.contexts := rfl
@[simp] theorem State.modGroup_ops (s : State) (u : Nat) (f : Group → Group) : (s.modGroup u f).ops = s.ops := rfl
@[simp] theorem State.modGroup_gathers (s : State) (u : Nat) (f : Group → Group) : (s.modGroup u f).gathers = s.gathers := rfl
@[simp] theorem State.modGroup_nextId (s : State) (u : Nat) (f : Group → Group) : (s.modGroup u f).nextId = s.nextId := rfl
@[simp] theorem State.modGroup_free (s : State) (u : Nat) (f : Group → Group) : (s.modGroup u f).free = s.free := rfl
@[simp] theorem State.modGroup_mem (s : State) (u : Nat) (f : Group → Group) : (s.modGroup u f).mem = s.mem := rfl
@[simp] theorem State.modGroup_l1 (s : State) (u : Nat) (f : Group → Group) : (s.modGroup u f).l1 = s.l1 := rfl
@[simp] theorem State.modGroup_cc (s : State) (u : Nat) (f : Group → Group) : (s.modGroup u f).cc = s.cc := rfl
@[simp] theorem State.modGroup_l2 (s : State) (u : Nat) (f : Group → Group) : (s.modGroup u f).l2 = s.l2 := rfl
@[simp] theorem State.modGroup_lost (s : State) (u : Nat) (f : Group → Group) : (s.modGroup u f).lost = s.lost := rfl
@[simp] theorem State.modGroup_ways (s : State) (u : Nat) (f : Group → Group) : (s.modGroup u f).ways = s.ways := rfl
@[simp] theorem State.modGroup_retired (s : State) (u : Nat) (f : Group → Group) : (s.modGroup u f).retired = s.retired := rfl
@[simp] theorem State.modGroup_toRetire (s : State) (u : Nat) (f : Group → Group) : (s.modGroup u f).toRetire = s.toRetire := rfl
@[simp] theorem State.modGroup_tlb (s : State) (u : Nat) (f : Group → Group) : (s.modGroup u f).tlb = s.tlb := rfl
@[simp] theorem State.modGroup_walkReqs (s : State) (u : Nat) (f : Group → Group) : (s.modGroup u f).walkReqs = s.walkReqs := rfl
@[simp] theorem State.modGroup_lightReqs (s : State) (u : Nat) (f : Group → Group) : (s.modGroup u f).lightReqs = s.lightReqs := rfl
@[simp] theorem State.modGroup_absent (s : State) (u : Nat) (f : Group → Group) : (s.modGroup u f).absent = s.absent := rfl
@[simp] theorem State.modGroup_pats (s : State) (u : Nat) (f : Group → Group) : (s.modGroup u f).pats = s.pats := rfl
@[simp] theorem State.modGroup_updates (s : State) (u : Nat) (f : Group → Group) : (s.modGroup u f).updates = s.updates := rfl
@[simp] theorem State.modGroup_migrating (s : State) (u : Nat) (f : Group → Group) : (s.modGroup u f).migrating = s.migrating := rfl
@[simp] theorem State.modGroup_waiting (s : State) (u : Nat) (f : Group → Group) : (s.modGroup u f).waiting = s.waiting := rfl
@[simp] theorem State.modGroup_dists (s : State) (u : Nat) (f : Group → Group) : (s.modGroup u f).dists = s.dists := rfl
@[simp] theorem State.modGroup_pthr (s : State) (u : Nat) (f : Group → Group) : (s.modGroup u f).pthr = s.pthr := rfl
@[simp] theorem State.modGroup_wdsave (s : State) (u : Nat) (f : Group → Group) : (s.modGroup u f).wdsave = s.wdsave := rfl
@[simp] theorem State.modGroup_seals (s : State) (u : Nat) (f : Group → Group) : (s.modGroup u f).seals = s.seals := rfl
@[simp] theorem State.modGroup_refill (s : State) (u : Nat) (f : Group → Group) : (s.modGroup u f).refill = s.refill := rfl
@[simp] theorem State.modGroup_freed (s : State) (u : Nat) (f : Group → Group) : (s.modGroup u f).freed = s.freed := rfl
@[simp] theorem State.modGroup_ffring (s : State) (u : Nat) (f : Group → Group) : (s.modGroup u f).ffring = s.ffring := rfl
@[simp] theorem State.modGroup_devid (s : State) (u : Nat) (f : Group → Group) : (s.modGroup u f).devid = s.devid := rfl
@[simp] theorem State.modGroup_epoch (s : State) (u : Nat) (f : Group → Group) : (s.modGroup u f).epoch = s.epoch := rfl
@[simp] theorem State.modGroup_ports (s : State) (u : Nat) (f : Group → Group) : (s.modGroup u f).ports = s.ports := rfl
@[simp] theorem State.modGroup_routes (s : State) (u : Nat) (f : Group → Group) : (s.modGroup u f).routes = s.routes := rfl
@[simp] theorem State.modGroup_mcast (s : State) (u : Nat) (f : Group → Group) : (s.modGroup u f).mcast = s.mcast := rfl
@[simp] theorem State.modGroup_adth (s : State) (u : Nat) (f : Group → Group) : (s.modGroup u f).adth = s.adth := rfl
@[simp] theorem State.modGroup_tpod (s : State) (u : Nat) (f : Group → Group) : (s.modGroup u f).tpod = s.tpod := rfl
@[simp] theorem State.modGroup_linkUpAt (s : State) (u : Nat) (f : Group → Group) : (s.modGroup u f).linkUpAt = s.linkUpAt := rfl
@[simp] theorem State.modGroup_fabricOpen (s : State) (u : Nat) (f : Group → Group) : (s.modGroup u f).fabricOpen = s.fabricOpen := rfl
@[simp] theorem State.modGroup_rtx (s : State) (u : Nat) (f : Group → Group) : (s.modGroup u f).rtx = s.rtx := rfl
@[simp] theorem State.modGroup_outPkts (s : State) (u : Nat) (f : Group → Group) : (s.modGroup u f).outPkts = s.outPkts := rfl
@[simp] theorem State.modGroup_arrived (s : State) (u : Nat) (f : Group → Group) : (s.modGroup u f).arrived = s.arrived := rfl
@[simp] theorem State.modGroup_upset (s : State) (u : Nat) (f : Group → Group) : (s.modGroup u f).upset = s.upset := rfl
@[simp] theorem State.modGroup_mgmtHeld (s : State) (u : Nat) (f : Group → Group) : (s.modGroup u f).mgmtHeld = s.mgmtHeld := rfl
@[simp] theorem State.modGroup_ccache (s : State) (u : Nat) (f : Group → Group) : (s.modGroup u f).ccache = s.ccache := rfl
@[simp] theorem State.modGroup_atomNext (s : State) (u : Nat) (f : Group → Group) : (s.modGroup u f).atomNext = s.atomNext := rfl
@[simp] theorem State.modGroup_grants (s : State) (u : Nat) (f : Group → Group) : (s.modGroup u f).grants = s.grants := rfl
@[simp] theorem State.modGroup_flagsOut (s : State) (u : Nat) (f : Group → Group) : (s.modGroup u f).flagsOut = s.flagsOut := rfl
@[simp] theorem State.modGroup_flagsIn (s : State) (u : Nat) (f : Group → Group) : (s.modGroup u f).flagsIn = s.flagsIn := rfl
@[simp] theorem State.modGroup_held (s : State) (u : Nat) (f : Group → Group) : (s.modGroup u f).held = s.held := rfl
@[simp] theorem State.modGroup_served (s : State) (u : Nat) (f : Group → Group) : (s.modGroup u f).served = s.served := rfl
@[simp] theorem State.modGroup_inbox (s : State) (u : Nat) (f : Group → Group) : (s.modGroup u f).inbox = s.inbox := rfl
@[simp] theorem State.modGroup_rows (s : State) (u : Nat) (f : Group → Group) : (s.modGroup u f).rows = s.rows := rfl
@[simp] theorem State.modGroup_atomIn (s : State) (u : Nat) (f : Group → Group) : (s.modGroup u f).atomIn = s.atomIn := rfl
@[simp] theorem State.modGroup_heldAtoms (s : State) (u : Nat) (f : Group → Group) : (s.modGroup u f).heldAtoms = s.heldAtoms := rfl
@[simp] theorem State.modGroup_mcIn (s : State) (u : Nat) (f : Group → Group) : (s.modGroup u f).mcIn = s.mcIn := rfl
@[simp] theorem State.modGroup_descs (s : State) (u : Nat) (f : Group → Group) : (s.modGroup u f).descs = s.descs := rfl
@[simp] theorem State.modGroup_watches (s : State) (u : Nat) (f : Group → Group) : (s.modGroup u f).watches = s.watches := rfl
@[simp] theorem State.modGroup_advanced (s : State) (u : Nat) (f : Group → Group) : (s.modGroup u f).advanced = s.advanced := rfl
@[simp] theorem State.modGroup_barReads (s : State) (u : Nat) (f : Group → Group) : (s.modGroup u f).barReads = s.barReads := rfl
@[simp] theorem State.modGroup_ordinals (s : State) (u : Nat) (f : Group → Group) : (s.modGroup u f).ordinals = s.ordinals := rfl
@[simp] theorem State.modGroup_mbox (s : State) (u : Nat) (f : Group → Group) : (s.modGroup u f).mbox = s.mbox := rfl
@[simp] theorem State.modGroup_replies (s : State) (u : Nat) (f : Group → Group) : (s.modGroup u f).replies = s.replies := rfl
@[simp] theorem State.modGroup_doorbells (s : State) (u : Nat) (f : Group → Group) : (s.modGroup u f).doorbells = s.doorbells := rfl
@[simp] theorem State.modGroup_hostOut (s : State) (u : Nat) (f : Group → Group) : (s.modGroup u f).hostOut = s.hostOut := rfl
@[simp] theorem State.modGroup_hostReads (s : State) (u : Nat) (f : Group → Group) : (s.modGroup u f).hostReads = s.hostReads := rfl
@[simp] theorem State.modGroup_msixOpen (s : State) (u : Nat) (f : Group → Group) : (s.modGroup u f).msixOpen = s.msixOpen := rfl
@[simp] theorem State.modGroup_msixPend (s : State) (u : Nat) (f : Group → Group) : (s.modGroup u f).msixPend = s.msixPend := rfl
@[simp] theorem State.modGroup_aperture (s : State) (u : Nat) (f : Group → Group) : (s.modGroup u f).aperture = s.aperture := rfl
@[simp] theorem State.modGroup_bar2Bits (s : State) (u : Nat) (f : Group → Group) : (s.modGroup u f).bar2Bits = s.bar2Bits := rfl
@[simp] theorem State.modGroup_poisoned (s : State) (u : Nat) (f : Group → Group) : (s.modGroup u f).poisoned = s.poisoned := rfl
@[simp] theorem State.modGroup_counters (s : State) (u : Nat) (f : Group → Group) : (s.modGroup u f).counters = s.counters := rfl
@[simp] theorem State.modGroup_die0 (s : State) (u : Nat) (f : Group → Group) : (s.modGroup u f).die0 = s.die0 := rfl
@[simp] theorem State.modGroup_die1 (s : State) (u : Nat) (f : Group → Group) : (s.modGroup u f).die1 = s.die1 := rfl
@[simp] theorem State.modGroup_timeNs (s : State) (u : Nat) (f : Group → Group) : (s.modGroup u f).timeNs = s.timeNs := rfl
@[simp] theorem State.modGroup_pwr (s : State) (u : Nat) (f : Group → Group) : (s.modGroup u f).pwr = s.pwr := rfl
@[simp] theorem State.modGroup_limitW (s : State) (u : Nat) (f : Group → Group) : (s.modGroup u f).limitW = s.limitW := rfl
@[simp] theorem State.modGroup_tempUmber (s : State) (u : Nat) (f : Group → Group) : (s.modGroup u f).tempUmber = s.tempUmber := rfl
@[simp] theorem State.modGroup_tempHbm (s : State) (u : Nat) (f : Group → Group) : (s.modGroup u f).tempHbm = s.tempHbm := rfl
@[simp] theorem State.modGroup_boot (s : State) (u : Nat) (f : Group → Group) : (s.modGroup u f).boot = s.boot := rfl
@[simp] theorem State.modGroup_svn (s : State) (u : Nat) (f : Group → Group) : (s.modGroup u f).svn = s.svn := rfl
@[simp] theorem State.modGroup_floor (s : State) (u : Nat) (f : Group → Group) : (s.modGroup u f).floor = s.floor := rfl
@[simp] theorem State.modGroup_flash (s : State) (u : Nat) (f : Group → Group) : (s.modGroup u f).flash = s.flash := rfl
@[simp] theorem State.modGroup_cfgRec (s : State) (u : Nat) (f : Group → Group) : (s.modGroup u f).cfgRec = s.cfgRec := rfl
@[simp] theorem State.modGroup_recWin (s : State) (u : Nat) (f : Group → Group) : (s.modGroup u f).recWin = s.recWin := rfl
@[simp] theorem State.modGroup_measure (s : State) (u : Nat) (f : Group → Group) : (s.modGroup u f).measure = s.measure := rfl
@[simp] theorem State.modGroup_cfgOk (s : State) (u : Nat) (f : Group → Group) : (s.modGroup u f).cfgOk = s.cfgOk := rfl
@[simp] theorem State.modGroup_cfgCount (s : State) (u : Nat) (f : Group → Group) : (s.modGroup u f).cfgCount = s.cfgCount := rfl
@[simp] theorem State.modGroup_viaRecovery (s : State) (u : Nat) (f : Group → Group) : (s.modGroup u f).viaRecovery = s.viaRecovery := rfl

/-! ## `State.modTeam` -/

@[simp] theorem State.modTeam_sel (s : State) (u : Nat) (f : Team → Team) : (s.modTeam u f).sel = s.sel := rfl
@[simp] theorem State.modTeam_agenda (s : State) (u : Nat) (f : Team → Team) : (s.modTeam u f).agenda = s.agenda := rfl
@[simp] theorem State.modTeam_turn (s : State) (u : Nat) (f : Team → Team) : (s.modTeam u f).turn = s.turn := rfl
@[simp] theorem State.modTeam_issued (s : State) (u : Nat) (f : Team → Team) : (s.modTeam u f).issued = s.issued := rfl
@[simp] theorem State.modTeam_groups (s : State) (u : Nat) (f : Team → Team) : (s.modTeam u f).groups = s.groups := rfl
@[simp] theorem State.modTeam_teams (s : State) (u : Nat) (f : Team → Team) : (s.modTeam u f).teams = mapIf (fun x => x.uid == u) f s.teams := rfl
@[simp] theorem State.modTeam_launches (s : State) (u : Nat) (f : Team → Team) : (s.modTeam u f).launches = s.launches := rfl
@[simp] theorem State.modTeam_contexts (s : State) (u : Nat) (f : Team → Team) : (s.modTeam u f).contexts = s.contexts := rfl
@[simp] theorem State.modTeam_ops (s : State) (u : Nat) (f : Team → Team) : (s.modTeam u f).ops = s.ops := rfl
@[simp] theorem State.modTeam_gathers (s : State) (u : Nat) (f : Team → Team) : (s.modTeam u f).gathers = s.gathers := rfl
@[simp] theorem State.modTeam_nextId (s : State) (u : Nat) (f : Team → Team) : (s.modTeam u f).nextId = s.nextId := rfl
@[simp] theorem State.modTeam_free (s : State) (u : Nat) (f : Team → Team) : (s.modTeam u f).free = s.free := rfl
@[simp] theorem State.modTeam_mem (s : State) (u : Nat) (f : Team → Team) : (s.modTeam u f).mem = s.mem := rfl
@[simp] theorem State.modTeam_l1 (s : State) (u : Nat) (f : Team → Team) : (s.modTeam u f).l1 = s.l1 := rfl
@[simp] theorem State.modTeam_cc (s : State) (u : Nat) (f : Team → Team) : (s.modTeam u f).cc = s.cc := rfl
@[simp] theorem State.modTeam_l2 (s : State) (u : Nat) (f : Team → Team) : (s.modTeam u f).l2 = s.l2 := rfl
@[simp] theorem State.modTeam_lost (s : State) (u : Nat) (f : Team → Team) : (s.modTeam u f).lost = s.lost := rfl
@[simp] theorem State.modTeam_ways (s : State) (u : Nat) (f : Team → Team) : (s.modTeam u f).ways = s.ways := rfl
@[simp] theorem State.modTeam_retired (s : State) (u : Nat) (f : Team → Team) : (s.modTeam u f).retired = s.retired := rfl
@[simp] theorem State.modTeam_toRetire (s : State) (u : Nat) (f : Team → Team) : (s.modTeam u f).toRetire = s.toRetire := rfl
@[simp] theorem State.modTeam_tlb (s : State) (u : Nat) (f : Team → Team) : (s.modTeam u f).tlb = s.tlb := rfl
@[simp] theorem State.modTeam_walkReqs (s : State) (u : Nat) (f : Team → Team) : (s.modTeam u f).walkReqs = s.walkReqs := rfl
@[simp] theorem State.modTeam_lightReqs (s : State) (u : Nat) (f : Team → Team) : (s.modTeam u f).lightReqs = s.lightReqs := rfl
@[simp] theorem State.modTeam_absent (s : State) (u : Nat) (f : Team → Team) : (s.modTeam u f).absent = s.absent := rfl
@[simp] theorem State.modTeam_pats (s : State) (u : Nat) (f : Team → Team) : (s.modTeam u f).pats = s.pats := rfl
@[simp] theorem State.modTeam_updates (s : State) (u : Nat) (f : Team → Team) : (s.modTeam u f).updates = s.updates := rfl
@[simp] theorem State.modTeam_migrating (s : State) (u : Nat) (f : Team → Team) : (s.modTeam u f).migrating = s.migrating := rfl
@[simp] theorem State.modTeam_waiting (s : State) (u : Nat) (f : Team → Team) : (s.modTeam u f).waiting = s.waiting := rfl
@[simp] theorem State.modTeam_dists (s : State) (u : Nat) (f : Team → Team) : (s.modTeam u f).dists = s.dists := rfl
@[simp] theorem State.modTeam_pthr (s : State) (u : Nat) (f : Team → Team) : (s.modTeam u f).pthr = s.pthr := rfl
@[simp] theorem State.modTeam_wdsave (s : State) (u : Nat) (f : Team → Team) : (s.modTeam u f).wdsave = s.wdsave := rfl
@[simp] theorem State.modTeam_seals (s : State) (u : Nat) (f : Team → Team) : (s.modTeam u f).seals = s.seals := rfl
@[simp] theorem State.modTeam_refill (s : State) (u : Nat) (f : Team → Team) : (s.modTeam u f).refill = s.refill := rfl
@[simp] theorem State.modTeam_freed (s : State) (u : Nat) (f : Team → Team) : (s.modTeam u f).freed = s.freed := rfl
@[simp] theorem State.modTeam_ffring (s : State) (u : Nat) (f : Team → Team) : (s.modTeam u f).ffring = s.ffring := rfl
@[simp] theorem State.modTeam_devid (s : State) (u : Nat) (f : Team → Team) : (s.modTeam u f).devid = s.devid := rfl
@[simp] theorem State.modTeam_epoch (s : State) (u : Nat) (f : Team → Team) : (s.modTeam u f).epoch = s.epoch := rfl
@[simp] theorem State.modTeam_ports (s : State) (u : Nat) (f : Team → Team) : (s.modTeam u f).ports = s.ports := rfl
@[simp] theorem State.modTeam_routes (s : State) (u : Nat) (f : Team → Team) : (s.modTeam u f).routes = s.routes := rfl
@[simp] theorem State.modTeam_mcast (s : State) (u : Nat) (f : Team → Team) : (s.modTeam u f).mcast = s.mcast := rfl
@[simp] theorem State.modTeam_adth (s : State) (u : Nat) (f : Team → Team) : (s.modTeam u f).adth = s.adth := rfl
@[simp] theorem State.modTeam_tpod (s : State) (u : Nat) (f : Team → Team) : (s.modTeam u f).tpod = s.tpod := rfl
@[simp] theorem State.modTeam_linkUpAt (s : State) (u : Nat) (f : Team → Team) : (s.modTeam u f).linkUpAt = s.linkUpAt := rfl
@[simp] theorem State.modTeam_fabricOpen (s : State) (u : Nat) (f : Team → Team) : (s.modTeam u f).fabricOpen = s.fabricOpen := rfl
@[simp] theorem State.modTeam_rtx (s : State) (u : Nat) (f : Team → Team) : (s.modTeam u f).rtx = s.rtx := rfl
@[simp] theorem State.modTeam_outPkts (s : State) (u : Nat) (f : Team → Team) : (s.modTeam u f).outPkts = s.outPkts := rfl
@[simp] theorem State.modTeam_arrived (s : State) (u : Nat) (f : Team → Team) : (s.modTeam u f).arrived = s.arrived := rfl
@[simp] theorem State.modTeam_upset (s : State) (u : Nat) (f : Team → Team) : (s.modTeam u f).upset = s.upset := rfl
@[simp] theorem State.modTeam_mgmtHeld (s : State) (u : Nat) (f : Team → Team) : (s.modTeam u f).mgmtHeld = s.mgmtHeld := rfl
@[simp] theorem State.modTeam_ccache (s : State) (u : Nat) (f : Team → Team) : (s.modTeam u f).ccache = s.ccache := rfl
@[simp] theorem State.modTeam_atomNext (s : State) (u : Nat) (f : Team → Team) : (s.modTeam u f).atomNext = s.atomNext := rfl
@[simp] theorem State.modTeam_grants (s : State) (u : Nat) (f : Team → Team) : (s.modTeam u f).grants = s.grants := rfl
@[simp] theorem State.modTeam_flagsOut (s : State) (u : Nat) (f : Team → Team) : (s.modTeam u f).flagsOut = s.flagsOut := rfl
@[simp] theorem State.modTeam_flagsIn (s : State) (u : Nat) (f : Team → Team) : (s.modTeam u f).flagsIn = s.flagsIn := rfl
@[simp] theorem State.modTeam_held (s : State) (u : Nat) (f : Team → Team) : (s.modTeam u f).held = s.held := rfl
@[simp] theorem State.modTeam_served (s : State) (u : Nat) (f : Team → Team) : (s.modTeam u f).served = s.served := rfl
@[simp] theorem State.modTeam_inbox (s : State) (u : Nat) (f : Team → Team) : (s.modTeam u f).inbox = s.inbox := rfl
@[simp] theorem State.modTeam_rows (s : State) (u : Nat) (f : Team → Team) : (s.modTeam u f).rows = s.rows := rfl
@[simp] theorem State.modTeam_atomIn (s : State) (u : Nat) (f : Team → Team) : (s.modTeam u f).atomIn = s.atomIn := rfl
@[simp] theorem State.modTeam_heldAtoms (s : State) (u : Nat) (f : Team → Team) : (s.modTeam u f).heldAtoms = s.heldAtoms := rfl
@[simp] theorem State.modTeam_mcIn (s : State) (u : Nat) (f : Team → Team) : (s.modTeam u f).mcIn = s.mcIn := rfl
@[simp] theorem State.modTeam_descs (s : State) (u : Nat) (f : Team → Team) : (s.modTeam u f).descs = s.descs := rfl
@[simp] theorem State.modTeam_watches (s : State) (u : Nat) (f : Team → Team) : (s.modTeam u f).watches = s.watches := rfl
@[simp] theorem State.modTeam_advanced (s : State) (u : Nat) (f : Team → Team) : (s.modTeam u f).advanced = s.advanced := rfl
@[simp] theorem State.modTeam_barReads (s : State) (u : Nat) (f : Team → Team) : (s.modTeam u f).barReads = s.barReads := rfl
@[simp] theorem State.modTeam_ordinals (s : State) (u : Nat) (f : Team → Team) : (s.modTeam u f).ordinals = s.ordinals := rfl
@[simp] theorem State.modTeam_mbox (s : State) (u : Nat) (f : Team → Team) : (s.modTeam u f).mbox = s.mbox := rfl
@[simp] theorem State.modTeam_replies (s : State) (u : Nat) (f : Team → Team) : (s.modTeam u f).replies = s.replies := rfl
@[simp] theorem State.modTeam_doorbells (s : State) (u : Nat) (f : Team → Team) : (s.modTeam u f).doorbells = s.doorbells := rfl
@[simp] theorem State.modTeam_hostOut (s : State) (u : Nat) (f : Team → Team) : (s.modTeam u f).hostOut = s.hostOut := rfl
@[simp] theorem State.modTeam_hostReads (s : State) (u : Nat) (f : Team → Team) : (s.modTeam u f).hostReads = s.hostReads := rfl
@[simp] theorem State.modTeam_msixOpen (s : State) (u : Nat) (f : Team → Team) : (s.modTeam u f).msixOpen = s.msixOpen := rfl
@[simp] theorem State.modTeam_msixPend (s : State) (u : Nat) (f : Team → Team) : (s.modTeam u f).msixPend = s.msixPend := rfl
@[simp] theorem State.modTeam_aperture (s : State) (u : Nat) (f : Team → Team) : (s.modTeam u f).aperture = s.aperture := rfl
@[simp] theorem State.modTeam_bar2Bits (s : State) (u : Nat) (f : Team → Team) : (s.modTeam u f).bar2Bits = s.bar2Bits := rfl
@[simp] theorem State.modTeam_poisoned (s : State) (u : Nat) (f : Team → Team) : (s.modTeam u f).poisoned = s.poisoned := rfl
@[simp] theorem State.modTeam_counters (s : State) (u : Nat) (f : Team → Team) : (s.modTeam u f).counters = s.counters := rfl
@[simp] theorem State.modTeam_die0 (s : State) (u : Nat) (f : Team → Team) : (s.modTeam u f).die0 = s.die0 := rfl
@[simp] theorem State.modTeam_die1 (s : State) (u : Nat) (f : Team → Team) : (s.modTeam u f).die1 = s.die1 := rfl
@[simp] theorem State.modTeam_timeNs (s : State) (u : Nat) (f : Team → Team) : (s.modTeam u f).timeNs = s.timeNs := rfl
@[simp] theorem State.modTeam_pwr (s : State) (u : Nat) (f : Team → Team) : (s.modTeam u f).pwr = s.pwr := rfl
@[simp] theorem State.modTeam_limitW (s : State) (u : Nat) (f : Team → Team) : (s.modTeam u f).limitW = s.limitW := rfl
@[simp] theorem State.modTeam_tempUmber (s : State) (u : Nat) (f : Team → Team) : (s.modTeam u f).tempUmber = s.tempUmber := rfl
@[simp] theorem State.modTeam_tempHbm (s : State) (u : Nat) (f : Team → Team) : (s.modTeam u f).tempHbm = s.tempHbm := rfl
@[simp] theorem State.modTeam_boot (s : State) (u : Nat) (f : Team → Team) : (s.modTeam u f).boot = s.boot := rfl
@[simp] theorem State.modTeam_svn (s : State) (u : Nat) (f : Team → Team) : (s.modTeam u f).svn = s.svn := rfl
@[simp] theorem State.modTeam_floor (s : State) (u : Nat) (f : Team → Team) : (s.modTeam u f).floor = s.floor := rfl
@[simp] theorem State.modTeam_flash (s : State) (u : Nat) (f : Team → Team) : (s.modTeam u f).flash = s.flash := rfl
@[simp] theorem State.modTeam_cfgRec (s : State) (u : Nat) (f : Team → Team) : (s.modTeam u f).cfgRec = s.cfgRec := rfl
@[simp] theorem State.modTeam_recWin (s : State) (u : Nat) (f : Team → Team) : (s.modTeam u f).recWin = s.recWin := rfl
@[simp] theorem State.modTeam_measure (s : State) (u : Nat) (f : Team → Team) : (s.modTeam u f).measure = s.measure := rfl
@[simp] theorem State.modTeam_cfgOk (s : State) (u : Nat) (f : Team → Team) : (s.modTeam u f).cfgOk = s.cfgOk := rfl
@[simp] theorem State.modTeam_cfgCount (s : State) (u : Nat) (f : Team → Team) : (s.modTeam u f).cfgCount = s.cfgCount := rfl
@[simp] theorem State.modTeam_viaRecovery (s : State) (u : Nat) (f : Team → Team) : (s.modTeam u f).viaRecovery = s.viaRecovery := rfl

/-! ## `State.modLaunch` -/

@[simp] theorem State.modLaunch_sel (s : State) (u : Nat) (f : Launch → Launch) : (s.modLaunch u f).sel = s.sel := rfl
@[simp] theorem State.modLaunch_agenda (s : State) (u : Nat) (f : Launch → Launch) : (s.modLaunch u f).agenda = s.agenda := rfl
@[simp] theorem State.modLaunch_turn (s : State) (u : Nat) (f : Launch → Launch) : (s.modLaunch u f).turn = s.turn := rfl
@[simp] theorem State.modLaunch_issued (s : State) (u : Nat) (f : Launch → Launch) : (s.modLaunch u f).issued = s.issued := rfl
@[simp] theorem State.modLaunch_groups (s : State) (u : Nat) (f : Launch → Launch) : (s.modLaunch u f).groups = s.groups := rfl
@[simp] theorem State.modLaunch_teams (s : State) (u : Nat) (f : Launch → Launch) : (s.modLaunch u f).teams = s.teams := rfl
@[simp] theorem State.modLaunch_launches (s : State) (u : Nat) (f : Launch → Launch) : (s.modLaunch u f).launches = mapIf (fun x => x.uid == u) f s.launches := rfl
@[simp] theorem State.modLaunch_contexts (s : State) (u : Nat) (f : Launch → Launch) : (s.modLaunch u f).contexts = s.contexts := rfl
@[simp] theorem State.modLaunch_ops (s : State) (u : Nat) (f : Launch → Launch) : (s.modLaunch u f).ops = s.ops := rfl
@[simp] theorem State.modLaunch_gathers (s : State) (u : Nat) (f : Launch → Launch) : (s.modLaunch u f).gathers = s.gathers := rfl
@[simp] theorem State.modLaunch_nextId (s : State) (u : Nat) (f : Launch → Launch) : (s.modLaunch u f).nextId = s.nextId := rfl
@[simp] theorem State.modLaunch_free (s : State) (u : Nat) (f : Launch → Launch) : (s.modLaunch u f).free = s.free := rfl
@[simp] theorem State.modLaunch_mem (s : State) (u : Nat) (f : Launch → Launch) : (s.modLaunch u f).mem = s.mem := rfl
@[simp] theorem State.modLaunch_l1 (s : State) (u : Nat) (f : Launch → Launch) : (s.modLaunch u f).l1 = s.l1 := rfl
@[simp] theorem State.modLaunch_cc (s : State) (u : Nat) (f : Launch → Launch) : (s.modLaunch u f).cc = s.cc := rfl
@[simp] theorem State.modLaunch_l2 (s : State) (u : Nat) (f : Launch → Launch) : (s.modLaunch u f).l2 = s.l2 := rfl
@[simp] theorem State.modLaunch_lost (s : State) (u : Nat) (f : Launch → Launch) : (s.modLaunch u f).lost = s.lost := rfl
@[simp] theorem State.modLaunch_ways (s : State) (u : Nat) (f : Launch → Launch) : (s.modLaunch u f).ways = s.ways := rfl
@[simp] theorem State.modLaunch_retired (s : State) (u : Nat) (f : Launch → Launch) : (s.modLaunch u f).retired = s.retired := rfl
@[simp] theorem State.modLaunch_toRetire (s : State) (u : Nat) (f : Launch → Launch) : (s.modLaunch u f).toRetire = s.toRetire := rfl
@[simp] theorem State.modLaunch_tlb (s : State) (u : Nat) (f : Launch → Launch) : (s.modLaunch u f).tlb = s.tlb := rfl
@[simp] theorem State.modLaunch_walkReqs (s : State) (u : Nat) (f : Launch → Launch) : (s.modLaunch u f).walkReqs = s.walkReqs := rfl
@[simp] theorem State.modLaunch_lightReqs (s : State) (u : Nat) (f : Launch → Launch) : (s.modLaunch u f).lightReqs = s.lightReqs := rfl
@[simp] theorem State.modLaunch_absent (s : State) (u : Nat) (f : Launch → Launch) : (s.modLaunch u f).absent = s.absent := rfl
@[simp] theorem State.modLaunch_pats (s : State) (u : Nat) (f : Launch → Launch) : (s.modLaunch u f).pats = s.pats := rfl
@[simp] theorem State.modLaunch_updates (s : State) (u : Nat) (f : Launch → Launch) : (s.modLaunch u f).updates = s.updates := rfl
@[simp] theorem State.modLaunch_migrating (s : State) (u : Nat) (f : Launch → Launch) : (s.modLaunch u f).migrating = s.migrating := rfl
@[simp] theorem State.modLaunch_waiting (s : State) (u : Nat) (f : Launch → Launch) : (s.modLaunch u f).waiting = s.waiting := rfl
@[simp] theorem State.modLaunch_dists (s : State) (u : Nat) (f : Launch → Launch) : (s.modLaunch u f).dists = s.dists := rfl
@[simp] theorem State.modLaunch_pthr (s : State) (u : Nat) (f : Launch → Launch) : (s.modLaunch u f).pthr = s.pthr := rfl
@[simp] theorem State.modLaunch_wdsave (s : State) (u : Nat) (f : Launch → Launch) : (s.modLaunch u f).wdsave = s.wdsave := rfl
@[simp] theorem State.modLaunch_seals (s : State) (u : Nat) (f : Launch → Launch) : (s.modLaunch u f).seals = s.seals := rfl
@[simp] theorem State.modLaunch_refill (s : State) (u : Nat) (f : Launch → Launch) : (s.modLaunch u f).refill = s.refill := rfl
@[simp] theorem State.modLaunch_freed (s : State) (u : Nat) (f : Launch → Launch) : (s.modLaunch u f).freed = s.freed := rfl
@[simp] theorem State.modLaunch_ffring (s : State) (u : Nat) (f : Launch → Launch) : (s.modLaunch u f).ffring = s.ffring := rfl
@[simp] theorem State.modLaunch_devid (s : State) (u : Nat) (f : Launch → Launch) : (s.modLaunch u f).devid = s.devid := rfl
@[simp] theorem State.modLaunch_epoch (s : State) (u : Nat) (f : Launch → Launch) : (s.modLaunch u f).epoch = s.epoch := rfl
@[simp] theorem State.modLaunch_ports (s : State) (u : Nat) (f : Launch → Launch) : (s.modLaunch u f).ports = s.ports := rfl
@[simp] theorem State.modLaunch_routes (s : State) (u : Nat) (f : Launch → Launch) : (s.modLaunch u f).routes = s.routes := rfl
@[simp] theorem State.modLaunch_mcast (s : State) (u : Nat) (f : Launch → Launch) : (s.modLaunch u f).mcast = s.mcast := rfl
@[simp] theorem State.modLaunch_adth (s : State) (u : Nat) (f : Launch → Launch) : (s.modLaunch u f).adth = s.adth := rfl
@[simp] theorem State.modLaunch_tpod (s : State) (u : Nat) (f : Launch → Launch) : (s.modLaunch u f).tpod = s.tpod := rfl
@[simp] theorem State.modLaunch_linkUpAt (s : State) (u : Nat) (f : Launch → Launch) : (s.modLaunch u f).linkUpAt = s.linkUpAt := rfl
@[simp] theorem State.modLaunch_fabricOpen (s : State) (u : Nat) (f : Launch → Launch) : (s.modLaunch u f).fabricOpen = s.fabricOpen := rfl
@[simp] theorem State.modLaunch_rtx (s : State) (u : Nat) (f : Launch → Launch) : (s.modLaunch u f).rtx = s.rtx := rfl
@[simp] theorem State.modLaunch_outPkts (s : State) (u : Nat) (f : Launch → Launch) : (s.modLaunch u f).outPkts = s.outPkts := rfl
@[simp] theorem State.modLaunch_arrived (s : State) (u : Nat) (f : Launch → Launch) : (s.modLaunch u f).arrived = s.arrived := rfl
@[simp] theorem State.modLaunch_upset (s : State) (u : Nat) (f : Launch → Launch) : (s.modLaunch u f).upset = s.upset := rfl
@[simp] theorem State.modLaunch_mgmtHeld (s : State) (u : Nat) (f : Launch → Launch) : (s.modLaunch u f).mgmtHeld = s.mgmtHeld := rfl
@[simp] theorem State.modLaunch_ccache (s : State) (u : Nat) (f : Launch → Launch) : (s.modLaunch u f).ccache = s.ccache := rfl
@[simp] theorem State.modLaunch_atomNext (s : State) (u : Nat) (f : Launch → Launch) : (s.modLaunch u f).atomNext = s.atomNext := rfl
@[simp] theorem State.modLaunch_grants (s : State) (u : Nat) (f : Launch → Launch) : (s.modLaunch u f).grants = s.grants := rfl
@[simp] theorem State.modLaunch_flagsOut (s : State) (u : Nat) (f : Launch → Launch) : (s.modLaunch u f).flagsOut = s.flagsOut := rfl
@[simp] theorem State.modLaunch_flagsIn (s : State) (u : Nat) (f : Launch → Launch) : (s.modLaunch u f).flagsIn = s.flagsIn := rfl
@[simp] theorem State.modLaunch_held (s : State) (u : Nat) (f : Launch → Launch) : (s.modLaunch u f).held = s.held := rfl
@[simp] theorem State.modLaunch_served (s : State) (u : Nat) (f : Launch → Launch) : (s.modLaunch u f).served = s.served := rfl
@[simp] theorem State.modLaunch_inbox (s : State) (u : Nat) (f : Launch → Launch) : (s.modLaunch u f).inbox = s.inbox := rfl
@[simp] theorem State.modLaunch_rows (s : State) (u : Nat) (f : Launch → Launch) : (s.modLaunch u f).rows = s.rows := rfl
@[simp] theorem State.modLaunch_atomIn (s : State) (u : Nat) (f : Launch → Launch) : (s.modLaunch u f).atomIn = s.atomIn := rfl
@[simp] theorem State.modLaunch_heldAtoms (s : State) (u : Nat) (f : Launch → Launch) : (s.modLaunch u f).heldAtoms = s.heldAtoms := rfl
@[simp] theorem State.modLaunch_mcIn (s : State) (u : Nat) (f : Launch → Launch) : (s.modLaunch u f).mcIn = s.mcIn := rfl
@[simp] theorem State.modLaunch_descs (s : State) (u : Nat) (f : Launch → Launch) : (s.modLaunch u f).descs = s.descs := rfl
@[simp] theorem State.modLaunch_watches (s : State) (u : Nat) (f : Launch → Launch) : (s.modLaunch u f).watches = s.watches := rfl
@[simp] theorem State.modLaunch_advanced (s : State) (u : Nat) (f : Launch → Launch) : (s.modLaunch u f).advanced = s.advanced := rfl
@[simp] theorem State.modLaunch_barReads (s : State) (u : Nat) (f : Launch → Launch) : (s.modLaunch u f).barReads = s.barReads := rfl
@[simp] theorem State.modLaunch_ordinals (s : State) (u : Nat) (f : Launch → Launch) : (s.modLaunch u f).ordinals = s.ordinals := rfl
@[simp] theorem State.modLaunch_mbox (s : State) (u : Nat) (f : Launch → Launch) : (s.modLaunch u f).mbox = s.mbox := rfl
@[simp] theorem State.modLaunch_replies (s : State) (u : Nat) (f : Launch → Launch) : (s.modLaunch u f).replies = s.replies := rfl
@[simp] theorem State.modLaunch_doorbells (s : State) (u : Nat) (f : Launch → Launch) : (s.modLaunch u f).doorbells = s.doorbells := rfl
@[simp] theorem State.modLaunch_hostOut (s : State) (u : Nat) (f : Launch → Launch) : (s.modLaunch u f).hostOut = s.hostOut := rfl
@[simp] theorem State.modLaunch_hostReads (s : State) (u : Nat) (f : Launch → Launch) : (s.modLaunch u f).hostReads = s.hostReads := rfl
@[simp] theorem State.modLaunch_msixOpen (s : State) (u : Nat) (f : Launch → Launch) : (s.modLaunch u f).msixOpen = s.msixOpen := rfl
@[simp] theorem State.modLaunch_msixPend (s : State) (u : Nat) (f : Launch → Launch) : (s.modLaunch u f).msixPend = s.msixPend := rfl
@[simp] theorem State.modLaunch_aperture (s : State) (u : Nat) (f : Launch → Launch) : (s.modLaunch u f).aperture = s.aperture := rfl
@[simp] theorem State.modLaunch_bar2Bits (s : State) (u : Nat) (f : Launch → Launch) : (s.modLaunch u f).bar2Bits = s.bar2Bits := rfl
@[simp] theorem State.modLaunch_poisoned (s : State) (u : Nat) (f : Launch → Launch) : (s.modLaunch u f).poisoned = s.poisoned := rfl
@[simp] theorem State.modLaunch_counters (s : State) (u : Nat) (f : Launch → Launch) : (s.modLaunch u f).counters = s.counters := rfl
@[simp] theorem State.modLaunch_die0 (s : State) (u : Nat) (f : Launch → Launch) : (s.modLaunch u f).die0 = s.die0 := rfl
@[simp] theorem State.modLaunch_die1 (s : State) (u : Nat) (f : Launch → Launch) : (s.modLaunch u f).die1 = s.die1 := rfl
@[simp] theorem State.modLaunch_timeNs (s : State) (u : Nat) (f : Launch → Launch) : (s.modLaunch u f).timeNs = s.timeNs := rfl
@[simp] theorem State.modLaunch_pwr (s : State) (u : Nat) (f : Launch → Launch) : (s.modLaunch u f).pwr = s.pwr := rfl
@[simp] theorem State.modLaunch_limitW (s : State) (u : Nat) (f : Launch → Launch) : (s.modLaunch u f).limitW = s.limitW := rfl
@[simp] theorem State.modLaunch_tempUmber (s : State) (u : Nat) (f : Launch → Launch) : (s.modLaunch u f).tempUmber = s.tempUmber := rfl
@[simp] theorem State.modLaunch_tempHbm (s : State) (u : Nat) (f : Launch → Launch) : (s.modLaunch u f).tempHbm = s.tempHbm := rfl
@[simp] theorem State.modLaunch_boot (s : State) (u : Nat) (f : Launch → Launch) : (s.modLaunch u f).boot = s.boot := rfl
@[simp] theorem State.modLaunch_svn (s : State) (u : Nat) (f : Launch → Launch) : (s.modLaunch u f).svn = s.svn := rfl
@[simp] theorem State.modLaunch_floor (s : State) (u : Nat) (f : Launch → Launch) : (s.modLaunch u f).floor = s.floor := rfl
@[simp] theorem State.modLaunch_flash (s : State) (u : Nat) (f : Launch → Launch) : (s.modLaunch u f).flash = s.flash := rfl
@[simp] theorem State.modLaunch_cfgRec (s : State) (u : Nat) (f : Launch → Launch) : (s.modLaunch u f).cfgRec = s.cfgRec := rfl
@[simp] theorem State.modLaunch_recWin (s : State) (u : Nat) (f : Launch → Launch) : (s.modLaunch u f).recWin = s.recWin := rfl
@[simp] theorem State.modLaunch_measure (s : State) (u : Nat) (f : Launch → Launch) : (s.modLaunch u f).measure = s.measure := rfl
@[simp] theorem State.modLaunch_cfgOk (s : State) (u : Nat) (f : Launch → Launch) : (s.modLaunch u f).cfgOk = s.cfgOk := rfl
@[simp] theorem State.modLaunch_cfgCount (s : State) (u : Nat) (f : Launch → Launch) : (s.modLaunch u f).cfgCount = s.cfgCount := rfl
@[simp] theorem State.modLaunch_viaRecovery (s : State) (u : Nat) (f : Launch → Launch) : (s.modLaunch u f).viaRecovery = s.viaRecovery := rfl

/-! ## `State.modCtx` -/

@[simp] theorem State.modCtx_sel (s : State) (u : Nat) (f : Context → Context) : (s.modCtx u f).sel = s.sel := rfl
@[simp] theorem State.modCtx_agenda (s : State) (u : Nat) (f : Context → Context) : (s.modCtx u f).agenda = s.agenda := rfl
@[simp] theorem State.modCtx_turn (s : State) (u : Nat) (f : Context → Context) : (s.modCtx u f).turn = s.turn := rfl
@[simp] theorem State.modCtx_issued (s : State) (u : Nat) (f : Context → Context) : (s.modCtx u f).issued = s.issued := rfl
@[simp] theorem State.modCtx_groups (s : State) (u : Nat) (f : Context → Context) : (s.modCtx u f).groups = s.groups := rfl
@[simp] theorem State.modCtx_teams (s : State) (u : Nat) (f : Context → Context) : (s.modCtx u f).teams = s.teams := rfl
@[simp] theorem State.modCtx_launches (s : State) (u : Nat) (f : Context → Context) : (s.modCtx u f).launches = s.launches := rfl
@[simp] theorem State.modCtx_contexts (s : State) (u : Nat) (f : Context → Context) : (s.modCtx u f).contexts = mapIf (fun x => x.asid == u) f s.contexts := rfl
@[simp] theorem State.modCtx_ops (s : State) (u : Nat) (f : Context → Context) : (s.modCtx u f).ops = s.ops := rfl
@[simp] theorem State.modCtx_gathers (s : State) (u : Nat) (f : Context → Context) : (s.modCtx u f).gathers = s.gathers := rfl
@[simp] theorem State.modCtx_nextId (s : State) (u : Nat) (f : Context → Context) : (s.modCtx u f).nextId = s.nextId := rfl
@[simp] theorem State.modCtx_free (s : State) (u : Nat) (f : Context → Context) : (s.modCtx u f).free = s.free := rfl
@[simp] theorem State.modCtx_mem (s : State) (u : Nat) (f : Context → Context) : (s.modCtx u f).mem = s.mem := rfl
@[simp] theorem State.modCtx_l1 (s : State) (u : Nat) (f : Context → Context) : (s.modCtx u f).l1 = s.l1 := rfl
@[simp] theorem State.modCtx_cc (s : State) (u : Nat) (f : Context → Context) : (s.modCtx u f).cc = s.cc := rfl
@[simp] theorem State.modCtx_l2 (s : State) (u : Nat) (f : Context → Context) : (s.modCtx u f).l2 = s.l2 := rfl
@[simp] theorem State.modCtx_lost (s : State) (u : Nat) (f : Context → Context) : (s.modCtx u f).lost = s.lost := rfl
@[simp] theorem State.modCtx_ways (s : State) (u : Nat) (f : Context → Context) : (s.modCtx u f).ways = s.ways := rfl
@[simp] theorem State.modCtx_retired (s : State) (u : Nat) (f : Context → Context) : (s.modCtx u f).retired = s.retired := rfl
@[simp] theorem State.modCtx_toRetire (s : State) (u : Nat) (f : Context → Context) : (s.modCtx u f).toRetire = s.toRetire := rfl
@[simp] theorem State.modCtx_tlb (s : State) (u : Nat) (f : Context → Context) : (s.modCtx u f).tlb = s.tlb := rfl
@[simp] theorem State.modCtx_walkReqs (s : State) (u : Nat) (f : Context → Context) : (s.modCtx u f).walkReqs = s.walkReqs := rfl
@[simp] theorem State.modCtx_lightReqs (s : State) (u : Nat) (f : Context → Context) : (s.modCtx u f).lightReqs = s.lightReqs := rfl
@[simp] theorem State.modCtx_absent (s : State) (u : Nat) (f : Context → Context) : (s.modCtx u f).absent = s.absent := rfl
@[simp] theorem State.modCtx_pats (s : State) (u : Nat) (f : Context → Context) : (s.modCtx u f).pats = s.pats := rfl
@[simp] theorem State.modCtx_updates (s : State) (u : Nat) (f : Context → Context) : (s.modCtx u f).updates = s.updates := rfl
@[simp] theorem State.modCtx_migrating (s : State) (u : Nat) (f : Context → Context) : (s.modCtx u f).migrating = s.migrating := rfl
@[simp] theorem State.modCtx_waiting (s : State) (u : Nat) (f : Context → Context) : (s.modCtx u f).waiting = s.waiting := rfl
@[simp] theorem State.modCtx_dists (s : State) (u : Nat) (f : Context → Context) : (s.modCtx u f).dists = s.dists := rfl
@[simp] theorem State.modCtx_pthr (s : State) (u : Nat) (f : Context → Context) : (s.modCtx u f).pthr = s.pthr := rfl
@[simp] theorem State.modCtx_wdsave (s : State) (u : Nat) (f : Context → Context) : (s.modCtx u f).wdsave = s.wdsave := rfl
@[simp] theorem State.modCtx_seals (s : State) (u : Nat) (f : Context → Context) : (s.modCtx u f).seals = s.seals := rfl
@[simp] theorem State.modCtx_refill (s : State) (u : Nat) (f : Context → Context) : (s.modCtx u f).refill = s.refill := rfl
@[simp] theorem State.modCtx_freed (s : State) (u : Nat) (f : Context → Context) : (s.modCtx u f).freed = s.freed := rfl
@[simp] theorem State.modCtx_ffring (s : State) (u : Nat) (f : Context → Context) : (s.modCtx u f).ffring = s.ffring := rfl
@[simp] theorem State.modCtx_devid (s : State) (u : Nat) (f : Context → Context) : (s.modCtx u f).devid = s.devid := rfl
@[simp] theorem State.modCtx_epoch (s : State) (u : Nat) (f : Context → Context) : (s.modCtx u f).epoch = s.epoch := rfl
@[simp] theorem State.modCtx_ports (s : State) (u : Nat) (f : Context → Context) : (s.modCtx u f).ports = s.ports := rfl
@[simp] theorem State.modCtx_routes (s : State) (u : Nat) (f : Context → Context) : (s.modCtx u f).routes = s.routes := rfl
@[simp] theorem State.modCtx_mcast (s : State) (u : Nat) (f : Context → Context) : (s.modCtx u f).mcast = s.mcast := rfl
@[simp] theorem State.modCtx_adth (s : State) (u : Nat) (f : Context → Context) : (s.modCtx u f).adth = s.adth := rfl
@[simp] theorem State.modCtx_tpod (s : State) (u : Nat) (f : Context → Context) : (s.modCtx u f).tpod = s.tpod := rfl
@[simp] theorem State.modCtx_linkUpAt (s : State) (u : Nat) (f : Context → Context) : (s.modCtx u f).linkUpAt = s.linkUpAt := rfl
@[simp] theorem State.modCtx_fabricOpen (s : State) (u : Nat) (f : Context → Context) : (s.modCtx u f).fabricOpen = s.fabricOpen := rfl
@[simp] theorem State.modCtx_rtx (s : State) (u : Nat) (f : Context → Context) : (s.modCtx u f).rtx = s.rtx := rfl
@[simp] theorem State.modCtx_outPkts (s : State) (u : Nat) (f : Context → Context) : (s.modCtx u f).outPkts = s.outPkts := rfl
@[simp] theorem State.modCtx_arrived (s : State) (u : Nat) (f : Context → Context) : (s.modCtx u f).arrived = s.arrived := rfl
@[simp] theorem State.modCtx_upset (s : State) (u : Nat) (f : Context → Context) : (s.modCtx u f).upset = s.upset := rfl
@[simp] theorem State.modCtx_mgmtHeld (s : State) (u : Nat) (f : Context → Context) : (s.modCtx u f).mgmtHeld = s.mgmtHeld := rfl
@[simp] theorem State.modCtx_ccache (s : State) (u : Nat) (f : Context → Context) : (s.modCtx u f).ccache = s.ccache := rfl
@[simp] theorem State.modCtx_atomNext (s : State) (u : Nat) (f : Context → Context) : (s.modCtx u f).atomNext = s.atomNext := rfl
@[simp] theorem State.modCtx_grants (s : State) (u : Nat) (f : Context → Context) : (s.modCtx u f).grants = s.grants := rfl
@[simp] theorem State.modCtx_flagsOut (s : State) (u : Nat) (f : Context → Context) : (s.modCtx u f).flagsOut = s.flagsOut := rfl
@[simp] theorem State.modCtx_flagsIn (s : State) (u : Nat) (f : Context → Context) : (s.modCtx u f).flagsIn = s.flagsIn := rfl
@[simp] theorem State.modCtx_held (s : State) (u : Nat) (f : Context → Context) : (s.modCtx u f).held = s.held := rfl
@[simp] theorem State.modCtx_served (s : State) (u : Nat) (f : Context → Context) : (s.modCtx u f).served = s.served := rfl
@[simp] theorem State.modCtx_inbox (s : State) (u : Nat) (f : Context → Context) : (s.modCtx u f).inbox = s.inbox := rfl
@[simp] theorem State.modCtx_rows (s : State) (u : Nat) (f : Context → Context) : (s.modCtx u f).rows = s.rows := rfl
@[simp] theorem State.modCtx_atomIn (s : State) (u : Nat) (f : Context → Context) : (s.modCtx u f).atomIn = s.atomIn := rfl
@[simp] theorem State.modCtx_heldAtoms (s : State) (u : Nat) (f : Context → Context) : (s.modCtx u f).heldAtoms = s.heldAtoms := rfl
@[simp] theorem State.modCtx_mcIn (s : State) (u : Nat) (f : Context → Context) : (s.modCtx u f).mcIn = s.mcIn := rfl
@[simp] theorem State.modCtx_descs (s : State) (u : Nat) (f : Context → Context) : (s.modCtx u f).descs = s.descs := rfl
@[simp] theorem State.modCtx_watches (s : State) (u : Nat) (f : Context → Context) : (s.modCtx u f).watches = s.watches := rfl
@[simp] theorem State.modCtx_advanced (s : State) (u : Nat) (f : Context → Context) : (s.modCtx u f).advanced = s.advanced := rfl
@[simp] theorem State.modCtx_barReads (s : State) (u : Nat) (f : Context → Context) : (s.modCtx u f).barReads = s.barReads := rfl
@[simp] theorem State.modCtx_ordinals (s : State) (u : Nat) (f : Context → Context) : (s.modCtx u f).ordinals = s.ordinals := rfl
@[simp] theorem State.modCtx_mbox (s : State) (u : Nat) (f : Context → Context) : (s.modCtx u f).mbox = s.mbox := rfl
@[simp] theorem State.modCtx_replies (s : State) (u : Nat) (f : Context → Context) : (s.modCtx u f).replies = s.replies := rfl
@[simp] theorem State.modCtx_doorbells (s : State) (u : Nat) (f : Context → Context) : (s.modCtx u f).doorbells = s.doorbells := rfl
@[simp] theorem State.modCtx_hostOut (s : State) (u : Nat) (f : Context → Context) : (s.modCtx u f).hostOut = s.hostOut := rfl
@[simp] theorem State.modCtx_hostReads (s : State) (u : Nat) (f : Context → Context) : (s.modCtx u f).hostReads = s.hostReads := rfl
@[simp] theorem State.modCtx_msixOpen (s : State) (u : Nat) (f : Context → Context) : (s.modCtx u f).msixOpen = s.msixOpen := rfl
@[simp] theorem State.modCtx_msixPend (s : State) (u : Nat) (f : Context → Context) : (s.modCtx u f).msixPend = s.msixPend := rfl
@[simp] theorem State.modCtx_aperture (s : State) (u : Nat) (f : Context → Context) : (s.modCtx u f).aperture = s.aperture := rfl
@[simp] theorem State.modCtx_bar2Bits (s : State) (u : Nat) (f : Context → Context) : (s.modCtx u f).bar2Bits = s.bar2Bits := rfl
@[simp] theorem State.modCtx_poisoned (s : State) (u : Nat) (f : Context → Context) : (s.modCtx u f).poisoned = s.poisoned := rfl
@[simp] theorem State.modCtx_counters (s : State) (u : Nat) (f : Context → Context) : (s.modCtx u f).counters = s.counters := rfl
@[simp] theorem State.modCtx_die0 (s : State) (u : Nat) (f : Context → Context) : (s.modCtx u f).die0 = s.die0 := rfl
@[simp] theorem State.modCtx_die1 (s : State) (u : Nat) (f : Context → Context) : (s.modCtx u f).die1 = s.die1 := rfl
@[simp] theorem State.modCtx_timeNs (s : State) (u : Nat) (f : Context → Context) : (s.modCtx u f).timeNs = s.timeNs := rfl
@[simp] theorem State.modCtx_pwr (s : State) (u : Nat) (f : Context → Context) : (s.modCtx u f).pwr = s.pwr := rfl
@[simp] theorem State.modCtx_limitW (s : State) (u : Nat) (f : Context → Context) : (s.modCtx u f).limitW = s.limitW := rfl
@[simp] theorem State.modCtx_tempUmber (s : State) (u : Nat) (f : Context → Context) : (s.modCtx u f).tempUmber = s.tempUmber := rfl
@[simp] theorem State.modCtx_tempHbm (s : State) (u : Nat) (f : Context → Context) : (s.modCtx u f).tempHbm = s.tempHbm := rfl
@[simp] theorem State.modCtx_boot (s : State) (u : Nat) (f : Context → Context) : (s.modCtx u f).boot = s.boot := rfl
@[simp] theorem State.modCtx_svn (s : State) (u : Nat) (f : Context → Context) : (s.modCtx u f).svn = s.svn := rfl
@[simp] theorem State.modCtx_floor (s : State) (u : Nat) (f : Context → Context) : (s.modCtx u f).floor = s.floor := rfl
@[simp] theorem State.modCtx_flash (s : State) (u : Nat) (f : Context → Context) : (s.modCtx u f).flash = s.flash := rfl
@[simp] theorem State.modCtx_cfgRec (s : State) (u : Nat) (f : Context → Context) : (s.modCtx u f).cfgRec = s.cfgRec := rfl
@[simp] theorem State.modCtx_recWin (s : State) (u : Nat) (f : Context → Context) : (s.modCtx u f).recWin = s.recWin := rfl
@[simp] theorem State.modCtx_measure (s : State) (u : Nat) (f : Context → Context) : (s.modCtx u f).measure = s.measure := rfl
@[simp] theorem State.modCtx_cfgOk (s : State) (u : Nat) (f : Context → Context) : (s.modCtx u f).cfgOk = s.cfgOk := rfl
@[simp] theorem State.modCtx_cfgCount (s : State) (u : Nat) (f : Context → Context) : (s.modCtx u f).cfgCount = s.cfgCount := rfl
@[simp] theorem State.modCtx_viaRecovery (s : State) (u : Nat) (f : Context → Context) : (s.modCtx u f).viaRecovery = s.viaRecovery := rfl

/-! ## `State.modOp` -/

@[simp] theorem State.modOp_sel (s : State) (u : Nat) (f : Op → Op) : (s.modOp u f).sel = s.sel := rfl
@[simp] theorem State.modOp_agenda (s : State) (u : Nat) (f : Op → Op) : (s.modOp u f).agenda = s.agenda := rfl
@[simp] theorem State.modOp_turn (s : State) (u : Nat) (f : Op → Op) : (s.modOp u f).turn = s.turn := rfl
@[simp] theorem State.modOp_issued (s : State) (u : Nat) (f : Op → Op) : (s.modOp u f).issued = s.issued := rfl
@[simp] theorem State.modOp_groups (s : State) (u : Nat) (f : Op → Op) : (s.modOp u f).groups = s.groups := rfl
@[simp] theorem State.modOp_teams (s : State) (u : Nat) (f : Op → Op) : (s.modOp u f).teams = s.teams := rfl
@[simp] theorem State.modOp_launches (s : State) (u : Nat) (f : Op → Op) : (s.modOp u f).launches = s.launches := rfl
@[simp] theorem State.modOp_contexts (s : State) (u : Nat) (f : Op → Op) : (s.modOp u f).contexts = s.contexts := rfl
@[simp] theorem State.modOp_ops (s : State) (u : Nat) (f : Op → Op) : (s.modOp u f).ops = mapIf (fun x => x.id == u) f s.ops := rfl
@[simp] theorem State.modOp_gathers (s : State) (u : Nat) (f : Op → Op) : (s.modOp u f).gathers = s.gathers := rfl
@[simp] theorem State.modOp_nextId (s : State) (u : Nat) (f : Op → Op) : (s.modOp u f).nextId = s.nextId := rfl
@[simp] theorem State.modOp_free (s : State) (u : Nat) (f : Op → Op) : (s.modOp u f).free = s.free := rfl
@[simp] theorem State.modOp_mem (s : State) (u : Nat) (f : Op → Op) : (s.modOp u f).mem = s.mem := rfl
@[simp] theorem State.modOp_l1 (s : State) (u : Nat) (f : Op → Op) : (s.modOp u f).l1 = s.l1 := rfl
@[simp] theorem State.modOp_cc (s : State) (u : Nat) (f : Op → Op) : (s.modOp u f).cc = s.cc := rfl
@[simp] theorem State.modOp_l2 (s : State) (u : Nat) (f : Op → Op) : (s.modOp u f).l2 = s.l2 := rfl
@[simp] theorem State.modOp_lost (s : State) (u : Nat) (f : Op → Op) : (s.modOp u f).lost = s.lost := rfl
@[simp] theorem State.modOp_ways (s : State) (u : Nat) (f : Op → Op) : (s.modOp u f).ways = s.ways := rfl
@[simp] theorem State.modOp_retired (s : State) (u : Nat) (f : Op → Op) : (s.modOp u f).retired = s.retired := rfl
@[simp] theorem State.modOp_toRetire (s : State) (u : Nat) (f : Op → Op) : (s.modOp u f).toRetire = s.toRetire := rfl
@[simp] theorem State.modOp_tlb (s : State) (u : Nat) (f : Op → Op) : (s.modOp u f).tlb = s.tlb := rfl
@[simp] theorem State.modOp_walkReqs (s : State) (u : Nat) (f : Op → Op) : (s.modOp u f).walkReqs = s.walkReqs := rfl
@[simp] theorem State.modOp_lightReqs (s : State) (u : Nat) (f : Op → Op) : (s.modOp u f).lightReqs = s.lightReqs := rfl
@[simp] theorem State.modOp_absent (s : State) (u : Nat) (f : Op → Op) : (s.modOp u f).absent = s.absent := rfl
@[simp] theorem State.modOp_pats (s : State) (u : Nat) (f : Op → Op) : (s.modOp u f).pats = s.pats := rfl
@[simp] theorem State.modOp_updates (s : State) (u : Nat) (f : Op → Op) : (s.modOp u f).updates = s.updates := rfl
@[simp] theorem State.modOp_migrating (s : State) (u : Nat) (f : Op → Op) : (s.modOp u f).migrating = s.migrating := rfl
@[simp] theorem State.modOp_waiting (s : State) (u : Nat) (f : Op → Op) : (s.modOp u f).waiting = s.waiting := rfl
@[simp] theorem State.modOp_dists (s : State) (u : Nat) (f : Op → Op) : (s.modOp u f).dists = s.dists := rfl
@[simp] theorem State.modOp_pthr (s : State) (u : Nat) (f : Op → Op) : (s.modOp u f).pthr = s.pthr := rfl
@[simp] theorem State.modOp_wdsave (s : State) (u : Nat) (f : Op → Op) : (s.modOp u f).wdsave = s.wdsave := rfl
@[simp] theorem State.modOp_seals (s : State) (u : Nat) (f : Op → Op) : (s.modOp u f).seals = s.seals := rfl
@[simp] theorem State.modOp_refill (s : State) (u : Nat) (f : Op → Op) : (s.modOp u f).refill = s.refill := rfl
@[simp] theorem State.modOp_freed (s : State) (u : Nat) (f : Op → Op) : (s.modOp u f).freed = s.freed := rfl
@[simp] theorem State.modOp_ffring (s : State) (u : Nat) (f : Op → Op) : (s.modOp u f).ffring = s.ffring := rfl
@[simp] theorem State.modOp_devid (s : State) (u : Nat) (f : Op → Op) : (s.modOp u f).devid = s.devid := rfl
@[simp] theorem State.modOp_epoch (s : State) (u : Nat) (f : Op → Op) : (s.modOp u f).epoch = s.epoch := rfl
@[simp] theorem State.modOp_ports (s : State) (u : Nat) (f : Op → Op) : (s.modOp u f).ports = s.ports := rfl
@[simp] theorem State.modOp_routes (s : State) (u : Nat) (f : Op → Op) : (s.modOp u f).routes = s.routes := rfl
@[simp] theorem State.modOp_mcast (s : State) (u : Nat) (f : Op → Op) : (s.modOp u f).mcast = s.mcast := rfl
@[simp] theorem State.modOp_adth (s : State) (u : Nat) (f : Op → Op) : (s.modOp u f).adth = s.adth := rfl
@[simp] theorem State.modOp_tpod (s : State) (u : Nat) (f : Op → Op) : (s.modOp u f).tpod = s.tpod := rfl
@[simp] theorem State.modOp_linkUpAt (s : State) (u : Nat) (f : Op → Op) : (s.modOp u f).linkUpAt = s.linkUpAt := rfl
@[simp] theorem State.modOp_fabricOpen (s : State) (u : Nat) (f : Op → Op) : (s.modOp u f).fabricOpen = s.fabricOpen := rfl
@[simp] theorem State.modOp_rtx (s : State) (u : Nat) (f : Op → Op) : (s.modOp u f).rtx = s.rtx := rfl
@[simp] theorem State.modOp_outPkts (s : State) (u : Nat) (f : Op → Op) : (s.modOp u f).outPkts = s.outPkts := rfl
@[simp] theorem State.modOp_arrived (s : State) (u : Nat) (f : Op → Op) : (s.modOp u f).arrived = s.arrived := rfl
@[simp] theorem State.modOp_upset (s : State) (u : Nat) (f : Op → Op) : (s.modOp u f).upset = s.upset := rfl
@[simp] theorem State.modOp_mgmtHeld (s : State) (u : Nat) (f : Op → Op) : (s.modOp u f).mgmtHeld = s.mgmtHeld := rfl
@[simp] theorem State.modOp_ccache (s : State) (u : Nat) (f : Op → Op) : (s.modOp u f).ccache = s.ccache := rfl
@[simp] theorem State.modOp_atomNext (s : State) (u : Nat) (f : Op → Op) : (s.modOp u f).atomNext = s.atomNext := rfl
@[simp] theorem State.modOp_grants (s : State) (u : Nat) (f : Op → Op) : (s.modOp u f).grants = s.grants := rfl
@[simp] theorem State.modOp_flagsOut (s : State) (u : Nat) (f : Op → Op) : (s.modOp u f).flagsOut = s.flagsOut := rfl
@[simp] theorem State.modOp_flagsIn (s : State) (u : Nat) (f : Op → Op) : (s.modOp u f).flagsIn = s.flagsIn := rfl
@[simp] theorem State.modOp_held (s : State) (u : Nat) (f : Op → Op) : (s.modOp u f).held = s.held := rfl
@[simp] theorem State.modOp_served (s : State) (u : Nat) (f : Op → Op) : (s.modOp u f).served = s.served := rfl
@[simp] theorem State.modOp_inbox (s : State) (u : Nat) (f : Op → Op) : (s.modOp u f).inbox = s.inbox := rfl
@[simp] theorem State.modOp_rows (s : State) (u : Nat) (f : Op → Op) : (s.modOp u f).rows = s.rows := rfl
@[simp] theorem State.modOp_atomIn (s : State) (u : Nat) (f : Op → Op) : (s.modOp u f).atomIn = s.atomIn := rfl
@[simp] theorem State.modOp_heldAtoms (s : State) (u : Nat) (f : Op → Op) : (s.modOp u f).heldAtoms = s.heldAtoms := rfl
@[simp] theorem State.modOp_mcIn (s : State) (u : Nat) (f : Op → Op) : (s.modOp u f).mcIn = s.mcIn := rfl
@[simp] theorem State.modOp_descs (s : State) (u : Nat) (f : Op → Op) : (s.modOp u f).descs = s.descs := rfl
@[simp] theorem State.modOp_watches (s : State) (u : Nat) (f : Op → Op) : (s.modOp u f).watches = s.watches := rfl
@[simp] theorem State.modOp_advanced (s : State) (u : Nat) (f : Op → Op) : (s.modOp u f).advanced = s.advanced := rfl
@[simp] theorem State.modOp_barReads (s : State) (u : Nat) (f : Op → Op) : (s.modOp u f).barReads = s.barReads := rfl
@[simp] theorem State.modOp_ordinals (s : State) (u : Nat) (f : Op → Op) : (s.modOp u f).ordinals = s.ordinals := rfl
@[simp] theorem State.modOp_mbox (s : State) (u : Nat) (f : Op → Op) : (s.modOp u f).mbox = s.mbox := rfl
@[simp] theorem State.modOp_replies (s : State) (u : Nat) (f : Op → Op) : (s.modOp u f).replies = s.replies := rfl
@[simp] theorem State.modOp_doorbells (s : State) (u : Nat) (f : Op → Op) : (s.modOp u f).doorbells = s.doorbells := rfl
@[simp] theorem State.modOp_hostOut (s : State) (u : Nat) (f : Op → Op) : (s.modOp u f).hostOut = s.hostOut := rfl
@[simp] theorem State.modOp_hostReads (s : State) (u : Nat) (f : Op → Op) : (s.modOp u f).hostReads = s.hostReads := rfl
@[simp] theorem State.modOp_msixOpen (s : State) (u : Nat) (f : Op → Op) : (s.modOp u f).msixOpen = s.msixOpen := rfl
@[simp] theorem State.modOp_msixPend (s : State) (u : Nat) (f : Op → Op) : (s.modOp u f).msixPend = s.msixPend := rfl
@[simp] theorem State.modOp_aperture (s : State) (u : Nat) (f : Op → Op) : (s.modOp u f).aperture = s.aperture := rfl
@[simp] theorem State.modOp_bar2Bits (s : State) (u : Nat) (f : Op → Op) : (s.modOp u f).bar2Bits = s.bar2Bits := rfl
@[simp] theorem State.modOp_poisoned (s : State) (u : Nat) (f : Op → Op) : (s.modOp u f).poisoned = s.poisoned := rfl
@[simp] theorem State.modOp_counters (s : State) (u : Nat) (f : Op → Op) : (s.modOp u f).counters = s.counters := rfl
@[simp] theorem State.modOp_die0 (s : State) (u : Nat) (f : Op → Op) : (s.modOp u f).die0 = s.die0 := rfl
@[simp] theorem State.modOp_die1 (s : State) (u : Nat) (f : Op → Op) : (s.modOp u f).die1 = s.die1 := rfl
@[simp] theorem State.modOp_timeNs (s : State) (u : Nat) (f : Op → Op) : (s.modOp u f).timeNs = s.timeNs := rfl
@[simp] theorem State.modOp_pwr (s : State) (u : Nat) (f : Op → Op) : (s.modOp u f).pwr = s.pwr := rfl
@[simp] theorem State.modOp_limitW (s : State) (u : Nat) (f : Op → Op) : (s.modOp u f).limitW = s.limitW := rfl
@[simp] theorem State.modOp_tempUmber (s : State) (u : Nat) (f : Op → Op) : (s.modOp u f).tempUmber = s.tempUmber := rfl
@[simp] theorem State.modOp_tempHbm (s : State) (u : Nat) (f : Op → Op) : (s.modOp u f).tempHbm = s.tempHbm := rfl
@[simp] theorem State.modOp_boot (s : State) (u : Nat) (f : Op → Op) : (s.modOp u f).boot = s.boot := rfl
@[simp] theorem State.modOp_svn (s : State) (u : Nat) (f : Op → Op) : (s.modOp u f).svn = s.svn := rfl
@[simp] theorem State.modOp_floor (s : State) (u : Nat) (f : Op → Op) : (s.modOp u f).floor = s.floor := rfl
@[simp] theorem State.modOp_flash (s : State) (u : Nat) (f : Op → Op) : (s.modOp u f).flash = s.flash := rfl
@[simp] theorem State.modOp_cfgRec (s : State) (u : Nat) (f : Op → Op) : (s.modOp u f).cfgRec = s.cfgRec := rfl
@[simp] theorem State.modOp_recWin (s : State) (u : Nat) (f : Op → Op) : (s.modOp u f).recWin = s.recWin := rfl
@[simp] theorem State.modOp_measure (s : State) (u : Nat) (f : Op → Op) : (s.modOp u f).measure = s.measure := rfl
@[simp] theorem State.modOp_cfgOk (s : State) (u : Nat) (f : Op → Op) : (s.modOp u f).cfgOk = s.cfgOk := rfl
@[simp] theorem State.modOp_cfgCount (s : State) (u : Nat) (f : Op → Op) : (s.modOp u f).cfgCount = s.cfgCount := rfl
@[simp] theorem State.modOp_viaRecovery (s : State) (u : Nat) (f : Op → Op) : (s.modOp u f).viaRecovery = s.viaRecovery := rfl

/-! ## `State.modGather` -/

@[simp] theorem State.modGather_sel (s : State) (u : Nat) (f : Gather → Gather) : (s.modGather u f).sel = s.sel := rfl
@[simp] theorem State.modGather_agenda (s : State) (u : Nat) (f : Gather → Gather) : (s.modGather u f).agenda = s.agenda := rfl
@[simp] theorem State.modGather_turn (s : State) (u : Nat) (f : Gather → Gather) : (s.modGather u f).turn = s.turn := rfl
@[simp] theorem State.modGather_issued (s : State) (u : Nat) (f : Gather → Gather) : (s.modGather u f).issued = s.issued := rfl
@[simp] theorem State.modGather_groups (s : State) (u : Nat) (f : Gather → Gather) : (s.modGather u f).groups = s.groups := rfl
@[simp] theorem State.modGather_teams (s : State) (u : Nat) (f : Gather → Gather) : (s.modGather u f).teams = s.teams := rfl
@[simp] theorem State.modGather_launches (s : State) (u : Nat) (f : Gather → Gather) : (s.modGather u f).launches = s.launches := rfl
@[simp] theorem State.modGather_contexts (s : State) (u : Nat) (f : Gather → Gather) : (s.modGather u f).contexts = s.contexts := rfl
@[simp] theorem State.modGather_ops (s : State) (u : Nat) (f : Gather → Gather) : (s.modGather u f).ops = s.ops := rfl
@[simp] theorem State.modGather_gathers (s : State) (u : Nat) (f : Gather → Gather) : (s.modGather u f).gathers = mapIf (fun x => x.id == u) f s.gathers := rfl
@[simp] theorem State.modGather_nextId (s : State) (u : Nat) (f : Gather → Gather) : (s.modGather u f).nextId = s.nextId := rfl
@[simp] theorem State.modGather_free (s : State) (u : Nat) (f : Gather → Gather) : (s.modGather u f).free = s.free := rfl
@[simp] theorem State.modGather_mem (s : State) (u : Nat) (f : Gather → Gather) : (s.modGather u f).mem = s.mem := rfl
@[simp] theorem State.modGather_l1 (s : State) (u : Nat) (f : Gather → Gather) : (s.modGather u f).l1 = s.l1 := rfl
@[simp] theorem State.modGather_cc (s : State) (u : Nat) (f : Gather → Gather) : (s.modGather u f).cc = s.cc := rfl
@[simp] theorem State.modGather_l2 (s : State) (u : Nat) (f : Gather → Gather) : (s.modGather u f).l2 = s.l2 := rfl
@[simp] theorem State.modGather_lost (s : State) (u : Nat) (f : Gather → Gather) : (s.modGather u f).lost = s.lost := rfl
@[simp] theorem State.modGather_ways (s : State) (u : Nat) (f : Gather → Gather) : (s.modGather u f).ways = s.ways := rfl
@[simp] theorem State.modGather_retired (s : State) (u : Nat) (f : Gather → Gather) : (s.modGather u f).retired = s.retired := rfl
@[simp] theorem State.modGather_toRetire (s : State) (u : Nat) (f : Gather → Gather) : (s.modGather u f).toRetire = s.toRetire := rfl
@[simp] theorem State.modGather_tlb (s : State) (u : Nat) (f : Gather → Gather) : (s.modGather u f).tlb = s.tlb := rfl
@[simp] theorem State.modGather_walkReqs (s : State) (u : Nat) (f : Gather → Gather) : (s.modGather u f).walkReqs = s.walkReqs := rfl
@[simp] theorem State.modGather_lightReqs (s : State) (u : Nat) (f : Gather → Gather) : (s.modGather u f).lightReqs = s.lightReqs := rfl
@[simp] theorem State.modGather_absent (s : State) (u : Nat) (f : Gather → Gather) : (s.modGather u f).absent = s.absent := rfl
@[simp] theorem State.modGather_pats (s : State) (u : Nat) (f : Gather → Gather) : (s.modGather u f).pats = s.pats := rfl
@[simp] theorem State.modGather_updates (s : State) (u : Nat) (f : Gather → Gather) : (s.modGather u f).updates = s.updates := rfl
@[simp] theorem State.modGather_migrating (s : State) (u : Nat) (f : Gather → Gather) : (s.modGather u f).migrating = s.migrating := rfl
@[simp] theorem State.modGather_waiting (s : State) (u : Nat) (f : Gather → Gather) : (s.modGather u f).waiting = s.waiting := rfl
@[simp] theorem State.modGather_dists (s : State) (u : Nat) (f : Gather → Gather) : (s.modGather u f).dists = s.dists := rfl
@[simp] theorem State.modGather_pthr (s : State) (u : Nat) (f : Gather → Gather) : (s.modGather u f).pthr = s.pthr := rfl
@[simp] theorem State.modGather_wdsave (s : State) (u : Nat) (f : Gather → Gather) : (s.modGather u f).wdsave = s.wdsave := rfl
@[simp] theorem State.modGather_seals (s : State) (u : Nat) (f : Gather → Gather) : (s.modGather u f).seals = s.seals := rfl
@[simp] theorem State.modGather_refill (s : State) (u : Nat) (f : Gather → Gather) : (s.modGather u f).refill = s.refill := rfl
@[simp] theorem State.modGather_freed (s : State) (u : Nat) (f : Gather → Gather) : (s.modGather u f).freed = s.freed := rfl
@[simp] theorem State.modGather_ffring (s : State) (u : Nat) (f : Gather → Gather) : (s.modGather u f).ffring = s.ffring := rfl
@[simp] theorem State.modGather_devid (s : State) (u : Nat) (f : Gather → Gather) : (s.modGather u f).devid = s.devid := rfl
@[simp] theorem State.modGather_epoch (s : State) (u : Nat) (f : Gather → Gather) : (s.modGather u f).epoch = s.epoch := rfl
@[simp] theorem State.modGather_ports (s : State) (u : Nat) (f : Gather → Gather) : (s.modGather u f).ports = s.ports := rfl
@[simp] theorem State.modGather_routes (s : State) (u : Nat) (f : Gather → Gather) : (s.modGather u f).routes = s.routes := rfl
@[simp] theorem State.modGather_mcast (s : State) (u : Nat) (f : Gather → Gather) : (s.modGather u f).mcast = s.mcast := rfl
@[simp] theorem State.modGather_adth (s : State) (u : Nat) (f : Gather → Gather) : (s.modGather u f).adth = s.adth := rfl
@[simp] theorem State.modGather_tpod (s : State) (u : Nat) (f : Gather → Gather) : (s.modGather u f).tpod = s.tpod := rfl
@[simp] theorem State.modGather_linkUpAt (s : State) (u : Nat) (f : Gather → Gather) : (s.modGather u f).linkUpAt = s.linkUpAt := rfl
@[simp] theorem State.modGather_fabricOpen (s : State) (u : Nat) (f : Gather → Gather) : (s.modGather u f).fabricOpen = s.fabricOpen := rfl
@[simp] theorem State.modGather_rtx (s : State) (u : Nat) (f : Gather → Gather) : (s.modGather u f).rtx = s.rtx := rfl
@[simp] theorem State.modGather_outPkts (s : State) (u : Nat) (f : Gather → Gather) : (s.modGather u f).outPkts = s.outPkts := rfl
@[simp] theorem State.modGather_arrived (s : State) (u : Nat) (f : Gather → Gather) : (s.modGather u f).arrived = s.arrived := rfl
@[simp] theorem State.modGather_upset (s : State) (u : Nat) (f : Gather → Gather) : (s.modGather u f).upset = s.upset := rfl
@[simp] theorem State.modGather_mgmtHeld (s : State) (u : Nat) (f : Gather → Gather) : (s.modGather u f).mgmtHeld = s.mgmtHeld := rfl
@[simp] theorem State.modGather_ccache (s : State) (u : Nat) (f : Gather → Gather) : (s.modGather u f).ccache = s.ccache := rfl
@[simp] theorem State.modGather_atomNext (s : State) (u : Nat) (f : Gather → Gather) : (s.modGather u f).atomNext = s.atomNext := rfl
@[simp] theorem State.modGather_grants (s : State) (u : Nat) (f : Gather → Gather) : (s.modGather u f).grants = s.grants := rfl
@[simp] theorem State.modGather_flagsOut (s : State) (u : Nat) (f : Gather → Gather) : (s.modGather u f).flagsOut = s.flagsOut := rfl
@[simp] theorem State.modGather_flagsIn (s : State) (u : Nat) (f : Gather → Gather) : (s.modGather u f).flagsIn = s.flagsIn := rfl
@[simp] theorem State.modGather_held (s : State) (u : Nat) (f : Gather → Gather) : (s.modGather u f).held = s.held := rfl
@[simp] theorem State.modGather_served (s : State) (u : Nat) (f : Gather → Gather) : (s.modGather u f).served = s.served := rfl
@[simp] theorem State.modGather_inbox (s : State) (u : Nat) (f : Gather → Gather) : (s.modGather u f).inbox = s.inbox := rfl
@[simp] theorem State.modGather_rows (s : State) (u : Nat) (f : Gather → Gather) : (s.modGather u f).rows = s.rows := rfl
@[simp] theorem State.modGather_atomIn (s : State) (u : Nat) (f : Gather → Gather) : (s.modGather u f).atomIn = s.atomIn := rfl
@[simp] theorem State.modGather_heldAtoms (s : State) (u : Nat) (f : Gather → Gather) : (s.modGather u f).heldAtoms = s.heldAtoms := rfl
@[simp] theorem State.modGather_mcIn (s : State) (u : Nat) (f : Gather → Gather) : (s.modGather u f).mcIn = s.mcIn := rfl
@[simp] theorem State.modGather_descs (s : State) (u : Nat) (f : Gather → Gather) : (s.modGather u f).descs = s.descs := rfl
@[simp] theorem State.modGather_watches (s : State) (u : Nat) (f : Gather → Gather) : (s.modGather u f).watches = s.watches := rfl
@[simp] theorem State.modGather_advanced (s : State) (u : Nat) (f : Gather → Gather) : (s.modGather u f).advanced = s.advanced := rfl
@[simp] theorem State.modGather_barReads (s : State) (u : Nat) (f : Gather → Gather) : (s.modGather u f).barReads = s.barReads := rfl
@[simp] theorem State.modGather_ordinals (s : State) (u : Nat) (f : Gather → Gather) : (s.modGather u f).ordinals = s.ordinals := rfl
@[simp] theorem State.modGather_mbox (s : State) (u : Nat) (f : Gather → Gather) : (s.modGather u f).mbox = s.mbox := rfl
@[simp] theorem State.modGather_replies (s : State) (u : Nat) (f : Gather → Gather) : (s.modGather u f).replies = s.replies := rfl
@[simp] theorem State.modGather_doorbells (s : State) (u : Nat) (f : Gather → Gather) : (s.modGather u f).doorbells = s.doorbells := rfl
@[simp] theorem State.modGather_hostOut (s : State) (u : Nat) (f : Gather → Gather) : (s.modGather u f).hostOut = s.hostOut := rfl
@[simp] theorem State.modGather_hostReads (s : State) (u : Nat) (f : Gather → Gather) : (s.modGather u f).hostReads = s.hostReads := rfl
@[simp] theorem State.modGather_msixOpen (s : State) (u : Nat) (f : Gather → Gather) : (s.modGather u f).msixOpen = s.msixOpen := rfl
@[simp] theorem State.modGather_msixPend (s : State) (u : Nat) (f : Gather → Gather) : (s.modGather u f).msixPend = s.msixPend := rfl
@[simp] theorem State.modGather_aperture (s : State) (u : Nat) (f : Gather → Gather) : (s.modGather u f).aperture = s.aperture := rfl
@[simp] theorem State.modGather_bar2Bits (s : State) (u : Nat) (f : Gather → Gather) : (s.modGather u f).bar2Bits = s.bar2Bits := rfl
@[simp] theorem State.modGather_poisoned (s : State) (u : Nat) (f : Gather → Gather) : (s.modGather u f).poisoned = s.poisoned := rfl
@[simp] theorem State.modGather_counters (s : State) (u : Nat) (f : Gather → Gather) : (s.modGather u f).counters = s.counters := rfl
@[simp] theorem State.modGather_die0 (s : State) (u : Nat) (f : Gather → Gather) : (s.modGather u f).die0 = s.die0 := rfl
@[simp] theorem State.modGather_die1 (s : State) (u : Nat) (f : Gather → Gather) : (s.modGather u f).die1 = s.die1 := rfl
@[simp] theorem State.modGather_timeNs (s : State) (u : Nat) (f : Gather → Gather) : (s.modGather u f).timeNs = s.timeNs := rfl
@[simp] theorem State.modGather_pwr (s : State) (u : Nat) (f : Gather → Gather) : (s.modGather u f).pwr = s.pwr := rfl
@[simp] theorem State.modGather_limitW (s : State) (u : Nat) (f : Gather → Gather) : (s.modGather u f).limitW = s.limitW := rfl
@[simp] theorem State.modGather_tempUmber (s : State) (u : Nat) (f : Gather → Gather) : (s.modGather u f).tempUmber = s.tempUmber := rfl
@[simp] theorem State.modGather_tempHbm (s : State) (u : Nat) (f : Gather → Gather) : (s.modGather u f).tempHbm = s.tempHbm := rfl
@[simp] theorem State.modGather_boot (s : State) (u : Nat) (f : Gather → Gather) : (s.modGather u f).boot = s.boot := rfl
@[simp] theorem State.modGather_svn (s : State) (u : Nat) (f : Gather → Gather) : (s.modGather u f).svn = s.svn := rfl
@[simp] theorem State.modGather_floor (s : State) (u : Nat) (f : Gather → Gather) : (s.modGather u f).floor = s.floor := rfl
@[simp] theorem State.modGather_flash (s : State) (u : Nat) (f : Gather → Gather) : (s.modGather u f).flash = s.flash := rfl
@[simp] theorem State.modGather_cfgRec (s : State) (u : Nat) (f : Gather → Gather) : (s.modGather u f).cfgRec = s.cfgRec := rfl
@[simp] theorem State.modGather_recWin (s : State) (u : Nat) (f : Gather → Gather) : (s.modGather u f).recWin = s.recWin := rfl
@[simp] theorem State.modGather_measure (s : State) (u : Nat) (f : Gather → Gather) : (s.modGather u f).measure = s.measure := rfl
@[simp] theorem State.modGather_cfgOk (s : State) (u : Nat) (f : Gather → Gather) : (s.modGather u f).cfgOk = s.cfgOk := rfl
@[simp] theorem State.modGather_cfgCount (s : State) (u : Nat) (f : Gather → Gather) : (s.modGather u f).cfgCount = s.cfgCount := rfl
@[simp] theorem State.modGather_viaRecovery (s : State) (u : Nat) (f : Gather → Gather) : (s.modGather u f).viaRecovery = s.viaRecovery := rfl

/-! ## `State.bump` -/

@[simp] theorem State.bump_sel (s : State) : (s.bump).sel = s.sel := rfl
@[simp] theorem State.bump_agenda (s : State) : (s.bump).agenda = s.agenda := rfl
@[simp] theorem State.bump_turn (s : State) : (s.bump).turn = s.turn := rfl
@[simp] theorem State.bump_issued (s : State) : (s.bump).issued = s.issued := rfl
@[simp] theorem State.bump_groups (s : State) : (s.bump).groups = s.groups := rfl
@[simp] theorem State.bump_teams (s : State) : (s.bump).teams = s.teams := rfl
@[simp] theorem State.bump_launches (s : State) : (s.bump).launches = s.launches := rfl
@[simp] theorem State.bump_contexts (s : State) : (s.bump).contexts = s.contexts := rfl
@[simp] theorem State.bump_ops (s : State) : (s.bump).ops = s.ops := rfl
@[simp] theorem State.bump_gathers (s : State) : (s.bump).gathers = s.gathers := rfl
@[simp] theorem State.bump_nextId (s : State) : (s.bump).nextId = s.nextId + 1 := rfl
@[simp] theorem State.bump_free (s : State) : (s.bump).free = s.free := rfl
@[simp] theorem State.bump_mem (s : State) : (s.bump).mem = s.mem := rfl
@[simp] theorem State.bump_l1 (s : State) : (s.bump).l1 = s.l1 := rfl
@[simp] theorem State.bump_cc (s : State) : (s.bump).cc = s.cc := rfl
@[simp] theorem State.bump_l2 (s : State) : (s.bump).l2 = s.l2 := rfl
@[simp] theorem State.bump_lost (s : State) : (s.bump).lost = s.lost := rfl
@[simp] theorem State.bump_ways (s : State) : (s.bump).ways = s.ways := rfl
@[simp] theorem State.bump_retired (s : State) : (s.bump).retired = s.retired := rfl
@[simp] theorem State.bump_toRetire (s : State) : (s.bump).toRetire = s.toRetire := rfl
@[simp] theorem State.bump_tlb (s : State) : (s.bump).tlb = s.tlb := rfl
@[simp] theorem State.bump_walkReqs (s : State) : (s.bump).walkReqs = s.walkReqs := rfl
@[simp] theorem State.bump_lightReqs (s : State) : (s.bump).lightReqs = s.lightReqs := rfl
@[simp] theorem State.bump_absent (s : State) : (s.bump).absent = s.absent := rfl
@[simp] theorem State.bump_pats (s : State) : (s.bump).pats = s.pats := rfl
@[simp] theorem State.bump_updates (s : State) : (s.bump).updates = s.updates := rfl
@[simp] theorem State.bump_migrating (s : State) : (s.bump).migrating = s.migrating := rfl
@[simp] theorem State.bump_waiting (s : State) : (s.bump).waiting = s.waiting := rfl
@[simp] theorem State.bump_dists (s : State) : (s.bump).dists = s.dists := rfl
@[simp] theorem State.bump_pthr (s : State) : (s.bump).pthr = s.pthr := rfl
@[simp] theorem State.bump_wdsave (s : State) : (s.bump).wdsave = s.wdsave := rfl
@[simp] theorem State.bump_seals (s : State) : (s.bump).seals = s.seals := rfl
@[simp] theorem State.bump_refill (s : State) : (s.bump).refill = s.refill := rfl
@[simp] theorem State.bump_freed (s : State) : (s.bump).freed = s.freed := rfl
@[simp] theorem State.bump_ffring (s : State) : (s.bump).ffring = s.ffring := rfl
@[simp] theorem State.bump_devid (s : State) : (s.bump).devid = s.devid := rfl
@[simp] theorem State.bump_epoch (s : State) : (s.bump).epoch = s.epoch := rfl
@[simp] theorem State.bump_ports (s : State) : (s.bump).ports = s.ports := rfl
@[simp] theorem State.bump_routes (s : State) : (s.bump).routes = s.routes := rfl
@[simp] theorem State.bump_mcast (s : State) : (s.bump).mcast = s.mcast := rfl
@[simp] theorem State.bump_adth (s : State) : (s.bump).adth = s.adth := rfl
@[simp] theorem State.bump_tpod (s : State) : (s.bump).tpod = s.tpod := rfl
@[simp] theorem State.bump_linkUpAt (s : State) : (s.bump).linkUpAt = s.linkUpAt := rfl
@[simp] theorem State.bump_fabricOpen (s : State) : (s.bump).fabricOpen = s.fabricOpen := rfl
@[simp] theorem State.bump_rtx (s : State) : (s.bump).rtx = s.rtx := rfl
@[simp] theorem State.bump_outPkts (s : State) : (s.bump).outPkts = s.outPkts := rfl
@[simp] theorem State.bump_arrived (s : State) : (s.bump).arrived = s.arrived := rfl
@[simp] theorem State.bump_upset (s : State) : (s.bump).upset = s.upset := rfl
@[simp] theorem State.bump_mgmtHeld (s : State) : (s.bump).mgmtHeld = s.mgmtHeld := rfl
@[simp] theorem State.bump_ccache (s : State) : (s.bump).ccache = s.ccache := rfl
@[simp] theorem State.bump_atomNext (s : State) : (s.bump).atomNext = s.atomNext := rfl
@[simp] theorem State.bump_grants (s : State) : (s.bump).grants = s.grants := rfl
@[simp] theorem State.bump_flagsOut (s : State) : (s.bump).flagsOut = s.flagsOut := rfl
@[simp] theorem State.bump_flagsIn (s : State) : (s.bump).flagsIn = s.flagsIn := rfl
@[simp] theorem State.bump_held (s : State) : (s.bump).held = s.held := rfl
@[simp] theorem State.bump_served (s : State) : (s.bump).served = s.served := rfl
@[simp] theorem State.bump_inbox (s : State) : (s.bump).inbox = s.inbox := rfl
@[simp] theorem State.bump_rows (s : State) : (s.bump).rows = s.rows := rfl
@[simp] theorem State.bump_atomIn (s : State) : (s.bump).atomIn = s.atomIn := rfl
@[simp] theorem State.bump_heldAtoms (s : State) : (s.bump).heldAtoms = s.heldAtoms := rfl
@[simp] theorem State.bump_mcIn (s : State) : (s.bump).mcIn = s.mcIn := rfl
@[simp] theorem State.bump_descs (s : State) : (s.bump).descs = s.descs := rfl
@[simp] theorem State.bump_watches (s : State) : (s.bump).watches = s.watches := rfl
@[simp] theorem State.bump_advanced (s : State) : (s.bump).advanced = s.advanced := rfl
@[simp] theorem State.bump_barReads (s : State) : (s.bump).barReads = s.barReads := rfl
@[simp] theorem State.bump_ordinals (s : State) : (s.bump).ordinals = s.ordinals := rfl
@[simp] theorem State.bump_mbox (s : State) : (s.bump).mbox = s.mbox := rfl
@[simp] theorem State.bump_replies (s : State) : (s.bump).replies = s.replies := rfl
@[simp] theorem State.bump_doorbells (s : State) : (s.bump).doorbells = s.doorbells := rfl
@[simp] theorem State.bump_hostOut (s : State) : (s.bump).hostOut = s.hostOut := rfl
@[simp] theorem State.bump_hostReads (s : State) : (s.bump).hostReads = s.hostReads := rfl
@[simp] theorem State.bump_msixOpen (s : State) : (s.bump).msixOpen = s.msixOpen := rfl
@[simp] theorem State.bump_msixPend (s : State) : (s.bump).msixPend = s.msixPend := rfl
@[simp] theorem State.bump_aperture (s : State) : (s.bump).aperture = s.aperture := rfl
@[simp] theorem State.bump_bar2Bits (s : State) : (s.bump).bar2Bits = s.bar2Bits := rfl
@[simp] theorem State.bump_poisoned (s : State) : (s.bump).poisoned = s.poisoned := rfl
@[simp] theorem State.bump_counters (s : State) : (s.bump).counters = s.counters := rfl
@[simp] theorem State.bump_die0 (s : State) : (s.bump).die0 = s.die0 := rfl
@[simp] theorem State.bump_die1 (s : State) : (s.bump).die1 = s.die1 := rfl
@[simp] theorem State.bump_timeNs (s : State) : (s.bump).timeNs = s.timeNs := rfl
@[simp] theorem State.bump_pwr (s : State) : (s.bump).pwr = s.pwr := rfl
@[simp] theorem State.bump_limitW (s : State) : (s.bump).limitW = s.limitW := rfl
@[simp] theorem State.bump_tempUmber (s : State) : (s.bump).tempUmber = s.tempUmber := rfl
@[simp] theorem State.bump_tempHbm (s : State) : (s.bump).tempHbm = s.tempHbm := rfl
@[simp] theorem State.bump_boot (s : State) : (s.bump).boot = s.boot := rfl
@[simp] theorem State.bump_svn (s : State) : (s.bump).svn = s.svn := rfl
@[simp] theorem State.bump_floor (s : State) : (s.bump).floor = s.floor := rfl
@[simp] theorem State.bump_flash (s : State) : (s.bump).flash = s.flash := rfl
@[simp] theorem State.bump_cfgRec (s : State) : (s.bump).cfgRec = s.cfgRec := rfl
@[simp] theorem State.bump_recWin (s : State) : (s.bump).recWin = s.recWin := rfl
@[simp] theorem State.bump_measure (s : State) : (s.bump).measure = s.measure := rfl
@[simp] theorem State.bump_cfgOk (s : State) : (s.bump).cfgOk = s.cfgOk := rfl
@[simp] theorem State.bump_cfgCount (s : State) : (s.bump).cfgCount = s.cfgCount := rfl
@[simp] theorem State.bump_viaRecovery (s : State) : (s.bump).viaRecovery = s.viaRecovery := rfl

/-! ## `State.putBox` -/

@[simp] theorem State.putBox_sel (s : State) (o n x : Nat) : (s.putBox o n x).sel = s.sel := rfl
@[simp] theorem State.putBox_agenda (s : State) (o n x : Nat) : (s.putBox o n x).agenda = s.agenda := rfl
@[simp] theorem State.putBox_turn (s : State) (o n x : Nat) : (s.putBox o n x).turn = s.turn := rfl
@[simp] theorem State.putBox_issued (s : State) (o n x : Nat) : (s.putBox o n x).issued = s.issued := rfl
@[simp] theorem State.putBox_groups (s : State) (o n x : Nat) : (s.putBox o n x).groups = s.groups := rfl
@[simp] theorem State.putBox_teams (s : State) (o n x : Nat) : (s.putBox o n x).teams = s.teams := rfl
@[simp] theorem State.putBox_launches (s : State) (o n x : Nat) : (s.putBox o n x).launches = s.launches := rfl
@[simp] theorem State.putBox_contexts (s : State) (o n x : Nat) : (s.putBox o n x).contexts = s.contexts := rfl
@[simp] theorem State.putBox_ops (s : State) (o n x : Nat) : (s.putBox o n x).ops = s.ops := rfl
@[simp] theorem State.putBox_gathers (s : State) (o n x : Nat) : (s.putBox o n x).gathers = s.gathers := rfl
@[simp] theorem State.putBox_nextId (s : State) (o n x : Nat) : (s.putBox o n x).nextId = s.nextId := rfl
@[simp] theorem State.putBox_free (s : State) (o n x : Nat) : (s.putBox o n x).free = s.free := rfl
@[simp] theorem State.putBox_mem (s : State) (o n x : Nat) : (s.putBox o n x).mem = s.mem := rfl
@[simp] theorem State.putBox_l1 (s : State) (o n x : Nat) : (s.putBox o n x).l1 = s.l1 := rfl
@[simp] theorem State.putBox_cc (s : State) (o n x : Nat) : (s.putBox o n x).cc = s.cc := rfl
@[simp] theorem State.putBox_l2 (s : State) (o n x : Nat) : (s.putBox o n x).l2 = s.l2 := rfl
@[simp] theorem State.putBox_lost (s : State) (o n x : Nat) : (s.putBox o n x).lost = s.lost := rfl
@[simp] theorem State.putBox_ways (s : State) (o n x : Nat) : (s.putBox o n x).ways = s.ways := rfl
@[simp] theorem State.putBox_retired (s : State) (o n x : Nat) : (s.putBox o n x).retired = s.retired := rfl
@[simp] theorem State.putBox_toRetire (s : State) (o n x : Nat) : (s.putBox o n x).toRetire = s.toRetire := rfl
@[simp] theorem State.putBox_tlb (s : State) (o n x : Nat) : (s.putBox o n x).tlb = s.tlb := rfl
@[simp] theorem State.putBox_walkReqs (s : State) (o n x : Nat) : (s.putBox o n x).walkReqs = s.walkReqs := rfl
@[simp] theorem State.putBox_lightReqs (s : State) (o n x : Nat) : (s.putBox o n x).lightReqs = s.lightReqs := rfl
@[simp] theorem State.putBox_absent (s : State) (o n x : Nat) : (s.putBox o n x).absent = s.absent := rfl
@[simp] theorem State.putBox_pats (s : State) (o n x : Nat) : (s.putBox o n x).pats = s.pats := rfl
@[simp] theorem State.putBox_updates (s : State) (o n x : Nat) : (s.putBox o n x).updates = s.updates := rfl
@[simp] theorem State.putBox_migrating (s : State) (o n x : Nat) : (s.putBox o n x).migrating = s.migrating := rfl
@[simp] theorem State.putBox_waiting (s : State) (o n x : Nat) : (s.putBox o n x).waiting = s.waiting := rfl
@[simp] theorem State.putBox_dists (s : State) (o n x : Nat) : (s.putBox o n x).dists = s.dists := rfl
@[simp] theorem State.putBox_pthr (s : State) (o n x : Nat) : (s.putBox o n x).pthr = s.pthr := rfl
@[simp] theorem State.putBox_wdsave (s : State) (o n x : Nat) : (s.putBox o n x).wdsave = s.wdsave := rfl
@[simp] theorem State.putBox_seals (s : State) (o n x : Nat) : (s.putBox o n x).seals = s.seals := rfl
@[simp] theorem State.putBox_refill (s : State) (o n x : Nat) : (s.putBox o n x).refill = s.refill := rfl
@[simp] theorem State.putBox_freed (s : State) (o n x : Nat) : (s.putBox o n x).freed = s.freed := rfl
@[simp] theorem State.putBox_ffring (s : State) (o n x : Nat) : (s.putBox o n x).ffring = s.ffring := rfl
@[simp] theorem State.putBox_devid (s : State) (o n x : Nat) : (s.putBox o n x).devid = s.devid := rfl
@[simp] theorem State.putBox_epoch (s : State) (o n x : Nat) : (s.putBox o n x).epoch = s.epoch := rfl
@[simp] theorem State.putBox_ports (s : State) (o n x : Nat) : (s.putBox o n x).ports = s.ports := rfl
@[simp] theorem State.putBox_routes (s : State) (o n x : Nat) : (s.putBox o n x).routes = s.routes := rfl
@[simp] theorem State.putBox_mcast (s : State) (o n x : Nat) : (s.putBox o n x).mcast = s.mcast := rfl
@[simp] theorem State.putBox_adth (s : State) (o n x : Nat) : (s.putBox o n x).adth = s.adth := rfl
@[simp] theorem State.putBox_tpod (s : State) (o n x : Nat) : (s.putBox o n x).tpod = s.tpod := rfl
@[simp] theorem State.putBox_linkUpAt (s : State) (o n x : Nat) : (s.putBox o n x).linkUpAt = s.linkUpAt := rfl
@[simp] theorem State.putBox_fabricOpen (s : State) (o n x : Nat) : (s.putBox o n x).fabricOpen = s.fabricOpen := rfl
@[simp] theorem State.putBox_rtx (s : State) (o n x : Nat) : (s.putBox o n x).rtx = s.rtx := rfl
@[simp] theorem State.putBox_outPkts (s : State) (o n x : Nat) : (s.putBox o n x).outPkts = s.outPkts := rfl
@[simp] theorem State.putBox_arrived (s : State) (o n x : Nat) : (s.putBox o n x).arrived = s.arrived := rfl
@[simp] theorem State.putBox_upset (s : State) (o n x : Nat) : (s.putBox o n x).upset = s.upset := rfl
@[simp] theorem State.putBox_mgmtHeld (s : State) (o n x : Nat) : (s.putBox o n x).mgmtHeld = s.mgmtHeld := rfl
@[simp] theorem State.putBox_ccache (s : State) (o n x : Nat) : (s.putBox o n x).ccache = s.ccache := rfl
@[simp] theorem State.putBox_atomNext (s : State) (o n x : Nat) : (s.putBox o n x).atomNext = s.atomNext := rfl
@[simp] theorem State.putBox_grants (s : State) (o n x : Nat) : (s.putBox o n x).grants = s.grants := rfl
@[simp] theorem State.putBox_flagsOut (s : State) (o n x : Nat) : (s.putBox o n x).flagsOut = s.flagsOut := rfl
@[simp] theorem State.putBox_flagsIn (s : State) (o n x : Nat) : (s.putBox o n x).flagsIn = s.flagsIn := rfl
@[simp] theorem State.putBox_held (s : State) (o n x : Nat) : (s.putBox o n x).held = s.held := rfl
@[simp] theorem State.putBox_served (s : State) (o n x : Nat) : (s.putBox o n x).served = s.served := rfl
@[simp] theorem State.putBox_inbox (s : State) (o n x : Nat) : (s.putBox o n x).inbox = s.inbox := rfl
@[simp] theorem State.putBox_rows (s : State) (o n x : Nat) : (s.putBox o n x).rows = s.rows := rfl
@[simp] theorem State.putBox_atomIn (s : State) (o n x : Nat) : (s.putBox o n x).atomIn = s.atomIn := rfl
@[simp] theorem State.putBox_heldAtoms (s : State) (o n x : Nat) : (s.putBox o n x).heldAtoms = s.heldAtoms := rfl
@[simp] theorem State.putBox_mcIn (s : State) (o n x : Nat) : (s.putBox o n x).mcIn = s.mcIn := rfl
@[simp] theorem State.putBox_descs (s : State) (o n x : Nat) : (s.putBox o n x).descs = s.descs := rfl
@[simp] theorem State.putBox_watches (s : State) (o n x : Nat) : (s.putBox o n x).watches = s.watches := rfl
@[simp] theorem State.putBox_advanced (s : State) (o n x : Nat) : (s.putBox o n x).advanced = s.advanced := rfl
@[simp] theorem State.putBox_barReads (s : State) (o n x : Nat) : (s.putBox o n x).barReads = s.barReads := rfl
@[simp] theorem State.putBox_ordinals (s : State) (o n x : Nat) : (s.putBox o n x).ordinals = s.ordinals := rfl
@[simp] theorem State.putBox_mbox (s : State) (o n x : Nat) : (s.putBox o n x).mbox = putBytes s.mbox o (natLe n x) := rfl
@[simp] theorem State.putBox_replies (s : State) (o n x : Nat) : (s.putBox o n x).replies = s.replies := rfl
@[simp] theorem State.putBox_doorbells (s : State) (o n x : Nat) : (s.putBox o n x).doorbells = s.doorbells := rfl
@[simp] theorem State.putBox_hostOut (s : State) (o n x : Nat) : (s.putBox o n x).hostOut = s.hostOut := rfl
@[simp] theorem State.putBox_hostReads (s : State) (o n x : Nat) : (s.putBox o n x).hostReads = s.hostReads := rfl
@[simp] theorem State.putBox_msixOpen (s : State) (o n x : Nat) : (s.putBox o n x).msixOpen = s.msixOpen := rfl
@[simp] theorem State.putBox_msixPend (s : State) (o n x : Nat) : (s.putBox o n x).msixPend = s.msixPend := rfl
@[simp] theorem State.putBox_aperture (s : State) (o n x : Nat) : (s.putBox o n x).aperture = s.aperture := rfl
@[simp] theorem State.putBox_bar2Bits (s : State) (o n x : Nat) : (s.putBox o n x).bar2Bits = s.bar2Bits := rfl
@[simp] theorem State.putBox_poisoned (s : State) (o n x : Nat) : (s.putBox o n x).poisoned = s.poisoned := rfl
@[simp] theorem State.putBox_counters (s : State) (o n x : Nat) : (s.putBox o n x).counters = s.counters := rfl
@[simp] theorem State.putBox_die0 (s : State) (o n x : Nat) : (s.putBox o n x).die0 = s.die0 := rfl
@[simp] theorem State.putBox_die1 (s : State) (o n x : Nat) : (s.putBox o n x).die1 = s.die1 := rfl
@[simp] theorem State.putBox_timeNs (s : State) (o n x : Nat) : (s.putBox o n x).timeNs = s.timeNs := rfl
@[simp] theorem State.putBox_pwr (s : State) (o n x : Nat) : (s.putBox o n x).pwr = s.pwr := rfl
@[simp] theorem State.putBox_limitW (s : State) (o n x : Nat) : (s.putBox o n x).limitW = s.limitW := rfl
@[simp] theorem State.putBox_tempUmber (s : State) (o n x : Nat) : (s.putBox o n x).tempUmber = s.tempUmber := rfl
@[simp] theorem State.putBox_tempHbm (s : State) (o n x : Nat) : (s.putBox o n x).tempHbm = s.tempHbm := rfl
@[simp] theorem State.putBox_boot (s : State) (o n x : Nat) : (s.putBox o n x).boot = s.boot := rfl
@[simp] theorem State.putBox_svn (s : State) (o n x : Nat) : (s.putBox o n x).svn = s.svn := rfl
@[simp] theorem State.putBox_floor (s : State) (o n x : Nat) : (s.putBox o n x).floor = s.floor := rfl
@[simp] theorem State.putBox_flash (s : State) (o n x : Nat) : (s.putBox o n x).flash = s.flash := rfl
@[simp] theorem State.putBox_cfgRec (s : State) (o n x : Nat) : (s.putBox o n x).cfgRec = s.cfgRec := rfl
@[simp] theorem State.putBox_recWin (s : State) (o n x : Nat) : (s.putBox o n x).recWin = s.recWin := rfl
@[simp] theorem State.putBox_measure (s : State) (o n x : Nat) : (s.putBox o n x).measure = s.measure := rfl
@[simp] theorem State.putBox_cfgOk (s : State) (o n x : Nat) : (s.putBox o n x).cfgOk = s.cfgOk := rfl
@[simp] theorem State.putBox_cfgCount (s : State) (o n x : Nat) : (s.putBox o n x).cfgCount = s.cfgCount := rfl
@[simp] theorem State.putBox_viaRecovery (s : State) (o n x : Nat) : (s.putBox o n x).viaRecovery = s.viaRecovery := rfl

end Sys2Proof.Machine
end

