-- ==== Sys2Proof/Laws/Issue.lean ====
section
/-!
SUPPORT. What the commit of a word does when no lane traps, exits, waits at `RCV` or ends the task: it stores the lanes' threads, and nothing else.
-/
namespace Sys2Proof.Machine
open Sys2Proof

/-! ## Groups and lanes -/

theorem mapIf_find {α : Type} (p : α → Bool) (a b : α) (l : List α) (h : l.find? p = some a) (hb : p b = true) :
    (mapIf p (fun _ => b) l).find? p = some b := by
  induction l with
  | nil => simp at h
  | cons c l ih =>
    rw [List.find?_cons] at h
    show List.find? p ((if p c then b else c) :: mapIf p (fun _ => b) l) = some b
    cases hc : p c
    · rw [hc] at h
      simp only [Bool.false_eq_true, if_false, List.find?_cons, hc]
      exact ih h
    · simp [hb]

/-- A group stored is the group found. -/
theorem State.group?_setGroup {s : State} {g g0 : Group} (h : s.group? g.uid = some g0) : (s.setGroup g).group? g.uid = some g := by
  unfold State.group? State.setGroup
  exact mapIf_find _ _ _ _ h (by simp)

@[simp] theorem Group.onLanes_uid (g : Group) (ls : List Nat) (f : Nat → Thread → Thread) : (g.onLanes ls f).uid = g.uid := rfl
@[simp] theorem Group.onLanes_size (g : Group) (ls : List Nat) (f : Nat → Thread → Thread) : (g.onLanes ls f).threads.length = g.threads.length := by
  simp [Group.onLanes]

/-- The thread of a lane after some lanes have changed. -/
theorem Group.onLanes_thread (g : Group) (ls : List Nat) (f : Nat → Thread → Thread) (l : Nat) (h : l < g.threads.length) :
    (g.onLanes ls f).thread l = if l ∈ ls then f l (g.thread l) else g.thread l := by
  simp [Group.onLanes, Group.thread, List.getD_eq_getElem?_getD, h]

theorem Group.onLanes_nil (g : Group) (f : Nat → Thread → Thread) : g.onLanes [] f = g := by
  have : g.threads.mapIdx (fun l t => if l ∈ ([] : List Nat) then f l t else t) = g.threads := by
    apply List.ext_getElem?; intro i; simp
  unfold Group.onLanes
  rw [this]

/-- Lanes are stored one after another. -/
theorem Group.onLanes_cons (g : Group) (l : Nat) (ls : List Nat) (f : Nat → Thread → Thread) (hl : l ∉ ls) :
    (g.setThread l (f l (g.thread l))).onLanes ls f = g.onLanes (l :: ls) f := by
  unfold Group.onLanes Group.setThread
  simp only
  congr 1
  apply List.ext_getElem?
  intro i
  simp only [List.getElem?_mapIdx, List.getElem?_set, List.mem_cons, Group.thread]
  by_cases hi : i = l
  · subst hi
    by_cases hb : i < g.threads.length
    · simp [hb, hl, List.getD_eq_getElem?_getD]
    · simp [hb]
  · have hne : ¬ l = i := fun e => hi e.symm
    simp [hi, hne]

/-! ## Outcomes that complete or park -/

/-- The outcome leaves the thread in its group: it completes its word, holds a hint, or parks before its word. -/
def Out.calm (st : Bool) : Out → Prop
  | .go t _ => st = true → t.unlanded
  | .hint _ => True
  | .park _ _ => True
  | _ => False

/-- The thread after such an outcome. -/
def Out.after (st : Bool) (now : Nat) (pc : Word) (t : Thread) : Out → Thread
  | .go t' n => wentOn st now pc n t'
  | .hint h =>
    if !t.hnd && (match t.stack with
        | e :: _ => e.isLoop && e.fin == pc
        | [] => false) then advance t pc (.fall pc) else { t with pc := pc + 4#32, hints := h }
  | .park r w => parkedBefore now r w t
  | _ => t

theorem advance_pend (t : Thread) (pc : Word) (n : Next) : (advance t pc n).pend = t.pend := by
  cases n <;> simp only [advance] <;> split <;> rfl

theorem advance_st (t : Thread) (pc : Word) (n : Next) : (advance t pc n).st = .runnable := by
  cases n <;> simp only [advance] <;> first | rfl | (split <;> rfl)

theorem resolve_calm (now : Nat) (x : Issue) (g : Group) (lane : Nat) (o : Out) (hc : o.calm x.st) (hs : x.stops = []) (hf : x.full = false) :
    resolve now x g lane o = (g, .done (o.after x.st now x.pc (g.thread lane))) := by
  have hstop : ∀ a b, x.stopAfter a b = none := by intro a b; simp [Issue.stopAfter, hs, hf]
  cases o with
  | go t n =>
    simp only [Out.calm] at hc
    simp only [resolve, Out.after, wentOn, resolveGo, hstop, advance_pend]
    cases hst : x.st
    · simp
    · rcases hc hst with hp | ⟨p, hp, hl⟩
      · simp [hp]
      · have h1 : t.pend.isEmpty = false := by cases h : t.pend with
          | nil => simp [h] at hp
          | cons => rfl
        have h2 : (t.pend.all fun p => p.landed) = false := by
          rw [List.all_eq_false]; exact ⟨p, hp, by simp [hl]⟩
        simp [h1, h2]
  | hint h =>
    simp only [resolve, Out.after]
    generalize (!(g.thread lane).hnd && _) = b
    cases b <;> rfl
  | park r w => cases r <;> simp [resolve, Out.after, parkedBefore, parkThread, Issue.stopHere, hf]
  | exit t => simp [Out.calm] at hc
  | rcv t => simp [Out.calm] at hc
  | trap c a z => simp [Out.calm] at hc
  | stop c a z => simp [Out.calm] at hc

/-- The outcomes of distinct lanes, resolved and stored. -/
theorem resolveAll_calm (now : Nat) (x : Issue) (o : Nat → Out) (ls : List Nat) (g : Group) (hn : ls.Nodup) (hb : ∀ l ∈ ls, l < g.threads.length)
    (hc : ∀ l ∈ ls, (o l).calm x.st) (hs : x.stops = []) (hf : x.full = false) :
    resolveAll now x (ls.map fun l => (l, o l)) g =
      (g.onLanes ls fun l t => (o l).after x.st now x.pc t, ls.map fun l => (l, Res.done ((o l).after x.st now x.pc (g.thread l)))) := by
  induction ls generalizing g with
  | nil => simp [resolveAll, Group.onLanes_nil]
  | cons l ls ih =>
    simp only [List.nodup_cons] at hn
    simp only [List.map_cons, resolveAll, resolve_calm now x g l (o l) (hc l (by simp)) hs hf]
    rw [ih (g.setThread l _) hn.2 (by intro m hm; simp [Group.setThread]; exact hb m (by simp [hm])) (fun m hm => hc m (by simp [hm]))]
    rw [Group.onLanes_cons (f := fun l t => (o l).after x.st now x.pc t) (hl := hn.1)]
    simp only [Prod.mk.injEq, List.cons.injEq, true_and]
    apply List.map_congr_left
    intro m hm
    have hne : l ≠ m := fun e => hn.1 (e ▸ hm)
    simp [Group.thread, Group.setThread, List.getD_eq_getElem?_getD, hne]

theorem Out.after_st (st : Bool) (now : Nat) (pc : Word) (t : Thread) (o : Out) (hc : o.calm st) (ht : t.st = .runnable) :
    (o.after st now pc t).st = .runnable ∨ ∃ r, (o.after st now pc t).st = .parked r := by
  cases o with
  | go t' n =>
    simp only [Out.after, wentOn]
    split
    · exact .inr ⟨_, rfl⟩
    · exact .inl (advance_st _ _ _)
  | hint h =>
    simp only [Out.after]
    generalize (!t.hnd && _) = b
    cases b
    · exact .inl ht
    · exact .inl (by rw [if_pos rfl]; exact advance_st _ _ _)
  | park r w => exact .inr ⟨r, rfl⟩
  | _ => simp [Out.calm] at hc

theorem rcvReady_none (g : Group) (t : Thread) (ht : t ∈ g.threads) (h1 : t.st ≠ .rcvWait) (h2 : t.st ≠ .exited) : rcvReady g = none := by
  unfold rcvReady
  rw [if_neg]
  simp only [Bool.not_eq_true, List.all_eq_false]
  exact ⟨t, ht, by simp [h1, h2]⟩

/-- A word whose lanes all complete or park stores their threads, and nothing else. -/
theorem commit_calm (s : State) (x : Issue) (g : Group) (o : Nat → Out) (hg : s.group? x.g.uid = some g) (hu : g.uid = x.g.uid)
    (hsz : g.threads.length = 32) (hls : x.lanes ≠ []) (hn : x.lanes.Nodup) (hb : ∀ l ∈ x.lanes, l < 32)
    (hr : ∀ l ∈ x.lanes, (g.thread l).st = .runnable) (hc : ∀ l ∈ x.lanes, (o l).calm x.st) (hs : x.stops = []) (hf : x.full = false) :
    s.commit x (x.lanes.map fun l => (l, o l)) = s.onLanes g x.lanes fun l t => (o l).after x.st s.timeNs x.pc t := by
  unfold State.commit
  simp only [hg]
  rw [resolveAll_calm s.timeNs x o x.lanes g hn (by rw [hsz]; exact hb) hc hs hf]
  simp only
  let g' := g.onLanes x.lanes fun l t => (o l).after x.st s.timeNs x.pc t
  have hends : ((x.lanes.map fun l => (l, Res.done ((o l).after x.st s.timeNs x.pc (g.thread l)))).any fun r => r.2.ends x.handler) = false := by
    simp [Res.ends]
  have hdel : ∀ (h : Nat) (ls : List Nat) (s : State), deliverAll g'.uid h (ls.map fun l => (l, Res.done ((o l).after x.st s.timeNs x.pc (g.thread l)))) s = s := by
    intro h ls s
    suffices ∀ (rs : List (Nat × Res)), (∀ r ∈ rs, ∃ t, r.2 = .done t) → deliverAll g'.uid h rs s = s by
      apply this; intro r hr; simp at hr; obtain ⟨l, -, rfl⟩ := hr; exact ⟨_, rfl⟩
    intro rs hrs
    induction rs generalizing s with
    | nil => rfl
    | cons r rs ih =>
      obtain ⟨l, r⟩ := r
      obtain ⟨t, ht⟩ := hrs (l, r) (by simp)
      simp only at ht; subst ht
      simp only [deliverAll]
      exact ih s (fun r hr => hrs r (by simp [hr]))
  have happ : s.applyRes x g' (x.lanes.map fun l => (l, Res.done ((o l).after x.st s.timeNs x.pc (g.thread l)))) = s.setGroup g' := by
    unfold State.applyRes
    rw [hends]
    simp only [Bool.false_eq_true, if_false]
    cases x.handler with
    | none => rfl
    | some h =>
      have := hdel h x.lanes (s.setGroup g')
      simpa using this
  have hu' : g'.uid = x.g.uid := hu
  have hfound : (s.setGroup g').group? x.g.uid = some g' := by
    rw [← hu']; exact State.group?_setGroup (g0 := g) (by rw [hu']; exact hg)
  obtain ⟨l, rest, hl⟩ : ∃ l rest, x.lanes = l :: rest := by
    cases h : x.lanes with
    | nil => exact absurd h hls
    | cons l rest => exact ⟨l, rest, rfl⟩
  have hlm : l ∈ x.lanes := by simp [hl]
  have hl32 : l < g.threads.length := by rw [hsz]; exact hb l hlm
  have hth : g'.thread l = (o l).after x.st s.timeNs x.pc (g.thread l) := by
    have := Group.onLanes_thread g x.lanes (fun l t => (o l).after x.st s.timeNs x.pc t) l hl32
    simpa [hlm] using this
  have hmem : g'.thread l ∈ g'.threads := by
    have : l < g'.threads.length := by rw [Group.onLanes_size]; exact hl32
    simp [Group.thread, List.getD_eq_getElem?_getD, this]
  have hst := Out.after_st x.st s.timeNs x.pc (g.thread l) (o l) (hc l hlm) (hr l hlm)
  rw [← hth] at hst
  have h1 : (g'.thread l).st ≠ .rcvWait := by rcases hst with h | ⟨r, h⟩ <;> simp [h]
  have h2 : (g'.thread l).st ≠ .exited := by rcases hst with h | ⟨r, h⟩ <;> simp [h]
  show ((s.applyRes x g' _).rcvRelease x).finishGroup x.g.uid = _
  rw [happ]
  unfold State.rcvRelease
  simp only [hfound, rcvReady_none g' _ hmem h1 h2]
  unfold State.finishGroup
  simp only [hfound]
  rw [if_neg]
  · rfl
  · have hall : (g'.threads.all fun t => t.st == .exited) = false := by
      rw [List.all_eq_false]; exact ⟨_, hmem, by simp [h2]⟩
    simp [hall]

end Sys2Proof.Machine
end

