-- ==== Sys2Proof/Laws/Words.lean ====
section
/-!
SUPPORT. What the shapes of Machine/Operands.lean answer for a group that issues: the issue itself, a word that passes its checks, a per-lane word, a
long-class word, a scalar word, and a word whose lanes go on or park.
-/
namespace Sys2Proof.Machine
open Sys2Proof

theorem Issues.issue? {s : State} {g : Group} {ls : List Nat} (h : Issues s g ls) (op : Nat) (st : Bool) : s.issue? op st = some (s.issueFor g ls op st) := by
  simp [State.issue?, h.sel, h.group, h.order, State.issueFor, pcOf, hintsOf]

/-- A word that passes the checks of R99 has its effect. -/
theorem Issues.runWord {s : State} {g : Group} {ls : List Nat} (h : Issues s g ls) (op : Nat) (st : Bool) (need : Issue → Need) (body : Issue → State → State)
    (hd : (need (s.issueFor g ls op st)).detail (s.issueFor g ls op st) = none) :
    Machine.runWord s op st need body = .next (body (s.issueFor g ls op st) s) := by
  simp [Machine.runWord, h.issue?, hd]

/-- A word whose fields pass every check of R99. -/
theorem Need.detail_none {n : Need} {x : Issue} (hh : acceptsHints x.op.toNat x.hints = true) (hc : n.codeOk = true)
    (hs : ∀ r ∈ n.sregs, aligned r = true ∧ r.1 < 192 ∧ r.1 + r.2 ≤ 192) (hv : ∀ r ∈ n.vregs, aligned r = true ∧ r.1 + r.2 ≤ x.vbud) (ht : n.target = true) :
    n.detail x = none := by
  have e1 : (n.sregs.any fun r => decide (192 ≤ r.1)) = false := by
    rw [List.any_eq_false]; intro r hr; have := hs r hr; simp; omega
  have e2 : (n.vregs.any fun r => decide (x.vbud < r.1 + r.2)) = false := by
    rw [List.any_eq_false]; intro r hr; have := hv r hr; simp; omega
  have e3 : (n.sregs.any fun r => !aligned r || decide (192 < r.1 + r.2)) = false := by
    rw [List.any_eq_false]; intro r hr; have := hs r hr; simp [this.1]; omega
  have e4 : (n.vregs.any fun r => !aligned r) = false := by
    rw [List.any_eq_false]; intro r hr; simp [(hv r hr).1]
  simp [Need.detail, hh, hc, e1, e2, e3, e4, ht]

@[simp] theorem aligned_one (r : Nat) : aligned (r, 1) = true := by simp [aligned, Nat.mod_one]

theorem issueFor_accepts {s : State} {g : Group} {ls : List Nat} {op : Nat} {st : Bool} (ho : op < 256) (h : acceptsHints op (hintsOf g ls) = true) :
    acceptsHints (s.issueFor g ls op st).op.toNat (s.issueFor g ls op st).hints = true := by
  have : (BitVec.ofNat 8 op).toNat = op := by simp; omega
  simpa [State.issueFor, this] using h

/-- A word that fails a check of R99 raises the illegal-instruction trap. -/
theorem Issues.runWord_illegal {s : State} {g : Group} {ls : List Nat} (h : Issues s g ls) (op : Nat) (st : Bool) (need : Issue → Need)
    (body : Issue → State → State) (d : Nat) (hd : (need (s.issueFor g ls op st)).detail (s.issueFor g ls op st) = some d) :
    Machine.runWord s op st need body = .next (s.illegal (s.issueFor g ls op st) d) := by
  simp [Machine.runWord, h.issue?, hd]

/-- A word whose lanes complete or park. -/
theorem Issues.commit {s s' : State} {g g' : Group} {ls : List Nat} (h : Issues s g ls) (op : Nat) (st : Bool) (o : Nat → Out)
    (hg : s'.group? g.uid = some g') (hu : g'.uid = g.uid) (ht : g'.threads = g.threads) (hc : ∀ l ∈ ls, (o l).calm st) :
    s'.commit (s.issueFor g ls op st) (ls.map fun l => (l, o l)) = s'.onLanes g' ls fun l t => (o l).after st s'.timeNs (pcOf g ls) t :=
  commit_calm s' (s.issueFor g ls op st) g' o hg hu (by rw [ht]; exact h.size) h.nonempty h.nodup h.lanes
    (fun l hl => by have := h.runs l hl; simpa [Group.thread, ht] using this) hc rfl rfl

theorem discardPend_unlanded {d : Dest} {ps : List Pending} (h : ps = [] ∨ ∃ p ∈ ps, p.landed = false) :
    discardPend d ps = [] ∨ ∃ p ∈ discardPend d ps, p.landed = false := by
  rcases h with rfl | ⟨p, hp, hl⟩
  · exact .inl rfl
  · refine .inr ⟨if p.dest == d then { p with dest := .none } else p, ?_, ?_⟩
    · exact List.mem_map.mpr ⟨p, hp, rfl⟩
    · split <;> exact hl

theorem Thread.vset_unlanded {t : Thread} (h : t.unlanded) (n : Nat) (x : Word) : (t.vset n x).unlanded := discardPend_unlanded h
theorem Thread.pset_unlanded {t : Thread} (h : t.unlanded) (n : Nat) (b : Bool) : (t.pset n b).unlanded := discardPend_unlanded h
theorem Thread.long_unlanded (t : Thread) (x : Issue) (wid : Nat) (te : BitVec 5) (d : Dest) (v : Word) (fl : FFlags) : (t.long x wid te d v fl).unlanded :=
  .inr ⟨_, List.mem_append_right _ (List.mem_singleton.mpr rfl), rfl⟩

theorem whenFree_free {s : State} {x : Issue} {lane : Nat} {regs : List Nat} {o : Out} (h : ∀ r ∈ regs, trackers s x.g.uid lane r = []) :
    whenFree s x lane regs o = o := by
  have : (regs.flatMap fun r => trackers s x.g.uid lane r) = [] := by simpa using h
  simp [whenFree, this]

@[simp] theorem trackers_bump (s : State) (u l r : Nat) : trackers s.bump u l r = trackers s u l r := rfl
@[simp] theorem group?_bump (s : State) (u : Nat) : s.bump.group? u = s.group? u := rfl

theorem onLanes_congr {s : State} {g : Group} {ls : List Nat} {f f' : Nat → Thread → Thread} (hb : g.threads.length = 32)
    (h : ∀ l ∈ ls, l < 32 → f l (g.thread l) = f' l (g.thread l)) : s.onLanes g ls f = s.onLanes g ls f' := by
  unfold State.onLanes Group.onLanes
  congr 2
  apply List.ext_getElem?
  intro i
  simp only [List.getElem?_mapIdx]
  by_cases hi : i < g.threads.length
  · have hth : g.thread i = g.threads[i] := by simp [Group.thread, List.getD_eq_getElem?_getD, hi]
    simp only [hi, List.getElem?_eq_getElem, Option.map_some]
    by_cases hm : i ∈ ls
    · have := h i hm (by omega); rw [hth] at this; simp [hm, this]
    · simp [hm]
  · simp [hi]

/-- A per-lane word: lanes with a true guard act, the others go on (R84, R126). -/
theorem Issues.vectorWord {s s' : State} {g : Group} {ls : List Nat} (h : Issues s g ls) (op : Nat) (st : Bool) (guard : Nat) (regs : List Nat)
    (f : Nat → Thread → Thread) (hs : s'.groups = s.groups) (ho : s'.ops = s.ops) (hfree : FreeRegs s g ls regs) (hu : Unlanded st g ls)
    (hf : st = true → ∀ l ∈ ls, (f l (g.thread l)).unlanded) :
    Machine.vectorWord s' (s.issueFor g ls op st) guard regs f = s'.onLanes g ls fun l t =>
      wentOn st s'.timeNs (pcOf g ls) (.fall (pcOf g ls)) (if takesPart (hintsOf g ls) guard t then f l t else t) := by
  unfold Machine.vectorWord eachLane
  have hg : s'.group? g.uid = some g := by rw [State.group?, hs]; exact h.group
  have hfr : ∀ l ∈ ls, ∀ o, whenFree s' (s.issueFor g ls op st) l regs o = o := by
    intro l hl o
    apply whenFree_free
    intro r hr
    have := hfree l hl r hr
    unfold trackers at this ⊢
    rw [ho]
    exact this
  have := h.commit op st (s' := s') (g' := g) (fun l => if takesPart (s.issueFor g ls op st).hints guard ((s.issueFor g ls op st).g.thread l) then
      whenFree s' (s.issueFor g ls op st) l regs (.go (f l ((s.issueFor g ls op st).g.thread l)) (.fall (s.issueFor g ls op st).pc))
      else skipLane (s.issueFor g ls op st) ((s.issueFor g ls op st).g.thread l)) hg rfl rfl (by
    intro l hl
    split
    · rw [hfr l hl]; intro hst; exact hf hst l hl
    · intro hst; exact hu hst l hl)
  refine Eq.trans this (onLanes_congr h.size ?_)
  intro l hl _
  show Out.after _ _ _ _ (if takesPart (hintsOf g ls) guard (g.thread l) then _ else _) = _
  split
  · rw [hfr l hl]; rfl
  · rfl

/-- A scalar word: the group's scalar state changes once, and every lane goes on (R136). -/
theorem Issues.scalarWord {s : State} {g : Group} {ls : List Nat} (h : Issues s g ls) (op : Nat) (st : Bool) (f : Group → Group) (hu : Unlanded st g ls)
    (hid : (f g).uid = g.uid) (hth : (f g).threads = g.threads) :
    Machine.scalarWord s (s.issueFor g ls op st) f = (s.modGroup g.uid f).onLanes (f g) ls fun _ t => wentOn st s.timeNs (pcOf g ls) (.fall (pcOf g ls)) t := by
  unfold Machine.scalarWord allGo eachLane
  have hg : (s.modGroup g.uid f).group? g.uid = some (f g) := by
    have h0 := h.group
    unfold State.group? State.modGroup at *
    generalize s.groups = gs at *
    induction gs with
    | nil => simp at h0
    | cons c gs ih =>
      rw [List.find?_cons] at h0
      show List.find? _ ((if c.uid == g.uid then f c else c) :: mapIf _ f gs) = _
      cases hc : (c.uid == g.uid)
      · rw [hc] at h0
        simp only [Bool.false_eq_true, if_false, List.find?_cons, hc]
        exact ih h0
      · rw [hc] at h0; simp at h0; subst h0; simp [hid]
  exact h.commit op st (s' := s.modGroup g.uid f) (g' := f g) (fun l => skipLane (s.issueFor g ls op st) ((s.issueFor g ls op st).g.thread l)) hg hid hth
    (fun l hl hst => hu hst l hl)
  |>.trans (onLanes_congr (by rw [hth]; exact h.size) (fun l hl _ => by
    show wentOn _ _ _ _ (g.thread l) = wentOn _ _ _ _ ((f g).thread l)
    simp [Group.thread, hth]; rfl))

/-- A word whose lanes complete or park, each by a function of its thread. -/
theorem Issues.eachLane {s : State} {g : Group} {ls : List Nat} (h : Issues s g ls) (op : Nat) (st : Bool) (o : Nat → Thread → Out)
   (hc : ∀ l ∈ ls, (o l (g.thread l)).calm st) :
   s.commit (s.issueFor g ls op st) (Machine.eachLane (s.issueFor g ls op st) o) = s.onLanes g ls fun l t => (o l (g.thread l)).after st s.timeNs (pcOf g ls) t :=
  h.commit op st (s' := s) (g' := g) (fun l => o l (g.thread l)) h.group rfl rfl hc

theorem State.modGroup_setGroup {s : State} {u : Nat} {f : Group → Group} {g' : Group} (hf : ∀ x, (f x).uid = x.uid) (hu : g'.uid = u) :
    (s.modGroup u f).setGroup g' = s.setGroup g' := by
  unfold State.modGroup State.setGroup mapIf
  simp only [List.map_map]
  congr 1
  apply List.map_congr_left
  intro x _
  simp only [Function.comp]
  by_cases hx : x.uid = u
  · simp [hx, hf, hu]
  · simp [hx]

theorem State.group?_modGroup {s : State} {g : Group} {f : Group → Group} (h0 : s.group? g.uid = some g) (hf : (f g).uid = g.uid) :
    (s.modGroup g.uid f).group? g.uid = some (f g) := by
  unfold State.group? State.modGroup at *
  generalize s.groups = gs at *
  induction gs with
  | nil => simp at h0
  | cons c gs ih =>
    rw [List.find?_cons] at h0
    show List.find? _ ((if c.uid == g.uid then f c else c) :: mapIf _ f gs) = _
    cases hc : (c.uid == g.uid)
    · rw [hc] at h0
      simp only [Bool.false_eq_true, if_false, List.find?_cons, hc]
      exact ih h0
    · rw [hc] at h0; simp at h0; subst h0; simp [hf]

/-- A word that changes the group's scalar state once (R136). -/
theorem Issues.scalarSet {s : State} {g : Group} {ls : List Nat} (h : Issues s g ls) (op : Nat) (st : Bool) (f : Group → Group) (hu : Unlanded st g ls)
   (h1 : (f g).uid = g.uid) (hf : ∀ x, (f x).uid = x.uid) (hth : (f g).threads = g.threads) :
   (s.modGroup g.uid f).commit (s.issueFor g ls op st) (allGo (s.issueFor g ls op st)) = s.scalarNext g ls st (f g) := by
  rw [allGo]
  refine (h.commit op st (s' := s.modGroup g.uid f) (g' := f g) (fun l => skipLane (s.issueFor g ls op st) (g.thread l)) (State.group?_modGroup h.group h1) h1 hth
     (fun l hl hst => hu hst l hl)).trans ?_
  refine (onLanes_congr (f' := fun _ t => nextThread s g ls st t) (by rw [hth]; exact h.size) ?_).trans ?_
  · intro l hl _
    show wentOn _ _ _ _ (g.thread l) = wentOn _ _ _ _ ((f g).thread l)
    simp [Group.thread, hth]; rfl
  · exact State.modGroup_setGroup hf h1

/-- A word with no field to check. -/
theorem Need.detail_empty {s : State} {g : Group} {ls : List Nat} {op : Nat} {st : Bool} (ho : op < 256) (hacc : acceptsHints op (hintsOf g ls) = true) :
  ({} : Need).detail (s.issueFor g ls op st) = none := Need.detail_none (issueFor_accepts ho hacc) rfl (by simp) (by simp) rfl

/-- A word with one vector register and a target. -/
theorem Need.detail_reg {s : State} {g : Group} {ls : List Nat} {op : Nat} {st : Bool} {a : Nat} (ho : op < 256) (hacc : acceptsHints op (hintsOf g ls) = true) (ha : a < s.budget g)
   {b : Bool} (hb : b = true) :
  ({ vregs := [(a, 1)], target := b } : Need).detail (s.issueFor g ls op st) = none :=
  Need.detail_none (issueFor_accepts ho hacc) rfl (by simp) (by simp [State.issueFor]; omega) hb


theorem Thread.long_eq {s : State} {g : Group} {ls : List Nat} {op : Nat} {st : Bool} (t : Thread) (d : Dest) (v : Word) (fl : FFlags) :
    t.long (s.issueFor g ls op st) s.nextId (trapEnables (s.issueFor g ls op st).g) d v fl = t.withPending [pendingOf s g ls op d (v, fl)] := rfl

/-- A long-class word: each lane that takes part holds its result pending (R121). -/
theorem Issues.longWord {s : State} {g : Group} {ls : List Nat} (h : Issues s g ls) (op : Nat) (st : Bool) (guard : Nat) (regs : List Nat) (d : Nat)
    (f : Nat → Thread → Word × FFlags) (hfree : FreeRegs s g ls regs) (hu : Unlanded st g ls) :
    Machine.longWord s (s.issueFor g ls op st) guard regs d f = s.bump.onLanes g ls fun l t => nextThread s g ls st
      (if guardOn g ls guard t then t.withPending [pendingOf s g ls op (.v d) (f l t)] else t) := by
  unfold Machine.longWord
  exact h.vectorWord (s' := s.bump) op st guard regs (fun l t => t.longV (s.issueFor g ls op st) s.nextId (trapEnables (s.issueFor g ls op st).g) d (f l t))
    rfl rfl hfree hu (fun _ l _ => Thread.long_unlanded _ _ _ _ _ _ _)

theorem FreeRegs.mono {s : State} {g : Group} {ls rs rs' : List Nat} (h : FreeRegs s g ls rs) (hs : ∀ r ∈ rs', r ∈ rs) : FreeRegs s g ls rs' :=
  fun l hl r hr => h l hl r (hs r hr)

theorem FreeRegs.append {s : State} {g : Group} {ls rs rs' : List Nat} (h : FreeRegs s g ls rs) (h' : FreeRegs s g ls rs') : FreeRegs s g ls (rs ++ rs') := by
  intro l hl r hr
  rcases List.mem_append.mp hr with hr | hr
  · exact h l hl r hr
  · exact h' l hl r hr

/-- The lanes that take part in a word that combines lanes, when no register named is a token target. -/
theorem partLanes_free {s : State} {g : Group} {ls : List Nat} {op : Nat} {st : Bool} (guard : Nat) {regs : List Nat} (h : FreeRegs s g ls regs) :
    partLanes s (s.issueFor g ls op st) guard regs = ls.filter fun l => guardOn g ls guard (g.thread l) := by
  unfold partLanes
  apply List.filter_congr
  intro l hl
  have : (regs.flatMap fun r => trackers s g.uid l r) = [] := by simpa using h l hl
  show (takesPart _ _ _ && (regs.flatMap fun r => trackers s g.uid l r).isEmpty) = _
  rw [this]
  simp [guardOn, State.issueFor]

end Sys2Proof.Machine
end

