-- ==== Sys2Proof/Laws/Binding.lean ====
section
/-!
SUPPORT. What binding a token does (R193, R216): the operation that stands in flight afterwards, and the state after a memory word, a barrier word and an
engine word that binds.
-/
namespace Sys2Proof.Machine
open Sys2Proof

theorem bindWith_eq (s : State) (g : Group) (ls : List Nat) (op : Nat) (st : Bool) (k : Nat) (kind : OpKind) (f : Op → Op) :
    s.bindWith (s.issueFor g ls op st) k kind f = (s.nextId, State.modGroup { s with nextId := s.nextId + 1
                                                                                     ops := s.detachedOps g k ++ [f (s.newOp g ls k kind)] } g.uid
      fun g' => { g'.setToken k { st := .pend, op := s.nextId } with seq := g'.seq + 1 }) := by
  unfold State.bindWith State.detach State.modOp State.bump State.detachedOps
  by_cases h : (g.token k).st = .pend
  · simp [h, State.issueFor, State.newOp, sampledBy, State.modGroup, mapIf]
    all_goals rfl
  · simp [h, State.issueFor, State.newOp, sampledBy, State.modGroup]
    all_goals rfl

/-- The commit of a word whose lanes all go on, in a state whose group is the issuing one with other scalar state. -/
theorem Issues.commitGo {s s' : State} {g : Group} {ls : List Nat} (h : Issues s g ls) (op : Nat) (st : Bool) (f : Group → Group) (hu : Unlanded st g ls)
    (hs : s'.groups = s.groups) (ht : s'.timeNs = s.timeNs) (h1 : (f g).uid = g.uid) (hf : ∀ x, (f x).uid = x.uid) (hth : (f g).threads = g.threads)
    (outs : List (Nat × Out)) (ho : outs = ls.map fun l => (l, Out.go (g.thread l) (.fall (pcOf g ls)))) :
    (s'.modGroup g.uid f).commit (s.issueFor g ls op st) outs = s'.onLanes (f g) ls fun _ t => nextThread s g ls st t := by
  have hg : (s'.modGroup g.uid f).group? g.uid = some (f g) :=
    State.group?_modGroup (by rw [State.group?, hs]; exact h.group) h1
  rw [ho]
  refine (h.commit op st (s' := s'.modGroup g.uid f) (g' := f g) (fun l => .go (g.thread l) (.fall (pcOf g ls))) hg h1 hth
    (fun l hl hst => hu hst l hl)).trans ?_
  refine (onLanes_congr (f' := fun _ t => nextThread s g ls st t) (by rw [hth]; exact h.size) ?_).trans ?_
  · intro l hl _
    show wentOn _ s'.timeNs _ _ (g.thread l) = wentOn _ s.timeNs _ _ ((f g).thread l)
    simp [Group.thread, hth, ht]
  · exact State.modGroup_setGroup hf h1

theorem noteParks_go (w : Bool) (ls : List Nat) (f : Nat → Thread) (n : Next) (s : State) : noteParks w (ls.map fun l => (l, Out.go (f l) n)) s = s := by
  induction ls with
  | nil => rfl
  | cons l ls ih => simpa [noteParks] using ih

theorem partsOf_map (ls : List Nat) (c : Nat → Bool) (P : Nat → Part) :
    partsOf (ls.map fun l => (l, if c l then LaneMem.part (P l) else .skip)) = (ls.filter c).map P := by
  induction ls with
  | nil => rfl
  | cons l ls ih => simp only [List.map_cons]; cases h : c l <;> simp [partsOf, h, ih]

theorem completes_map (ls : List Nat) (c : Nat → Bool) (P : Nat → Part) (h : ls ≠ []) :
    completes (ls.map fun l => (l, if c l then LaneMem.part (P l) else .skip)) = true := by
  cases ls with
  | nil => exact absurd rfl h
  | cons l ls => simp only [completes, List.map_cons, List.any_cons, Bool.or_eq_true]; left; split <;> simp_all <;> split at * <;> simp_all

theorem State.modGroup_modGroup (s : State) (u : Nat) (f f' : Group → Group) (hf : ∀ x, (f x).uid = x.uid) :
    (s.modGroup u f).modGroup u f' = s.modGroup u fun x => f' (f x) := by
  unfold State.modGroup mapIf
  simp only [List.map_map]
  congr 1
  apply List.map_congr_left
  intro x _
  simp only [Function.comp]
  by_cases h : x.uid = u
  · simp [h, hf]
  · simp [h]

/-- A memory word whose lanes all pass their checks (R191 to R195). -/
theorem Issues.memWord {s : State} {g : Group} {ls : List Nat} (h : Issues s g ls) (op : Nat) (st : Bool) (k : Nat) (kind : OpKind) (queue : Option QKind)
    (writes : Bool) (f : Nat → Thread → LaneMem) (c : Nat → Bool) (P : Nat → Part) (hu : Unlanded st g ls) (hc : ls.filter c ≠ [])
    (hf : ∀ l ∈ ls, f l (g.thread l) = if c l then .part (P l) else .skip) :
    Machine.memWord s (s.issueFor g ls op st) k kind queue writes f =
      s.boundNext g ls st k { s.newOp g ls k kind with parts := (ls.filter c).map P, cp := (modOf (hintsOf g ls)).cp.toNat }
        (match queue with
          | some q => ((ls.filter c).map P).map fun p => { seq := g.seq, kind := q, op := s.nextId, lane := p.lane }
          | none => []) := by
  have hl : (ls.map fun l => (l, f l (g.thread l))) = ls.map fun l => (l, if c l then LaneMem.part (P l) else .skip) :=
    List.map_congr_left fun l hl => by rw [hf l hl]
  have houts : ((ls.map fun l => (l, f l (g.thread l))).map fun r => (r.1, r.2.toOut (s.issueFor g ls op st) (g.thread r.1))) =
      ls.map fun l => (l, Out.go (g.thread l) (.fall (pcOf g ls))) := by
    rw [hl, List.map_map]
    apply List.map_congr_left
    intro l _
    simp only [Function.comp]
    split <;> rfl
  have hne : ((ls.filter c).map P).isEmpty = false := by
    cases hx : ls.filter c with
    | nil => exact absurd hx hc
    | cons => rfl
  unfold Machine.memWord
  show State.commit _ _ ((ls.map fun l => (l, f l (g.thread l))).map fun r => (r.1, r.2.toOut (s.issueFor g ls op st) (g.thread r.1))) = _
  simp only [show (s.issueFor g ls op st).lanes = ls from rfl, show (s.issueFor g ls op st).g = g from rfl]
  rw [houts, noteParks_go, hl, completes_map ls c P h.nonempty, partsOf_map]
  simp only [if_true, bindWith_eq, hne, Bool.false_eq_true, if_false]
  cases queue with
  | none =>
    refine (h.commitGo (s' := { s with nextId := s.nextId + 1, ops := s.detachedOps g k ++ [{ s.newOp g ls k kind with parts := (ls.filter c).map P, cp := (modOf (hintsOf g ls)).cp.toNat }] }) op st
      (fun g' => { g'.setToken k { st := .pend, op := s.nextId } with seq := g'.seq + 1 }) hu rfl rfl rfl (fun _ => rfl) rfl _ rfl).trans ?_
    simp [State.boundNext, Group.binding, Group.setToken]
  | some q =>
    simp only [enqueueParts]
    rw [State.modGroup_modGroup _ _ _ _ (by intro x; rfl)]
    refine (h.commitGo (s' := { s with nextId := s.nextId + 1, ops := s.detachedOps g k ++ [{ s.newOp g ls k kind with parts := (ls.filter c).map P, cp := (modOf (hintsOf g ls)).cp.toNat }] }) op st
      (fun g' => { g'.setToken k { st := .pend, op := s.nextId } with
        seq := g'.seq + 1, sq := g'.sq ++ ((ls.filter c).map P).map fun p => { seq := g.seq, kind := q, op := s.nextId, lane := p.lane } })
      hu rfl rfl rfl (fun _ => rfl) rfl _ rfl).trans ?_
    simp [State.boundNext, Group.binding, Group.setToken]

/-- A lane of a memory word that passes its checks. -/
theorem memLane_ok {s : State} {g : Group} {ls : List Nat} {op : Nat} {st : Bool} (guard lane : Nat) (regs : List Nat) (va size align : Nat) (k : Access)
    (mk : Phys → Part) (p : Phys) (hf : ∀ r ∈ regs, trackers s g.uid lane r = [])
    (hok : guardOn g ls guard (g.thread lane) = true → va % align = 0 ∧ accessCheck s (s.issueFor g ls op st) lane k va size false = .ok p) :
    memLane s (s.issueFor g ls op st) guard lane (g.thread lane) regs va size align k mk =
      if guardOn g ls guard (g.thread lane) then .part (mk p) else .skip := by
  unfold memLane
  have e : takesPart (s.issueFor g ls op st).hints guard (g.thread lane) = guardOn g ls guard (g.thread lane) := rfl
  rw [e]
  cases hg : guardOn g ls guard (g.thread lane)
  · rfl
  · obtain ⟨h1, h2⟩ := hok hg
    rw [whenFree_free hf]
    simp [skipLane, h1, h2]

end Sys2Proof.Machine
end

