-- ==== Sys2Proof/Laws/Boot.lean ====
section
/-!
SUPPORT. What a start of the firmware, or of recovery, leaves as it is.
-/
namespace Sys2Proof.Machine
open Sys2Proof

/-- The configuration record sets the device's numbers only. -/
theorem State.configure_keeps (s : State) : s.configure.flash = s.flash ∧ s.configure.groups = s.groups ∧ s.configure.contexts = s.contexts ∧ s.configure.ops = s.ops ∧
    s.configure.mem = s.mem ∧ s.configure.floor = s.floor ∧ s.configure.epoch = s.epoch ∧ s.configure.boot = s.boot ∧ s.configure.svn = s.svn ∧ s.configure.measure = s.measure := by
  unfold State.configure
  split
  · simp
  · split <;> simp

/-- A verified image that starts keeps the same, and runs. -/
theorem State.startFirmware_keeps (s : State) (i : Config.BootImage) (b : Bool) : (s.startFirmware i b).flash = s.flash ∧ (s.startFirmware i b).groups = s.groups ∧
    (s.startFirmware i b).contexts = s.contexts ∧ (s.startFirmware i b).ops = s.ops ∧ (s.startFirmware i b).mem = s.mem ∧ (s.startFirmware i b).floor = s.floor ∧
    (s.startFirmware i b).epoch = s.epoch ∧ (s.startFirmware i b).boot = .running ∧ (s.startFirmware i b).svn = i.svn ∧ (s.startFirmware i b).measure = sha256 i.bytes := by
  have h := State.configure_keeps { s with boot := .running, svn := i.svn, measure := sha256 i.bytes, viaRecovery := b }
  simp only [State.startFirmware, State.identity]
  exact h

/-- An image tried keeps flash, memory, the groups and the epoch. -/
theorem State.tryImage_keeps (s : State) (region : Bytes) (b : Bool) : (s.tryImage region b).flash = s.flash ∧ (s.tryImage region b).groups = s.groups ∧
    (s.tryImage region b).contexts = s.contexts ∧ (s.tryImage region b).ops = s.ops ∧ (s.tryImage region b).mem = s.mem ∧ (s.tryImage region b).floor = s.floor ∧
    (s.tryImage region b).epoch = s.epoch := by
  unfold State.tryImage
  split
  · next i _ =>
    obtain ⟨h1, h2, h3, h4, h5, h6, h7, -⟩ := State.startFirmware_keeps s i b
    exact ⟨h1, h2, h3, h4, h5, h6, h7⟩
  · simp [State.putStatus]

end Sys2Proof.Machine
end

