-- ==== Sys2Proof/Laws/Memory.lean ====
section
/-!
SUPPORT. The laws of memory: a read after a write, the frame of a write, and that every operation on memory keeps the canonical form.
-/
namespace Sys2Proof.Machine
open Sys2Proof

/-! ## One byte -/

@[simp] theorem memGet_nil (x : Nat) : memGet [] x = 0#8 := rfl

theorem memGet_cons (a : Nat) (b : Byte) (m : Memory) (x : Nat) : memGet ((a, b) :: m) x = if x = a then b else memGet m x := rfl

theorem memWfFrom_mono {lo lo' : Nat} {m : Memory} (h : memWfFrom lo m = true) (hl : lo' ≤ lo) : memWfFrom lo' m = true := by
  cases m with
  | nil => rfl
  | cons c m => obtain ⟨a, b⟩ := c; simp [memWfFrom] at h ⊢; exact ⟨⟨by omega, h.1.2⟩, h.2⟩

theorem memGet_below {lo x : Nat} {m : Memory} (h : memWfFrom lo m = true) (hx : x < lo) : memGet m x = 0#8 := by
  induction m generalizing lo with
  | nil => rfl
  | cons c m ih =>
    obtain ⟨a, b⟩ := c
    simp [memWfFrom] at h
    rw [memGet_cons, if_neg (by omega)]
    exact ih h.2 (by omega)

/-- A write keeps the canonical form from any address at or below it. -/
theorem memPut_wfFrom {lo x : Nat} {m : Memory} {v : Byte} (h : memWfFrom lo m = true) (hx : lo ≤ x) : memWfFrom lo (memPut m x v) = true := by
  induction m generalizing lo with
  | nil => simp only [memPut]; split <;> simp_all [memWfFrom]
  | cons c m ih =>
    obtain ⟨a, b⟩ := c
    simp [memWfFrom] at h
    obtain ⟨⟨h1, h2⟩, h3⟩ := h
    simp only [memPut]
    split
    · split
      · simp [memWfFrom, h1, h2, h3]
      · rename_i hxa hv
        simp [memWfFrom, hx, hv, h2, h3]; omega
    · split
      · split
        · exact memWfFrom_mono h3 (by omega)
        · rename_i hv; simp [memWfFrom, hv, hx]; subst_vars; exact h3
      · simp [memWfFrom, h1, h2]; exact ih h3 (by omega)

/-- A read after a write. -/
theorem memGet_memPut {lo : Nat} {m : Memory} (h : memWfFrom lo m = true) (x : Nat) (v : Byte) (y : Nat) :
    memGet (memPut m x v) y = if y = x then v else memGet m y := by
  induction m generalizing lo with
  | nil => simp only [memPut]; split <;> simp_all [memGet]
  | cons c m ih =>
    obtain ⟨a, b⟩ := c
    simp [memWfFrom] at h
    obtain ⟨⟨h1, h2⟩, h3⟩ := h
    simp only [memPut]
    split
    · rename_i hxa
      split
      · rename_i hv
        by_cases hy : y = x
        · subst hy
          rw [if_pos rfl, hv, memGet_cons, if_neg (by omega)]
          exact memGet_below h3 (by omega)
        · simp [hy]
      · simp [memGet_cons]
    · split
      · rename_i hxa
        subst hxa
        split
        · rename_i hv
          by_cases hy : y = x
          · subst hy; rw [if_pos rfl, hv]; exact memGet_below h3 (by omega)
          · simp [memGet_cons, hy]
        · simp only [memGet_cons]; split <;> rfl
      · rename_i hlt hne
        simp only [memGet_cons, ih h3]
        by_cases hy : y = a
        · subst hy; simp; omega
        · simp [hy]

/-! ## Bytes in a row -/

/-- Memory of the canonical form keeps it through a write of bytes. -/
theorem putBytes_wf {m : Memory} (h : m.wf = true) (a : Nat) (bs : Bytes) : (putBytes m a bs).wf = true := by
  induction bs generalizing m a with
  | nil => exact h
  | cons b bs ih => exact ih (memPut_wfFrom h (by omega)) (a + 1)

theorem memPut_wf {m : Memory} (h : m.wf = true) (a : Nat) (b : Byte) : (memPut m a b).wf = true := memPut_wfFrom h (by omega)

/-- A byte after a write of bytes. -/
theorem memGet_putBytes {m : Memory} (h : m.wf = true) (a : Nat) (bs : Bytes) (y : Nat) :
    memGet (putBytes m a bs) y = if a ≤ y ∧ y < a + bs.length then bs.getD (y - a) 0#8 else memGet m y := by
  induction bs generalizing m a with
  | nil => rw [if_neg (by simp only [List.length_nil]; omega)]; rfl
  | cons b bs ih =>
    simp only [putBytes]
    rw [ih (memPut_wf h a b), memGet_memPut h]
    by_cases hy : y = a
    · subst hy; rw [if_neg (by omega), if_pos rfl, if_pos (by simp)]; simp
    · by_cases hin : a + 1 ≤ y ∧ y < a + 1 + bs.length
      · have : y - a = (y - (a + 1)) + 1 := by omega
        rw [if_pos hin, if_pos (by simp; omega), this]; simp
      · rw [if_neg hin, if_neg hy, if_neg (by simp; omega)]

@[simp] theorem getBytes_length (m : Memory) (a n : Nat) : (getBytes m a n).length = n := by
  induction n generalizing a with
  | zero => rfl
  | succ n ih => simp [getBytes, ih]

theorem getBytes_getD (m : Memory) (a n i : Nat) (h : i < n) : (getBytes m a n).getD i 0#8 = memGet m (a + i) := by
  induction n generalizing a i with
  | zero => omega
  | succ n ih =>
    cases i with
    | zero => simp [getBytes]
    | succ i => simp only [getBytes, List.getD_cons_succ]; rw [ih _ _ (by omega)]; congr 1; omega

/-- The canonical form outlasts a line's write back. -/
theorem writeDirty_wf {m : Memory} (h : m.wf = true) (pa : Nat) (bs : Bytes) (ds : List Bool) : (writeDirty m pa bs ds).wf = true := by
  induction bs generalizing m pa ds with
  | nil => cases ds <;> exact h
  | cons b bs ih =>
    cases ds with
    | nil => exact h
    | cons d ds =>
      simp only [writeDirty]
      apply ih
      split
      · exact memPut_wf h _ _
      · exact h

/-- Memories of the canonical form that read alike are equal. -/
theorem memory_ext {lo lo' : Nat} {m m' : Memory} (h : memWfFrom lo m = true) (h' : memWfFrom lo' m' = true) (e : ∀ x, memGet m x = memGet m' x) : m = m' := by
  induction m generalizing lo lo' m' with
  | nil =>
    cases m' with
    | nil => rfl
    | cons c m' =>
      obtain ⟨a, b⟩ := c
      simp [memWfFrom] at h'
      have := e a
      simp [memGet_cons] at this
      exact absurd this.symm h'.1.2
  | cons c m ih =>
    obtain ⟨a, b⟩ := c
    simp [memWfFrom] at h
    cases m' with
    | nil =>
      have := e a
      simp [memGet_cons] at this
      exact absurd this h.1.2
    | cons c' m' =>
      obtain ⟨a', b'⟩ := c'
      simp [memWfFrom] at h'
      have haa : a = a' := by
        rcases Nat.lt_trichotomy a a' with hlt | heq | hgt
        · have := e a
          rw [memGet_cons, if_pos rfl, memGet_cons, if_neg (by omega), memGet_below h'.2 (by omega)] at this
          exact absurd this h.1.2
        · exact heq
        · have := e a'
          rw [memGet_cons, if_neg (by omega), memGet_below h.2 (by omega), memGet_cons, if_pos rfl] at this
          exact absurd this.symm h'.1.2
      subst haa
      have hb : b = b' := by have := e a; simpa [memGet_cons] using this
      subst hb
      congr 1
      apply ih h.2 h'.2
      intro x
      by_cases hx : x = a
      · subst hx; rw [memGet_below h.2 (by omega), memGet_below h'.2 (by omega)]
      · have := e x; simpa [memGet_cons, hx] using this

@[simp] theorem natLe_length (n x : Nat) : (natLe n x).length = n := by
  induction n generalizing x with
  | zero => rfl
  | succ n ih => simp [natLe, ih]

/-- The number that its own little-endian bytes hold. -/
theorem leNat_natLe (n x : Nat) : leNat (natLe n x) = x % 256 ^ n := by
  induction n generalizing x with
  | zero => simp [natLe, leNat, Nat.mod_one]
  | succ n ih =>
    simp only [natLe, leNat, ih, Nat.pow_succ 256 n, BitVec.toNat_ofNat]
    rw [Nat.mul_comm (256 ^ n) 256, Nat.mod_mul]

/-- Bytes read where they were written. -/
theorem getBytes_putBytes {m : Memory} (h : m.wf = true) (a : Nat) (xs ys zs : Bytes) :
    getBytes (putBytes m a (xs ++ ys ++ zs)) (a + xs.length) ys.length = ys := by
  apply List.ext_getElem?
  intro i
  by_cases hi : i < ys.length
  · have h1 : (getBytes (putBytes m a (xs ++ ys ++ zs)) (a + xs.length) ys.length)[i]? =
        some ((getBytes (putBytes m a (xs ++ ys ++ zs)) (a + xs.length) ys.length).getD i 0#8) := by
      simp [List.getD_eq_getElem?_getD, hi]
    rw [h1, getBytes_getD _ _ _ _ hi, memGet_putBytes h, if_pos (by simp only [List.length_append]; omega)]
    have e : a + xs.length + i - a = xs.length + i := by omega
    rw [e, List.getD_eq_getElem?_getD, List.append_assoc, List.getElem?_append_right (by omega)]
    rw [show xs.length + i - xs.length = i by omega, List.getElem?_append_left hi]
    simp [hi]
  · simp [hi]

/-- A little-endian field read where it was written. -/
theorem getLe_putBytes {m : Memory} (h : m.wf = true) (a : Nat) (xs zs : Bytes) (n x : Nat) :
    getLe (putBytes m a (xs ++ natLe n x ++ zs)) (a + xs.length) n = x % 256 ^ n := by
  have := getBytes_putBytes h a xs (natLe n x) zs
  rw [natLe_length] at this
  rw [getLe, this, leNat_natLe]

end Sys2Proof.Machine
end

