-- ==== Sys2Proof/Laws/Caches.lean ====
section
/-!
SUPPORT. What bringing lines near can do (R186, R209): the lines of one cluster's caches come and go, dirty bytes that make room go home, and nothing else of
the device changes.
-/
namespace Sys2Proof.Machine
open Sys2Proof

/-- A byte of memory after the dirty bytes of a line have gone home. -/
theorem memGet_writeDirty {m : Memory} (h : m.wf = true) (pa : Nat) (bs : Bytes) (ds : List Bool) (y : Nat) :
    memGet (writeDirty m pa bs ds) y = if pa ≤ y ∧ y < pa + bs.length ∧ ds.getD (y - pa) false = true then bs.getD (y - pa) 0#8 else memGet m y := by
  induction bs generalizing m pa ds with
  | nil => simp [writeDirty]; omega
  | cons b bs ih =>
    cases ds with
    | nil => simp [writeDirty]
    | cons d ds =>
      simp only [writeDirty]
      rw [ih (by split; exact memPut_wf h pa b; exact h)]
      rcases Nat.lt_trichotomy y pa with hy | hy | hy
      · have : ¬ pa ≤ y := by omega
        have : ¬ pa + 1 ≤ y := by omega
        cases d <;> simp [*, memGet_memPut (lo := 0) h, Nat.ne_of_lt hy]
      · subst hy
        cases d <;> simp [memGet_memPut (lo := 0) h] <;> (intro; omega)
      · obtain ⟨k, rfl⟩ : ∃ k, y = pa + 1 + k := ⟨y - (pa + 1), by omega⟩
        have e1 : pa + 1 + k - (pa + 1) = k := by omega
        have e2 : pa + 1 + k - pa = k + 1 := by omega
        have e3 : pa + 1 + k ≠ pa := by omega
        have e4 : pa ≤ pa + 1 + k := by omega
        have e5 : (pa + 1 + k < pa + 1 + bs.length) ↔ (pa + 1 + k < pa + (bs.length + 1)) := by omega
        cases d <;> simp [e1, e2, e3, e4, e5, memGet_memPut (lo := 0) h]

/-- What bringing lines near can do: only the caches of the cluster have other lines, and a byte of memory that has changed has taken the value of a dirty
byte that went home. -/
structure NearOnly (clu : Nat) (s t : State) : Prop where
  rest  : ∃ l1 cc l2 mem free, t = { s with l1 := l1, cc := cc, l2 := l2, mem := mem, free := free }
  lines : ∀ x : L1Line, clusterOf x.core ≠ clu → (x ∈ t.l1 ↔ x ∈ s.l1)
  cache : ∀ x : CCLine, x.clu ≠ clu → (x ∈ t.cc ↔ x ∈ s.cc)
  clean : ∀ x ∈ t.cc, x.clu = clu → x ∈ s.cc ∨ x.dirty.any id = false
  wf    : s.mem.wf = true → t.mem.wf = true
  mem   : s.mem.wf = true → ∀ a, memGet t.mem a ≠ memGet s.mem a →
    ∃ l ∈ s.cc, l.clu = clu ∧ ∃ i < l.data.length, a = l.pa + i ∧ l.dirty.getD i false = true ∧ memGet t.mem a = l.data.getD i 0#8

theorem NearOnly.refl (clu : Nat) (s : State) : NearOnly clu s s :=
  ⟨⟨_, _, _, _, _, rfl⟩, fun _ _ => .rfl, fun _ _ => .rfl, fun _ h _ => .inl h, id, fun _ _ h => (h rfl).elim⟩

theorem NearOnly.trans {clu : Nat} {s t u : State} (h : NearOnly clu s t) (k : NearOnly clu t u) : NearOnly clu s u := by
  refine ⟨?_, fun x hx => (k.lines x hx).trans (h.lines x hx), fun x hx => (k.cache x hx).trans (h.cache x hx), ?_, fun w => k.wf (h.wf w), ?_⟩
  · obtain ⟨a, b, c, d, e, rfl⟩ := h.rest
    obtain ⟨a, b, c, d, e, rfl⟩ := k.rest
    exact ⟨_, _, _, _, _, rfl⟩
  · intro x hx hc
    rcases k.clean x hx hc with hx | hx
    · exact h.clean x hx hc
    · exact .inr hx
  · intro w a ha
    by_cases e : memGet u.mem a = memGet t.mem a
    · obtain ⟨l, hl, hc, i, hi, hp, hd, hv⟩ := h.mem w a (e ▸ ha)
      exact ⟨l, hl, hc, i, hi, hp, hd, e.trans hv⟩
    · obtain ⟨l, hl, hc, i, hi, hp, hd, hv⟩ := k.mem (h.wf w) a e
      rcases h.clean l hl hc with hl | hl
      · exact ⟨l, hl, hc, i, hi, hp, hd, hv⟩
      · rw [List.any_eq_false] at hl
        have hlt : i < l.dirty.length := Nat.lt_of_not_le fun hn => by
          simp [List.getD_eq_getElem?_getD, List.getElem?_eq_none hn] at hd
        have hf := hl l.dirty[i] (List.getElem_mem hlt)
        simp [List.getD_eq_getElem?_getD, hlt] at hd
        exact (hf hd).elim

theorem State.writeBack_nearOnly (s : State) (clu pa : Nat) : NearOnly clu s (s.writeBack clu pa) := by
  unfold State.writeBack
  cases hl : s.ccLine? clu pa with
  | none => exact .refl clu s
  | some l =>
    have hm : l ∈ s.cc := List.mem_of_find?_eq_some hl
    have hc : l.clu = clu := by have := List.find?_some hl; simp at this; exact this.1
    by_cases hd : l.dirty.any id
    · simp only [hd, if_true, State.tagLine]
      refine ⟨⟨_, _, _, _, _, rfl⟩, fun _ _ => .rfl, ?_, ?_, fun w => writeDirty_wf w _ _ _, ?_⟩
      · intro x hx
        simp only [mapIf, List.mem_map]
        constructor
        · rintro ⟨y, hy, rfl⟩
          split at hx <;> rename_i h
          · simp at h; exact (hx h.1).elim
          · rw [if_neg h]; exact hy
        · intro hy
          exact ⟨x, hy, if_neg (by simp [hx])⟩
      · intro x hx _
        simp only [mapIf, List.mem_map] at hx
        obtain ⟨y, hy, rfl⟩ := hx
        split
        · right; simp [List.any_eq_false]
        · exact .inl hy
      · intro w a ha
        simp only [memGet_writeDirty w] at ha ⊢
        split at ha <;> rename_i h
        · exact ⟨l, hm, hc, a - l.pa, by omega, by omega, h.2.2, if_pos h⟩
        · exact (ha rfl).elim
    · simp only [hd]; exact .refl clu s

theorem State.dropLine_nearOnly (s : State) (clu pa : Nat) : NearOnly clu s (s.dropLine clu pa) := by
  refine (s.writeBack_nearOnly clu pa).trans ?_
  unfold State.dropLine
  refine ⟨⟨_, _, _, _, _, rfl⟩, ?_, ?_, ?_, id, fun _ _ h => (h rfl).elim⟩
  · intro x hx; simp [List.mem_filter, hx]
  · intro x hx; simp [List.mem_filter, hx]
  · intro x hx _; exact .inl (List.mem_filter.mp hx).1

theorem State.ccRoom_nearOnly (s : State) (clu : Nat) : NearOnly clu s (s.ccRoom clu) := by
  unfold State.ccRoom
  simp only
  split
  · exact .refl clu s
  · split
    · refine NearOnly.trans (t := { s with free := s.free + 1 }) ⟨⟨_, _, _, _, _, rfl⟩, fun _ _ => .rfl, fun _ _ => .rfl, fun _ h _ => .inl h, id, fun _ _ h => (h rfl).elim⟩ ?_
      exact State.dropLine_nearOnly _ clu _
    · exact .refl clu s

theorem State.allocCC_nearOnly (s : State) (clu pa asid : Nat) : NearOnly clu s (s.allocCC clu pa asid) := by
  unfold State.allocCC
  split
  · exact .refl clu s
  · refine (s.ccRoom_nearOnly clu).trans ⟨⟨_, _, _, _, _, rfl⟩, fun _ _ => .rfl, ?_, ?_, id, fun _ _ h => (h rfl).elim⟩
    · intro x hx
      simp only [List.mem_cons, or_iff_right_iff_imp]
      rintro rfl; exact (hx rfl).elim
    · intro x hx _
      rcases List.mem_cons.mp hx with rfl | hx
      · exact .inr (List.any_eq_false.mpr fun b hb => by simp [List.eq_of_mem_replicate hb])
      · exact .inl hx

/-- Other L1 lines of a cluster's cores. -/
theorem NearOnly.l1 {core : Nat} {s : State} {ls : List L1Line} (h : ∀ x : L1Line, clusterOf x.core ≠ clusterOf core → (x ∈ ls ↔ x ∈ s.l1)) :
    NearOnly (clusterOf core) s { s with l1 := ls } :=
  ⟨⟨_, _, _, _, _, rfl⟩, h, fun _ _ => .rfl, fun _ h _ => .inl h, id, fun _ _ h => (h rfl).elim⟩

theorem State.fillL1_nearOnly (s : State) (core asid va pa : Nat) (t : Tlb) : NearOnly (clusterOf core) s (s.fillL1 core asid va pa t) := by
  have room : ∀ s : State, NearOnly (clusterOf core) s (s.l1Room core) := by
    intro s
    unfold State.l1Room
    simp only
    split
    · exact .refl _ s
    · split
      · refine ⟨⟨_, _, _, _, _, rfl⟩, ?_, fun _ _ => .rfl, fun _ h _ => .inl h, id, fun _ _ h => (h rfl).elim⟩
        intro x hx
        have : x.core ≠ core := fun h => hx (h ▸ rfl)
        simp [List.mem_filter, this]
      · exact .refl _ s
  unfold State.fillL1
  refine (NearOnly.l1 (core := core) ?_).trans ((room _).trans (NearOnly.l1 ?_))
  · intro x hx
    have : x.core ≠ core := fun h => hx (h ▸ rfl)
    simp [List.mem_filter, hx, this]
  · intro x hx
    simp only [List.mem_cons, or_iff_right_iff_imp]
    rintro rfl; exact (hx rfl).elim

theorem State.prfLine_nearOnly (s : State) (x : Issue) (lvl va pa : Nat) (t : Tlb) : NearOnly (clusterOf x.g.core) s (s.prfLine x lvl va pa t) := by
  unfold State.prfLine
  refine NearOnly.trans (t := if lvl < 2 then s.allocCC (clusterOf x.g.core) pa x.g.asid else s) ?_ ?_
  · split
    · exact State.allocCC_nearOnly ..
    · exact .refl _ s
  · simp only
    generalize (if lvl < 2 then s.allocCC (clusterOf x.g.core) pa x.g.asid else s) = s'
    split
    · exact State.fillL1_nearOnly ..
    · exact .refl _ s'

/-- Lines brought near (R209). -/
theorem prfLines_nearOnly (x : Issue) (lvl : Nat) (vas : List Nat) (s : State) : NearOnly (clusterOf x.g.core) s (prfLines x lvl vas s) := by
  induction vas generalizing s with
  | nil => exact .refl _ s
  | cons va rest ih =>
    unfold prfLines
    refine NearOnly.trans ?_ (ih _)
    repeat' split
    all_goals first | exact .refl _ s | exact State.prfLine_nearOnly ..

/-- To L2 a `PRF` brings nothing that the model holds: an L2 line is its home's own bytes. -/
theorem prfLines_l2 (x : Issue) (lvl : Nat) (h : 2 ≤ lvl) (vas : List Nat) (s : State) : prfLines x lvl vas s = s := by
  induction vas with
  | nil => rfl
  | cons va rest ih =>
    have e : ∀ va pa t, s.prfLine x lvl va pa t = s := by
      intro va pa t
      have h1 : ¬ lvl < 2 := by omega
      have h2 : ¬ lvl = 0 := by omega
      simp [State.prfLine, h1, h2]
    unfold prfLines
    simp only [e, ite_self]
    refine Eq.trans (congrArg (prfLines x lvl rest) ?_) ih
    split
    · split <;> rfl
    · rfl

end Sys2Proof.Machine
end

