-- ==== Sys2Proof/Laws/Canonical.lean ====
section
/-!
SUPPORT. Canonical form: the operations that the meanings share keep the canonical form of the device's memories (log entry 1).
`f_canon` says it of `f`, in the order of the model's files.
-/
namespace Sys2Proof.Machine
open Sys2Proof
set_option Elab.async false

/-! ## Ops -/

/-- The device's memories have the canonical form. -/
def State.Canon (s : State) : Prop := s.mem.wf = true ∧ s.mbox.wf = true ∧ s.recWin.wf = true

theorem State.Canon.mem {s : State} (h : s.Canon) : s.mem.wf = true := h.1
theorem State.Canon.mbox {s : State} (h : s.Canon) : s.mbox.wf = true := h.2.1
theorem State.Canon.recWin {s : State} (h : s.Canon) : s.recWin.wf = true := h.2.2
/-- A state is canonical when its three memories are. -/
theorem State.canon_mk {x0} {x1} {x2} {x3} {x4} {x5} {x6} {x7} {x8} {x9} {x10} {x11} {m} {x13} {x14} {x15} {x16} {x17} {x18} {x19} {x20} {x21} {x22}
    {x23} {x24} {x25} {x26} {x27} {x28} {x29} {x30} {x31} {x32} {x33} {x34} {x35} {x36} {x37} {x38} {x39} {x40} {x41} {x42} {x43} {x44} {x45} {x46}
    {x47} {x48} {x49} {x50} {x51} {x52} {x53} {x54} {x55} {x56} {x57} {x58} {x59} {x60} {x61} {x62} {x63} {x64} {x65} {b} {x67} {x68} {x69} {x70}
    {x71} {x72} {x73} {x74} {x75} {x76} {x77} {x78} {x79} {x80} {x81} {x82} {x83} {x84} {x85} {x86} {x87} {x88} {r} {x90} {x91} {x92} {x93} :
    (State.mk x0 x1 x2 x3 x4 x5 x6 x7 x8 x9 x10 x11 m x13 x14 x15 x16 x17 x18 x19 x20 x21 x22 x23 x24 x25 x26 x27 x28 x29 x30 x31 x32 x33 x34 x35 x36
        x37 x38 x39 x40 x41 x42 x43 x44 x45 x46 x47 x48 x49 x50 x51 x52 x53 x54 x55 x56 x57 x58 x59 x60 x61 x62 x63 x64 x65 b x67 x68 x69 x70 x71 x72
        x73 x74 x75 x76 x77 x78 x79 x80 x81 x82 x83 x84 x85 x86 x87 x88 r x90 x91 x92 x93).Canon ↔ (m.wf = true ∧ b.wf = true ∧ r.wf = true) :=
        Iff.rfl

theorem State.canon_iff {s : State} : s.Canon ↔ s.memWf := Iff.rfl

theorem State.reset_canon : State.reset.Canon := ⟨rfl, rfl, rfl⟩
theorem foldl_canon {α : Type} {f : State → α → State} {l : List α} {s : State} (hf : ∀ s x, s.Canon → (f s x).Canon) (h : s.Canon) :
    (l.foldl f s).Canon := by
  induction l generalizing s with
  | nil => exact h
  | cons x l ih => exact ih (hf s x h)
theorem foldl_wf {α : Type} {f : Memory → α → Memory} {l : List α} {m : Memory} (hf : ∀ m x, m.wf = true → (f m x).wf = true) (h : m.wf = true) :
    (l.foldl f m).wf = true := by
  induction l generalizing m with
  | nil => exact h
  | cons x l ih => exact ih (hf m x h)
/-- A next state, when there is one, has the canonical form. -/
def OutCanon : Host.Outcome State Fault Refusal → Prop
  | .next s => s.Canon
  | _ => True
theorem OutCanon.next {s : State} (h : s.Canon) : OutCanon (.next s) := h
theorem OutCanon.fault {f : Fault} : OutCanon (.fault f) := trivial
theorem OutCanon.refused {f : Refusal} : OutCanon (.refused f) := trivial
/-- A state, when there is one, has the canonical form. -/
def OptCanon : Option State → Prop
  | some s => s.Canon
  | none => True
theorem OptCanon.some {s : State} (h : s.Canon) : OptCanon (some s) := h
theorem OptCanon.none : OptCanon none := trivial
theorem opt_canon {o : Option State} {s : State} (e : o = some s) (h : OptCanon o) : s.Canon := by subst e; exact h
theorem out_canon {o : Host.Outcome State Fault Refusal} {s : State} (e : o = .next s) (h : OutCanon o) : s.Canon := by subst e; exact h
theorem fst_canon {α : Type} {p : State × α} {s : State} {x : α} (e : p = (s, x)) (h : p.1.Canon) : s.Canon := by subst e; exact h
theorem snd_canon {α : Type} {p : α × State} {s : State} {x : α} (e : p = (x, s)) (h : p.2.Canon) : s.Canon := by subst e; exact h

theorem State.setGroup_canon (s : State) (g : Group) (hc : s.Canon) : (State.setGroup s g).Canon := by
  unfold State.setGroup
  repeat' with_reducible first
      | assumption | (simp only [State.canon_mk]; refine ⟨?_, ?_, ?_⟩) | apply State.Canon.mem | apply State.Canon.mbox | apply State.Canon.recWin

theorem State.modGroup_canon (s : State) (u : Nat) (f : Group → Group) (hc : s.Canon) : (State.modGroup s u f).Canon := by
  unfold State.modGroup
  repeat' with_reducible first
      | assumption | (simp only [State.canon_mk]; refine ⟨?_, ?_, ?_⟩) | apply State.Canon.mem | apply State.Canon.mbox | apply State.Canon.recWin

theorem State.modTeam_canon (s : State) (u : Nat) (f : Team → Team) (hc : s.Canon) : (State.modTeam s u f).Canon := by
  unfold State.modTeam
  repeat' with_reducible first
      | assumption | (simp only [State.canon_mk]; refine ⟨?_, ?_, ?_⟩) | apply State.Canon.mem | apply State.Canon.mbox | apply State.Canon.recWin

theorem State.modLaunch_canon (s : State) (u : Nat) (f : Launch → Launch) (hc : s.Canon) : (State.modLaunch s u f).Canon := by
  unfold State.modLaunch
  repeat' with_reducible first
      | assumption | (simp only [State.canon_mk]; refine ⟨?_, ?_, ?_⟩) | apply State.Canon.mem | apply State.Canon.mbox | apply State.Canon.recWin

theorem State.modCtx_canon (s : State) (asid : Nat) (f : Context → Context) (hc : s.Canon) : (State.modCtx s asid f).Canon := by
  unfold State.modCtx
  repeat' with_reducible first
      | assumption | (simp only [State.canon_mk]; refine ⟨?_, ?_, ?_⟩) | apply State.Canon.mem | apply State.Canon.mbox | apply State.Canon.recWin

theorem State.modOp_canon (s : State) (id : Nat) (f : Op → Op) (hc : s.Canon) : (State.modOp s id f).Canon := by
  unfold State.modOp
  repeat' with_reducible first
      | assumption | (simp only [State.canon_mk]; refine ⟨?_, ?_, ?_⟩) | apply State.Canon.mem | apply State.Canon.mbox | apply State.Canon.recWin

theorem State.modPart_canon (s : State) (id lane : Nat) (f : Part → Part) (hc : s.Canon) : (State.modPart s id lane f).Canon := by
  unfold State.modPart
  repeat' with_reducible first
      | assumption | apply State.modOp_canon

theorem State.modGather_canon (s : State) (id : Nat) (f : Gather → Gather) (hc : s.Canon) : (State.modGather s id f).Canon := by
  unfold State.modGather
  repeat' with_reducible first
      | assumption | (simp only [State.canon_mk]; refine ⟨?_, ?_, ?_⟩) | apply State.Canon.mem | apply State.Canon.mbox | apply State.Canon.recWin

theorem State.bump_canon (s : State) (hc : s.Canon) : (State.bump s).Canon := by
  unfold State.bump
  repeat' with_reducible first
      | assumption | (simp only [State.canon_mk]; refine ⟨?_, ?_, ?_⟩) | apply State.Canon.mem | apply State.Canon.mbox | apply State.Canon.recWin

theorem State.putLocalByte_canon (s : State) (pa : Nat) (b : Byte) (hc : s.Canon) : (State.putLocalByte s pa b).Canon := by
  unfold State.putLocalByte
  repeat' with_reducible first
      | assumption | apply State.setGroup_canon | dsimp only | (simp only [State.canon_mk]; refine ⟨?_, ?_, ?_⟩) | apply memPut_wf
      | apply State.Canon.mem | apply State.Canon.mbox | apply State.Canon.recWin | split

theorem State.putLocal_canon (s : State) (pa : Nat) (a0 : Bytes) (hc : s.Canon) : (State.putLocal s pa a0).Canon := by
  induction a0 generalizing s pa with
  | nil =>
    unfold State.putLocal
    repeat' with_reducible first
        | assumption
  | cons x l ih =>
    unfold State.putLocal
    repeat' with_reducible first
        | assumption | apply ih | apply State.putLocalByte_canon

theorem State.tagLine_canon (s : State) (line tag : Nat) (hc : s.Canon) : (State.tagLine s line tag).Canon := by
  unfold State.tagLine
  repeat' with_reducible first
      | assumption | (simp only [State.canon_mk]; refine ⟨?_, ?_, ?_⟩) | apply State.Canon.mem | apply State.Canon.mbox | apply State.Canon.recWin

theorem State.tagLines_canon (s : State) (line tag : Nat) (a0 : Nat) (hc : s.Canon) : (State.tagLines s line tag a0).Canon := by
  induction a0 generalizing s line tag with
  | zero =>
    unfold State.tagLines
    repeat' with_reducible first
        | assumption
  | succ n ih =>
    unfold State.tagLines
    repeat' with_reducible first
        | assumption | apply ih | apply State.tagLine_canon

theorem State.tagExtent_canon (s : State) (tag pa n : Nat) (hc : s.Canon) : (State.tagExtent s tag pa n).Canon := by
  unfold State.tagExtent
  repeat' with_reducible first
      | assumption | apply State.tagLines_canon

theorem State.homeWrite_canon (s : State) (tag pa : Nat) (bs : Bytes) (hc : s.Canon) : (State.homeWrite s tag pa bs).Canon := by
  unfold State.homeWrite
  repeat' with_reducible first
      | assumption | apply State.putLocal_canon | apply State.tagExtent_canon | (simp only [State.canon_mk]; refine ⟨?_, ?_, ?_⟩)
      | apply putBytes_wf | apply State.Canon.mem | apply State.Canon.mbox | apply State.Canon.recWin | split

theorem State.writeBack_canon (s : State) (clu pa : Nat) (hc : s.Canon) : (State.writeBack s clu pa).Canon := by
  unfold State.writeBack
  repeat' with_reducible first
      | assumption | apply State.tagLine_canon | (simp only [State.canon_mk]; refine ⟨?_, ?_, ?_⟩) | apply writeDirty_wf | apply State.Canon.mem
      | apply State.Canon.mbox | apply State.Canon.recWin | split

theorem State.writeBackAll_canon (s : State) (clu : Nat) (hc : s.Canon) : (State.writeBackAll s clu).Canon := by
  unfold State.writeBackAll
  repeat' with_reducible first
      | assumption | intro _ | apply State.writeBack_canon | apply foldl_canon

theorem State.dropLine_canon (s : State) (clu pa : Nat) (hc : s.Canon) : (State.dropLine s clu pa).Canon := by
  unfold State.dropLine
  repeat' with_reducible first
      | assumption | apply State.writeBack_canon | (simp only [State.canon_mk]; refine ⟨?_, ?_, ?_⟩) | apply State.Canon.mem
      | apply State.Canon.mbox | apply State.Canon.recWin

theorem State.dropExtent_canon (s : State) (clu pa n : Nat) (hc : s.Canon) : (State.dropExtent s clu pa n).Canon := by
  unfold State.dropExtent
  repeat' with_reducible first
      | assumption | intro _ | apply State.dropLine_canon | apply foldl_canon

theorem State.release_canon (s : State) (clu : Nat) (scope : Nat) (hc : s.Canon) : (State.release s clu scope).Canon := by
  unfold State.release
  repeat' with_reducible first
      | assumption | apply State.writeBackAll_canon | split

theorem State.acquire_canon (s : State) (core : Nat) (scope : Nat) (hc : s.Canon) : (State.acquire s core scope).Canon := by
  unfold State.acquire
  repeat' with_reducible first
      | assumption | apply State.writeBackAll_canon | (simp only [State.canon_mk]; refine ⟨?_, ?_, ?_⟩) | apply State.Canon.mem
      | apply State.Canon.mbox | apply State.Canon.recWin | split

theorem State.count_canon (s : State) (core asid team event n : Nat) (hc : s.Canon) : (State.count s core asid team event n).Canon := by
  unfold State.count
  repeat' with_reducible first
      | assumption | (simp only [State.canon_mk]; refine ⟨?_, ?_, ?_⟩) | apply State.Canon.mem | apply State.Canon.mbox | apply State.Canon.recWin
      | dsimp only | split

theorem State.putBox_canon (s : State) (off n x : Nat) (hc : s.Canon) : (State.putBox s off n x).Canon := by
  unfold State.putBox
  repeat' with_reducible first
      | assumption | (simp only [State.canon_mk]; refine ⟨?_, ?_, ?_⟩) | apply putBytes_wf | apply State.Canon.mem | apply State.Canon.mbox
      | apply State.Canon.recWin

theorem State.msix_canon (s : State) (vec : Nat) (hc : s.Canon) : (State.msix s vec).Canon := by
  unfold State.msix
  repeat' with_reducible first
      | assumption | (simp only [State.canon_mk]; refine ⟨?_, ?_, ?_⟩) | apply State.Canon.mem | apply State.Canon.mbox | apply State.Canon.recWin
      | split

theorem State.logEvent_canon (s : State) (code asid : Nat) (data : Bytes) (hc : s.Canon) : (State.logEvent s code asid data).Canon := by
  unfold State.logEvent
  repeat' with_reducible first
      | assumption | apply State.putBox_canon | (simp only [State.canon_mk]; refine ⟨?_, ?_, ?_⟩) | apply putBytes_wf | apply State.Canon.mem
      | apply State.Canon.mbox | apply State.Canon.recWin

theorem postReplies_canon (a0 : Nat) (a1 : State) (hc : a1.Canon) : (postReplies a0 a1).Canon := by
  induction a0 generalizing a1 with
  | zero =>
    unfold postReplies
    repeat' with_reducible first
        | assumption
  | succ n ih =>
    unfold postReplies
    repeat' with_reducible first
        | assumption | apply ih | apply State.putBox_canon | apply State.msix_canon | dsimp only | (simp only [State.canon_mk]; refine ⟨?_, ?_, ?_⟩)
        | apply putBytes_wf | apply State.Canon.mem | apply State.Canon.mbox | apply State.Canon.recWin | split

theorem State.post_canon (s : State) (opc status seq asid : Nat) (payload : Bytes) (hc : s.Canon) : (State.post s opc status seq asid payload).Canon
    := by
  unfold State.post
  repeat' with_reducible first
      | assumption | apply postReplies_canon | (simp only [State.canon_mk]; refine ⟨?_, ?_, ?_⟩) | apply State.Canon.mem | apply State.Canon.mbox
      | apply State.Canon.recWin

theorem State.countPacket_canon (s : State) (p : Packet) (event n : Nat) (hc : s.Canon) : (State.countPacket s p event n).Canon := by
  unfold State.countPacket
  repeat' with_reducible first
      | assumption | apply State.count_canon

theorem State.dropPacket_canon (s : State) (p : Packet) (hc : s.Canon) : (State.dropPacket s p).Canon := by
  unfold State.dropPacket
  repeat' with_reducible first
      | assumption | apply State.countPacket_canon | apply State.count_canon | apply State.logEvent_canon

theorem State.egress_canon (s : State) (p : Packet) (hc : s.Canon) : (State.egress s p).1.Canon := by
  unfold State.egress
  repeat' with_reducible first
      | assumption | apply State.countPacket_canon | apply State.count_canon | dsimp only | (simp only [State.canon_mk]; refine ⟨?_, ?_, ?_⟩)
      | apply State.Canon.mem | apply State.Canon.mbox | apply State.Canon.recWin | split

theorem State.emitOn_canon (s : State) (port : Nat) (p : Packet) (hc : s.Canon) : (State.emitOn s port p).Canon := by
  unfold State.emitOn
  repeat' with_reducible first
      | assumption | apply State.countPacket_canon | apply State.count_canon | apply State.dropPacket_canon | apply State.egress_canon
      | (simp only [State.canon_mk]; refine ⟨?_, ?_, ?_⟩) | apply State.Canon.mem | apply State.Canon.mbox | apply State.Canon.recWin | dsimp only
      | split

theorem State.emit_canon (s : State) (p : Packet) (hc : s.Canon) : (State.emit s p).Canon := by
  unfold State.emit
  repeat' with_reducible first
      | assumption | apply State.dropPacket_canon | apply State.emitOn_canon | split

theorem State.send_canon (s : State) (p : Packet) (resend : Option Nat) (hc : s.Canon) : (State.send s p resend).1.Canon := by
  unfold State.send
  repeat' with_reducible first
      | assumption | apply State.emit_canon | split

theorem State.request_canon (s : State) (p : Packet) (owner : ReqFor) (asid grp : Nat) (hc : s.Canon) : (State.request s p owner asid grp).1.Canon
    := by
  unfold State.request
  repeat' with_reducible first
      | assumption | apply State.bump_canon | apply State.emit_canon | dsimp only | (simp only [State.canon_mk]; refine ⟨?_, ?_, ?_⟩)
      | apply State.Canon.mem | apply State.Canon.mbox | apply State.Canon.recWin | split

theorem State.sendReq_canon (s : State) (r : Req) (nm : Bool) (via : Nat) (hc : s.Canon) : (State.sendReq s r nm via).Canon := by
  unfold State.sendReq
  repeat' with_reducible first
      | assumption | apply State.emit_canon | (simp only [State.canon_mk]; refine ⟨?_, ?_, ?_⟩) | apply State.Canon.mem | apply State.Canon.mbox
      | apply State.Canon.recWin

theorem sendHeld_canon (a0 : List Req) (a1 : List Req) (a2 : State) (hc : a2.Canon) : (sendHeld a0 a1 a2).Canon := by
  induction a1 generalizing a0 a2 with
  | nil =>
    unfold sendHeld
    repeat' with_reducible first
        | assumption | apply State.sendReq_canon | split
  | cons x l ih =>
    unfold sendHeld
    repeat' with_reducible first
        | assumption | apply ih | apply State.sendReq_canon | split

theorem State.answered_canon (s : State) (txid : Word) (hc : s.Canon) : (State.answered s txid).Canon := by
  unfold State.answered
  repeat' with_reducible first
      | assumption | apply sendHeld_canon | dsimp only | (simp only [State.canon_mk]; refine ⟨?_, ?_, ?_⟩) | apply State.Canon.mem
      | apply State.Canon.mbox | apply State.Canon.recWin | split

theorem State.sendFlag_canon (s : State) (dev addr kind size aop arr cause badf : Nat) (bytes : Int) (opnd : Bytes) (owner : ReqFor) (asid grp :
    Nat) (hc : s.Canon) : (State.sendFlag s dev addr kind size aop arr cause badf bytes opnd owner asid grp).1.Canon := by
  unfold State.sendFlag
  repeat' with_reducible first
      | assumption | apply State.request_canon | refine fst_canon (by assumption) ?_ | dsimp only
      | (simp only [State.canon_mk]; refine ⟨?_, ?_, ?_⟩) | apply State.Canon.mem | apply State.Canon.mbox | apply State.Canon.recWin | split

theorem State.sendMgmt_canon (s : State) (dev subtype asid : Nat) (data : Bytes) (hc : s.Canon) : (State.sendMgmt s dev subtype asid data).Canon := by
  unfold State.sendMgmt
  repeat' with_reducible first
      | assumption | apply State.bump_canon | apply State.send_canon | (simp only [State.canon_mk]; refine ⟨?_, ?_, ?_⟩) | apply State.Canon.mem
      | apply State.Canon.mbox | apply State.Canon.recWin | split

theorem sendAll_canon (a0 : List Packet) (a1 : State) (hc : a1.Canon) : (sendAll a0 a1).Canon := by
  induction a0 generalizing a1 with
  | nil =>
    unfold sendAll
    repeat' with_reducible first
        | assumption
  | cons x l ih =>
    unfold sendAll
    repeat' with_reducible first
        | assumption | apply ih | apply State.send_canon

theorem State.sendUpdate_canon (s : State) (va : Nat) (u : BUpdate) (grp : Nat) (hc : s.Canon) : (State.sendUpdate s va u grp).1.Canon := by
  unfold State.sendUpdate
  repeat' with_reducible first
      | assumption | apply State.logEvent_canon | apply State.sendFlag_canon | refine fst_canon (by assumption) ?_
      | (simp only [State.canon_mk]; refine ⟨?_, ?_, ?_⟩) | apply State.Canon.mem | apply State.Canon.mbox | apply State.Canon.recWin | dsimp only
      | split

theorem State.framesOut_canon (s : State) (g : Group) (off : Nat) (bs : Bytes) (hc : s.Canon) : (State.framesOut s g off bs).Canon := by
  unfold State.framesOut
  repeat' with_reducible first
      | assumption | apply State.tagExtent_canon | (simp only [State.canon_mk]; refine ⟨?_, ?_, ?_⟩) | apply putBytes_wf | apply State.Canon.mem
      | apply State.Canon.mbox | apply State.Canon.recWin | split

theorem State.putFrames_canon (s : State) (g : Group) (off : Nat) (bs : Bytes) (hc : s.Canon) : (State.putFrames s g off bs).Canon := by
  unfold State.putFrames
  repeat' with_reducible first
      | assumption | apply State.modGroup_canon | apply State.framesOut_canon

theorem State.putToken_canon (s : State) (u k : Nat) (t : Token) (hc : s.Canon) : (State.putToken s u k t).Canon := by
  unfold State.putToken
  repeat' with_reducible first
      | assumption | apply State.setGroup_canon | apply State.homeWrite_canon | dsimp only | split

theorem State.landReg_canon (s : State) (u lane n : Nat) (x : Word) (hc : s.Canon) : (State.landReg s u lane n x).Canon := by
  unfold State.landReg
  repeat' with_reducible first
      | assumption | apply State.setGroup_canon | apply State.homeWrite_canon | dsimp only | split

theorem landTargets_canon (s : State) (u lane : Nat) (a0 : List Nat) (a1 : Bytes) (hc : s.Canon) : (landTargets s u lane a0 a1).Canon := by
  induction a0 generalizing a1 s u lane with
  | nil =>
    unfold landTargets
    repeat' with_reducible first
        | assumption
  | cons x l ih =>
    unfold landTargets
    repeat' with_reducible first
        | assumption | apply ih | apply State.landReg_canon

theorem State.exportUpdate_canon (s : State) (e : Exprt) (u : BUpdate) (hc : s.Canon) : (State.exportUpdate s e u).Canon := by
  unfold State.exportUpdate
  repeat' with_reducible first
      | assumption | apply State.modGroup_canon | apply State.sendUpdate_canon | split

theorem sendExports_canon (st : TokState) (cause : BitVec 8) (asid unit : Nat) (a0 : List Exprt) (a1 : State) (hc : a1.Canon) : (sendExports st
    cause asid unit a0 a1).Canon := by
  induction a0 generalizing a1 st cause asid unit with
  | nil =>
    unfold sendExports
    repeat' with_reducible first
        | assumption | apply State.exportUpdate_canon | dsimp only | (simp only [State.canon_mk]; refine ⟨?_, ?_, ?_⟩) | apply State.Canon.mem
        | apply State.Canon.mbox | apply State.Canon.recWin | split
  | cons x l ih =>
    unfold sendExports
    repeat' with_reducible first
        | assumption | apply ih | apply State.exportUpdate_canon | dsimp only | (simp only [State.canon_mk]; refine ⟨?_, ?_, ?_⟩)
        | apply State.Canon.mem | apply State.Canon.mbox | apply State.Canon.recWin | split

theorem countBytes_canon (n asid unit : Nat) (a0 : List Exprt) (a1 : State) (hc : a1.Canon) : (countBytes n asid unit a0 a1).Canon := by
  induction a0 generalizing a1 n asid unit with
  | nil =>
    unfold countBytes
    repeat' with_reducible first
        | assumption | apply State.exportUpdate_canon | dsimp only | (simp only [State.canon_mk]; refine ⟨?_, ?_, ?_⟩) | apply State.Canon.mem
        | apply State.Canon.mbox | apply State.Canon.recWin | split
  | cons x l ih =>
    unfold countBytes
    repeat' with_reducible first
        | assumption | apply ih | apply State.exportUpdate_canon | dsimp only | (simp only [State.canon_mk]; refine ⟨?_, ?_, ?_⟩)
        | apply State.Canon.mem | apply State.Canon.mbox | apply State.Canon.recWin | split

theorem State.finishOp_canon (s : State) (id : Nat) (st : TokState) (cause : BitVec 8) (hc : s.Canon) : (State.finishOp s id st cause).Canon := by
  unfold State.finishOp
  repeat' with_reducible first
      | assumption | intro _ | apply State.modCtx_canon | apply State.putToken_canon | apply landTargets_canon | apply sendExports_canon
      | apply foldl_canon | (simp only [State.canon_mk]; refine ⟨?_, ?_, ?_⟩) | apply State.Canon.mem | apply State.Canon.mbox
      | apply State.Canon.recWin | split

theorem State.settleParts_canon (s : State) (id : Nat) (hc : s.Canon) : (State.settleParts s id).Canon := by
  unfold State.settleParts
  repeat' with_reducible first
      | assumption | apply State.finishOp_canon | split

theorem State.finishPart_canon (s : State) (id lane : Nat) (cause : BitVec 8) (hc : s.Canon) : (State.finishPart s id lane cause).Canon := by
  unfold State.finishPart
  repeat' with_reducible first
      | assumption | apply State.modPart_canon | apply State.settleParts_canon

theorem State.setSlot_canon (s : State) (team q j : Nat) (st : SlotState) (status : Word) (hc : s.Canon) : (State.setSlot s team q j st
    status).Canon := by
  unfold State.setSlot
  repeat' with_reducible first
      | assumption | apply State.modTeam_canon | dsimp only | (simp only [State.canon_mk]; refine ⟨?_, ?_, ?_⟩) | apply State.Canon.mem
      | apply State.Canon.mbox | apply State.Canon.recWin

theorem State.endCopy_canon (s : State) (gid : Nat) (st : TokState) (cause : BitVec 8) (hc : s.Canon) : (State.endCopy s gid st cause).Canon := by
  unfold State.endCopy
  repeat' with_reducible first
      | assumption | intro _ | apply State.finishOp_canon | apply State.setSlot_canon | apply foldl_canon
      | (simp only [State.canon_mk]; refine ⟨?_, ?_, ?_⟩) | apply State.Canon.mem | apply State.Canon.mbox | apply State.Canon.recWin | split

theorem ringWrite_canon (addr : Nat) (a0 : Nat) (a1 : Bytes) (a2 : Nat) (a3 : State) (hc : a3.Canon) : (ringWrite addr a0 a1 a2 a3).Canon := by
  induction a0 generalizing a1 a2 a3 addr with
  | zero =>
    unfold ringWrite
    repeat' with_reducible first
        | assumption
  | succ n ih =>
    unfold ringWrite
    repeat' with_reducible first
        | assumption | apply ih | apply State.homeWrite_canon

theorem State.ringAppend_canon (s : State) (asid k : Nat) (bs : Bytes) (hc : s.Canon) : (State.ringAppend s asid k bs).Canon := by
  unfold State.ringAppend
  repeat' with_reducible first
      | assumption | apply State.modCtx_canon | apply State.homeWrite_canon | apply ringWrite_canon | dsimp only | split

theorem State.sendCancel_canon (s : State) (o : Op) (cause : Nat) (hc : s.Canon) : (State.sendCancel s o cause).Canon := by
  unfold State.sendCancel
  repeat' with_reducible first
      | assumption | intro _ | apply State.sendMgmt_canon | apply foldl_canon | split

theorem State.poisonUnstarted_canon (s : State) (l : Nat) (hc : s.Canon) : (State.poisonUnstarted s l).Canon := by
  unfold State.poisonUnstarted
  repeat' with_reducible first
      | assumption | intro _ | apply State.finishOp_canon | apply State.endCopy_canon | apply foldl_canon
      | (simp only [State.canon_mk]; refine ⟨?_, ?_, ?_⟩) | apply State.Canon.mem | apply State.Canon.mbox | apply State.Canon.recWin | dsimp only

theorem State.stopLaunch_canon (s : State) (l cause : Nat) (hc : s.Canon) : (State.stopLaunch s l cause).Canon := by
  unfold State.stopLaunch
  repeat' with_reducible first
      | assumption | apply State.finishOp_canon | intro _ | apply State.modLaunch_canon | apply State.sendCancel_canon
      | apply State.poisonUnstarted_canon | apply foldl_canon | (simp only [State.canon_mk]; refine ⟨?_, ?_, ?_⟩) | apply State.Canon.mem
      | apply State.Canon.mbox | apply State.Canon.recWin | dsimp only | split

theorem State.terminateCtx_canon (s : State) (asid cause : Nat) (hc : s.Canon) : (State.terminateCtx s asid cause).Canon := by
  unfold State.terminateCtx
  repeat' with_reducible first
      | assumption | intro _ | apply State.post_canon | apply State.stopLaunch_canon | apply foldl_canon

theorem State.endTask_canon (s : State) (l : Nat) (recs : List FRec) (grp : Option Nat) (hc : s.Canon) : (State.endTask s l recs grp).Canon := by
  unfold State.endTask
  repeat' with_reducible first
      | assumption | intro _ | apply State.ringAppend_canon | apply State.stopLaunch_canon | apply State.terminateCtx_canon | apply foldl_canon
      | dsimp only | split

theorem State.noteFault_canon (s : State) (l : Nat) (g : Group) (r : FRec) (hc : s.Canon) : (State.noteFault s l g r).Canon := by
  unfold State.noteFault
  repeat' with_reducible first
      | assumption | apply State.ringAppend_canon | split

theorem State.enter_canon (s : State) (g : Group) (lane : Nat) (t : Thread) (r : TrapReq) (handler : Nat) (hc : s.Canon) : (State.enter s g lane t r
    handler).Canon := by
  unfold State.enter
  repeat' with_reducible first
      | assumption | apply State.setGroup_canon | apply State.framesOut_canon

theorem State.deliver_canon (s : State) (grp lane : Nat) (t : Thread) (r : TrapReq) (handler : Nat) (hc : s.Canon) : (State.deliver s grp lane t r
    handler).Canon := by
  unfold State.deliver
  repeat' with_reducible first
      | assumption | apply State.setGroup_canon | apply State.enter_canon | split

theorem deliverAll_canon (grp handler : Nat) (a0 : List (Nat × Res)) (a1 : State) (h : a1.Canon) : (deliverAll grp handler a0 a1).Canon := by
  induction a0 generalizing a1 with
  | nil => exact h
  | cons x l ih =>
    obtain ⟨lane, r⟩ := x
    cases r with
    | done t => exact ih _ h
    | trapped t r => exact ih _ (State.deliver_canon _ _ _ _ _ _ h)
    | ended t c a z => exact ih _ h

theorem State.applyRes_canon (s : State) (x : Issue) (g : Group) (rs : List (Nat × Res)) (hc : s.Canon) : (State.applyRes s x g rs).Canon := by
  unfold State.applyRes
  repeat' with_reducible first
      | assumption | apply State.setGroup_canon | apply State.endTask_canon | apply deliverAll_canon | split

theorem State.rcvRelease_canon (s : State) (x : Issue) (hc : s.Canon) : (State.rcvRelease s x).Canon := by
  unfold State.rcvRelease
  repeat' with_reducible first
      | assumption | apply State.applyRes_canon | dsimp only | (simp only [State.canon_mk]; refine ⟨?_, ?_, ?_⟩) | apply State.Canon.mem
      | apply State.Canon.mbox | apply State.Canon.recWin | split

theorem State.discardGathers_canon (s : State) (team : Nat) (hc : s.Canon) : (State.discardGathers s team).Canon := by
  unfold State.discardGathers
  repeat' with_reducible first
      | assumption | (simp only [State.canon_mk]; refine ⟨?_, ?_, ?_⟩) | apply State.Canon.mem | apply State.Canon.mbox | apply State.Canon.recWin

theorem State.wantPlacement_canon (s : State) (hc : s.Canon) : (State.wantPlacement s).Canon := by
  unfold State.wantPlacement
  repeat' with_reducible first
      | assumption | (simp only [State.canon_mk]; refine ⟨?_, ?_, ?_⟩) | apply State.Canon.mem | apply State.Canon.mbox | apply State.Canon.recWin
      | dsimp only

theorem State.finishGroup_canon (s : State) (u : Nat) (hc : s.Canon) : (State.finishGroup s u).Canon := by
  unfold State.finishGroup
  repeat' with_reducible first
      | assumption | apply State.wantPlacement_canon | apply State.setGroup_canon | apply State.discardGathers_canon | dsimp only
      | (simp only [State.canon_mk]; refine ⟨?_, ?_, ?_⟩) | apply State.Canon.mem | apply State.Canon.mbox | apply State.Canon.recWin | split

theorem State.commit_canon (s : State) (x : Issue) (outs : List (Nat × Out)) (hc : s.Canon) : (State.commit s x outs).Canon := by
  unfold State.commit
  repeat' with_reducible first
      | assumption | apply State.applyRes_canon | apply State.rcvRelease_canon | apply State.finishGroup_canon | split

theorem State.illegal_canon (s : State) (x : Issue) (detail : Nat) (hc : s.Canon) : (State.illegal s x detail).Canon := by
  unfold State.illegal
  repeat' with_reducible first
      | assumption | apply State.commit_canon

/-! ## Operands -/

theorem runWord_canon {s : State} {op : Nat} {st : Bool} {need : Issue → Need} {body : Issue → State → State} (hb : ∀ x s, s.Canon → (body x
    s).Canon) (h : s.Canon) :
    OutCanon (runWord s op st need body) := by
  unfold runWord
  repeat' with_reducible first | assumption | apply hb | apply State.illegal_canon | apply OutCanon.next | exact OutCanon.fault | dsimp only | split

theorem vectorWord_canon (s : State) (x : Issue) (guard : Nat) (regs : List Nat) (f : Nat → Thread → Thread) (hc : s.Canon) : (vectorWord s x guard
    regs f).Canon := by
  unfold vectorWord
  repeat' with_reducible first
      | assumption | apply State.commit_canon

theorem longWord_canon (s : State) (x : Issue) (guard : Nat) (regs : List Nat) (d : Nat) (f : Nat → Thread → Word × FFlags) (hc : s.Canon) :
    (longWord s x guard regs d f).Canon := by
  unfold longWord
  repeat' with_reducible first
      | assumption | apply State.bump_canon | apply vectorWord_canon

theorem scalarWord_canon (s : State) (x : Issue) (f : Group → Group) (hc : s.Canon) : (scalarWord s x f).Canon := by
  unfold scalarWord
  repeat' with_reducible first
      | assumption | apply State.modGroup_canon | apply State.commit_canon

theorem gated_canon {x : Issue} {s : State} {body : State → State} (hb : ∀ s, s.Canon → (body s).Canon) (h : s.Canon) : (gated x s body).Canon := by
  unfold gated
  repeat' with_reducible first | assumption | apply hb | apply State.commit_canon | dsimp only | split

theorem State.detach_canon (s : State) (g : Group) (k : Nat) (hc : s.Canon) : (State.detach s g k).Canon := by
  unfold State.detach
  repeat' with_reducible first
      | assumption | apply State.modOp_canon | split

theorem State.bindWith_canon (s : State) (x : Issue) (k : Nat) (kind : OpKind) (f : Op → Op) (hc : s.Canon) : (State.bindWith s x k kind f).2.Canon
    := by
  unfold State.bindWith
  repeat' with_reducible first
      | assumption | apply State.modGroup_canon | apply State.bump_canon | apply State.detach_canon
      | (simp only [State.canon_mk]; refine ⟨?_, ?_, ?_⟩) | apply State.Canon.mem | apply State.Canon.mbox | apply State.Canon.recWin

theorem State.bind_canon (s : State) (x : Issue) (k : Nat) (kind : OpKind) (hc : s.Canon) : (State.bind s x k kind).2.Canon := by
  unfold State.bind
  repeat' with_reducible first
      | assumption | apply State.bindWith_canon

theorem State.enqueue_canon (s : State) (asid id : Nat) (hc : s.Canon) : (State.enqueue s asid id).Canon := by
  unfold State.enqueue
  repeat' with_reducible first
      | assumption | apply State.modCtx_canon

/-! ## Xlate -/

theorem State.fillTlb_canon (s : State) (t : Tlb) (hc : s.Canon) : (State.fillTlb s t).Canon := by
  unfold State.fillTlb
  repeat' with_reducible first
      | assumption | dsimp only | (simp only [State.canon_mk]; refine ⟨?_, ?_, ?_⟩) | apply State.Canon.mem | apply State.Canon.mbox
      | apply State.Canon.recWin | split

theorem State.shoot_canon (s : State) (asid va len : Nat) (hc : s.Canon) : (State.shoot s asid va len).Canon := by
  unfold State.shoot
  repeat' with_reducible first
      | assumption | (simp only [State.canon_mk]; refine ⟨?_, ?_, ?_⟩) | apply State.Canon.mem | apply State.Canon.mbox | apply State.Canon.recWin

theorem noteParks_canon (writes : Bool) (a0 : List (Nat × Out)) (a1 : State) (hc : a1.Canon) : (noteParks writes a0 a1).Canon := by
  induction a0 generalizing a1 writes with
  | nil =>
    unfold noteParks
    repeat' with_reducible first
        | assumption
  | cons x l ih =>
    unfold noteParks
    repeat' with_reducible first
        | assumption | apply ih | (injection ‹_ :: _ = _ :: _› with e1 e2; subst e1; subst e2) | (simp only [State.canon_mk]; refine ⟨?_, ?_, ?_⟩)
        | apply State.Canon.mem | apply State.Canon.mbox | apply State.Canon.recWin | split

/-! ## MemWords -/

theorem enqueueParts_canon (s : State) (u id seq : Nat) (k : QKind) (ps : List Part) (hc : s.Canon) : (enqueueParts s u id seq k ps).Canon := by
  unfold enqueueParts
  repeat' with_reducible first
      | assumption | apply State.modGroup_canon

theorem memWord_canon (s : State) (x : Issue) (k : Nat) (kind : OpKind) (queue : Option QKind) (writes : Bool) (f : Nat → Thread → LaneMem) (hc :
    s.Canon) : (memWord s x k kind queue writes f).Canon := by
  unfold memWord
  repeat' with_reducible first
      | assumption | apply State.finishOp_canon | apply State.commit_canon | apply State.bindWith_canon | apply noteParks_canon
      | apply enqueueParts_canon | dsimp only | split

theorem execLd_canon (st : Bool) (d a : BitVec 7) (k : BitVec 4) (z : BitVec 3) (g : BitVec 2) (s : State) (hc : s.Canon) : OutCanon (execLd st d a
    k z g s) := by
  unfold execLd
  repeat' with_reducible first
      | assumption | intro _ | apply runWord_canon | apply memWord_canon

theorem execSt_canon (st : Bool) (d a : BitVec 7) (k : BitVec 4) (z : BitVec 3) (g : BitVec 2) (s : State) (hc : s.Canon) : OutCanon (execSt st d a
    k z g s) := by
  unfold execSt
  repeat' with_reducible first
      | assumption | intro _ | apply runWord_canon | apply memWord_canon

theorem execLds_canon (st : Bool) (d a : BitVec 7) (z : BitVec 3) (g : BitVec 2) (s : State) (hc : s.Canon) : OutCanon (execLds st d a z g s) := by
  unfold execLds
  repeat' with_reducible first
      | assumption | intro _ | apply State.bump_canon | apply State.commit_canon | apply runWord_canon | apply gated_canon

theorem stsAll_canon (core base d n : Nat) (x : Issue) (a : Nat) (a0 : List (Nat × Out)) (a1 : State) (hc : a1.Canon) : (stsAll core base d n x a a0
    a1).Canon := by
  induction a0 generalizing a1 core base d n x a with
  | nil =>
    unfold stsAll
    repeat' with_reducible first
        | assumption
  | cons x l ih =>
    unfold stsAll
    repeat' with_reducible first
        | assumption | apply ih | (injection ‹_ :: _ = _ :: _› with e1 e2; subst e1; subst e2) | (simp only [State.canon_mk]; refine ⟨?_, ?_, ?_⟩)
        | apply putBytes_wf | apply State.Canon.mem | apply State.Canon.mbox | apply State.Canon.recWin | split

theorem execSts_canon (st : Bool) (d a : BitVec 7) (z : BitVec 3) (g : BitVec 2) (s : State) (hc : s.Canon) : OutCanon (execSts st d a z g s) := by
  unfold execSts
  repeat' with_reducible first
      | assumption | intro _ | apply State.commit_canon | apply runWord_canon | apply gated_canon | apply stsAll_canon

theorem execPtst_canon (st : Bool) (d a : BitVec 7) (g : BitVec 2) (s : State) (hc : s.Canon) : OutCanon (execPtst st d a g s) := by
  unfold execPtst
  repeat' with_reducible first
      | assumption | intro _ | apply State.bump_canon | apply State.commit_canon | apply runWord_canon | apply gated_canon

theorem execAtom_canon (st : Bool) (d a : BitVec 7) (k : BitVec 4) (r w : BitVec 1) (o : BitVec 3) (s : State) (hc : s.Canon) : OutCanon (execAtom
    st d a k r w o s) := by
  unfold execAtom
  repeat' with_reducible first
      | assumption | intro _ | apply runWord_canon | apply memWord_canon

theorem execAcas_canon (st : Bool) (d a : BitVec 7) (k : BitVec 4) (r w : BitVec 1) (s : State) (hc : s.Canon) : OutCanon (execAcas st d a k r w s)
    := by
  unfold execAcas
  repeat' with_reducible first
      | assumption | intro _ | apply runWord_canon | apply memWord_canon

theorem State.ccRoom_canon (s : State) (clu : Nat) (hc : s.Canon) : (State.ccRoom s clu).Canon := by
  unfold State.ccRoom
  repeat' with_reducible first
      | assumption | apply State.dropLine_canon | dsimp only | (simp only [State.canon_mk]; refine ⟨?_, ?_, ?_⟩) | apply State.Canon.mem
      | apply State.Canon.mbox | apply State.Canon.recWin | split

theorem State.allocCC_canon (s : State) (clu pa asid : Nat) (hc : s.Canon) : (State.allocCC s clu pa asid).Canon := by
  unfold State.allocCC
  repeat' with_reducible first
      | assumption | apply State.ccRoom_canon | (simp only [State.canon_mk]; refine ⟨?_, ?_, ?_⟩) | apply State.Canon.mem | apply State.Canon.mbox
      | apply State.Canon.recWin | split

theorem State.l1Room_canon (s : State) (core : Nat) (hc : s.Canon) : (State.l1Room s core).Canon := by
  unfold State.l1Room
  repeat' with_reducible first
      | assumption | dsimp only | (simp only [State.canon_mk]; refine ⟨?_, ?_, ?_⟩) | apply State.Canon.mem | apply State.Canon.mbox
      | apply State.Canon.recWin | split

theorem State.fillL1_canon (s : State) (core asid va pa : Nat) (t : Tlb) (hc : s.Canon) : (State.fillL1 s core asid va pa t).Canon := by
  unfold State.fillL1
  repeat' with_reducible first
      | assumption | apply State.l1Room_canon | (simp only [State.canon_mk]; refine ⟨?_, ?_, ?_⟩) | apply State.Canon.mem | apply State.Canon.mbox
      | apply State.Canon.recWin

theorem State.prfLine_canon (s : State) (x : Issue) (lvl va pa : Nat) (t : Tlb) (hc : s.Canon) : (State.prfLine s x lvl va pa t).Canon := by
  unfold State.prfLine
  repeat' with_reducible first
      | assumption | apply State.allocCC_canon | apply State.fillL1_canon | dsimp only | split

theorem prfLines_canon (x : Issue) (lvl : Nat) (a0 : List Nat) (a1 : State) (hc : a1.Canon) : (prfLines x lvl a0 a1).Canon := by
  induction a0 generalizing a1 x lvl with
  | nil =>
    unfold prfLines
    repeat' with_reducible first
        | assumption
  | cons x l ih =>
    unfold prfLines
    repeat' with_reducible first
        | assumption | apply ih | apply State.prfLine_canon | split

theorem execPrf_canon (st : Bool) (l : BitVec 2) (a : BitVec 7) (z : BitVec 3) (g : BitVec 2) (s : State) (hc : s.Canon) : OutCanon (execPrf st l a
    z g s) := by
  unfold execPrf
  repeat' with_reducible first
      | assumption | intro _ | apply State.commit_canon | apply runWord_canon | apply gated_canon | apply prfLines_canon | dsimp only
      | (simp only [State.canon_mk]; refine ⟨?_, ?_, ?_⟩) | apply State.Canon.mem | apply State.Canon.mbox | apply State.Canon.recWin | split

theorem execCflush_canon (st : Bool) (o : BitVec 2) (a : BitVec 7) (k : BitVec 4) (z : BitVec 3) (g : BitVec 2) (s : State) (hc : s.Canon) :
    OutCanon (execCflush st o a k z g s) := by
  unfold execCflush
  repeat' with_reducible first
      | assumption | intro _ | apply runWord_canon | apply memWord_canon | dsimp only | (simp only [State.canon_mk]; refine ⟨?_, ?_, ?_⟩)
      | apply State.Canon.mem | apply State.Canon.mbox | apply State.Canon.recWin | split

theorem execLdt_canon (st : Bool) (d a : BitVec 7) (k : BitVec 4) (g : BitVec 2) (s : State) (hc : s.Canon) : OutCanon (execLdt st d a k g s) := by
  unfold execLdt
  repeat' with_reducible first
      | assumption | intro _ | apply runWord_canon | apply memWord_canon

theorem execStt_canon (st : Bool) (d a : BitVec 7) (k : BitVec 4) (g : BitVec 2) (s : State) (hc : s.Canon) : OutCanon (execStt st d a k g s) := by
  unfold execStt
  repeat' with_reducible first
      | assumption | intro _ | apply runWord_canon | apply memWord_canon

theorem fenceWord_canon (s : State) (x : Issue) (kind : Nat) (scope : BitVec 3) (ls : List Nat) (hc : s.Canon) : (fenceWord s x kind scope ls).Canon
    := by
  unfold fenceWord
  repeat' with_reducible first
      | assumption | apply State.modGroup_canon | apply State.release_canon | apply State.acquire_canon | apply State.commit_canon | dsimp only
      | split

theorem execFence_canon (st : Bool) (p : BitVec 3) (k : BitVec 2) (g : BitVec 2) (s : State) (hc : s.Canon) : OutCanon (execFence st p k g s) := by
  unfold execFence
  repeat' with_reducible first
      | assumption | intro _ | apply runWord_canon | apply gated_canon | apply fenceWord_canon

/-! ## TokenWords -/

theorem endWait_canon (s : State) (x : Issue) (e : BitVec 1) (q : BitVec 2) (trp : BitVec 1) (bad : Option (BitVec 8)) (hc : s.Canon) : (endWait s x
    e q trp bad).Canon := by
  unfold endWait
  repeat' with_reducible first
      | assumption | apply State.modGroup_canon | apply State.commit_canon | split

theorem execWait_canon (st : Bool) (q : BitVec 2) (e : BitVec 1) (k : BitVec 16) (y t b : BitVec 1) (s : State) (hc : s.Canon) : OutCanon (execWait
    st q e k y t b s) := by
  unfold execWait
  repeat' with_reducible first
      | assumption | intro _ | apply State.commit_canon | apply runWord_canon | apply gated_canon | apply endWait_canon | split

theorem execWaitc_canon (st : Bool) (k : BitVec 4) (a : BitVec 8) (q : BitVec 2) (e t b : BitVec 1) (s : State) (hc : s.Canon) : OutCanon (execWaitc
    st k a q e t b s) := by
  unfold execWaitc
  repeat' with_reducible first
      | assumption | intro _ | apply State.commit_canon | apply runWord_canon | apply gated_canon | apply endWait_canon | dsimp only | split

theorem execTst_canon (st : Bool) (k : BitVec 4) (d b : BitVec 8) (w : BitVec 1) (s : State) (hc : s.Canon) : OutCanon (execTst st k d b w s) := by
  unfold execTst
  repeat' with_reducible first
      | assumption | intro _ | apply runWord_canon | apply scalarWord_canon | apply gated_canon

theorem clearTokens_canon (u : Nat) (a0 : List Nat) (a1 : State) (hc : a1.Canon) : (clearTokens u a0 a1).Canon := by
  induction a0 generalizing a1 u with
  | nil =>
    unfold clearTokens
    repeat' with_reducible first
        | assumption
  | cons x l ih =>
    unfold clearTokens
    repeat' with_reducible first
        | assumption | apply ih | apply State.modGroup_canon | apply State.detach_canon | split

theorem execTclr_canon (st : Bool) (k : BitVec 16) (s : State) (hc : s.Canon) : OutCanon (execTclr st k s) := by
  unfold execTclr
  repeat' with_reducible first
      | assumption | intro _ | apply State.commit_canon | apply runWord_canon | apply gated_canon | apply clearTokens_canon

theorem barrierWord_canon {s : State} {x : Issue} {va : Nat} {k : Access} {body : Phys → State} (hb : ∀ p, s.Canon → (body p).Canon) (h : s.Canon) :
    (barrierWord s x va k body).Canon := by
  unfold barrierWord
  repeat' with_reducible first | assumption | apply hb | apply State.commit_canon | apply noteParks_canon | dsimp only | split

theorem pushBarrier_canon (s : State) (u seq op : Nat) (upds : List (Nat × BUpdate)) (hc : s.Canon) : (pushBarrier s u seq op upds).Canon := by
  unfold pushBarrier
  repeat' with_reducible first
      | assumption | apply State.modGroup_canon

theorem texpBody_canon (s : State) (x : Issue) (k va arr : Nat) (byt : Bool) (hc : s.Canon) : (texpBody s x k va arr byt).Canon := by
  unfold texpBody
  repeat' with_reducible first
      | assumption | apply State.modGroup_canon | apply State.modOp_canon | apply State.commit_canon | apply pushBarrier_canon | dsimp only
      | (simp only [State.canon_mk]; refine ⟨?_, ?_, ?_⟩) | apply State.Canon.mem | apply State.Canon.mbox | apply State.Canon.recWin | split

theorem execTexp_canon (st : Bool) (k : BitVec 4) (a b : BitVec 8) (y r : BitVec 1) (s : State) (hc : s.Canon) : OutCanon (execTexp st k a b y r s)
    := by
  unfold execTexp
  repeat' with_reducible first
      | assumption | intro _ | apply State.commit_canon | apply runWord_canon | apply gated_canon | apply barrierWord_canon | apply texpBody_canon
      | dsimp only | split

theorem bindBarrier_canon (s : State) (x : Issue) (k va : Nat) (p : Phys) (kind : OpKind) (bad : Nat) (hc : s.Canon) : (bindBarrier s x k va p kind
    bad).Canon := by
  unfold bindBarrier
  repeat' with_reducible first
      | assumption | apply State.commit_canon | apply State.bindWith_canon | apply pushBarrier_canon

theorem execBinit_canon (st : Bool) (k : BitVec 4) (a b : BitVec 8) (s : State) (hc : s.Canon) : OutCanon (execBinit st k a b s) := by
  unfold execBinit
  repeat' with_reducible first
      | assumption | intro _ | apply runWord_canon | apply barrierWord_canon | apply bindBarrier_canon

theorem execArv_canon (st : Bool) (k : BitVec 4) (a b : BitVec 8) (e p : BitVec 1) (s : State) (hc : s.Canon) : OutCanon (execArv st k a b e p s) :=
    by
  unfold execArv
  repeat' with_reducible first
      | assumption | intro _ | apply runWord_canon | apply barrierWord_canon | apply bindBarrier_canon

theorem State.dropBarRead_canon (s : State) (u key : Nat) (hc : s.Canon) : (State.dropBarRead s u key).Canon := by
  unfold State.dropBarRead
  repeat' with_reducible first
      | assumption | (simp only [State.canon_mk]; refine ⟨?_, ?_, ?_⟩) | apply State.Canon.mem | apply State.Canon.mbox | apply State.Canon.recWin

theorem State.askBarrier_canon (s : State) (u asid dev pa : Nat) (hc : s.Canon) : (State.askBarrier s u asid dev pa).Canon := by
  unfold State.askBarrier
  repeat' with_reducible first
      | assumption | apply State.request_canon | refine fst_canon (by assumption) ?_ | dsimp only
      | (simp only [State.canon_mk]; refine ⟨?_, ?_, ?_⟩) | apply State.Canon.mem | apply State.Canon.mbox | apply State.Canon.recWin | split

theorem State.useView_canon (s : State) (u : Nat) (p : Phys) (hc : s.Canon) : (State.useView s u p).Canon := by
  unfold State.useView
  repeat' with_reducible first
      | assumption | apply State.dropBarRead_canon | split

theorem State.acquireAt_canon (s : State) (core : Nat) (b : Barrier) (hc : s.Canon) : (State.acquireAt s core b).Canon := by
  unfold State.acquireAt
  repeat' with_reducible first
      | assumption | apply State.acquire_canon | split

theorem State.toHome_canon (s : State) (x : Issue) (p : Phys) (hc : s.Canon) : (State.toHome s x p).Canon := by
  unfold State.toHome
  repeat' with_reducible first
      | assumption | apply State.dropExtent_canon | split

theorem deniedRead_canon (s : State) (x : Issue) (va : Nat) (hc : s.Canon) : (deniedRead s x va).Canon := by
  unfold deniedRead
  repeat' with_reducible first
      | assumption | apply State.commit_canon

theorem parkBarrier_canon (s : State) (x : Issue) (p : Phys) (target : Word) (watch : Bool) (hc : s.Canon) : (parkBarrier s x p target watch).Canon
    := by
  unfold parkBarrier
  repeat' with_reducible first
      | assumption | apply State.sendMgmt_canon | apply State.commit_canon | apply State.dropBarRead_canon | split

theorem execBwait_canon (st : Bool) (q : BitVec 2) (e : BitVec 1) (a b : BitVec 8) (t p : BitVec 1) (s : State) (hc : s.Canon) : OutCanon (execBwait
    st q e a b t p s) := by
  unfold execBwait
  repeat' with_reducible first
      | assumption | intro _ | apply State.commit_canon | apply runWord_canon | apply gated_canon | apply endWait_canon | apply barrierWord_canon
      | apply State.askBarrier_canon | apply State.useView_canon | apply State.acquireAt_canon | apply State.toHome_canon | apply deniedRead_canon
      | apply parkBarrier_canon | dsimp only | split

theorem execBpoll_canon (st : Bool) (q : BitVec 2) (a b : BitVec 8) (s : State) (hc : s.Canon) : OutCanon (execBpoll st q a b s) := by
  unfold execBpoll
  repeat' with_reducible first
      | assumption | intro _ | apply State.commit_canon | apply runWord_canon | apply scalarWord_canon | apply gated_canon | apply barrierWord_canon
      | apply State.askBarrier_canon | apply State.useView_canon | apply State.acquireAt_canon | apply State.toHome_canon | apply deniedRead_canon
      | apply parkBarrier_canon | dsimp only | split

/-! ## Shape -/

theorem State.askAway_canon (s : State) (u asid dev pa n : Nat) (hc : s.Canon) : (State.askAway s u asid dev pa n).Canon := by
  unfold State.askAway
  repeat' with_reducible first
      | assumption | apply State.request_canon | dsimp only | (simp only [State.canon_mk]; refine ⟨?_, ?_, ?_⟩) | apply State.Canon.mem
      | apply State.Canon.mbox | apply State.Canon.recWin | refine fst_canon (by assumption) ?_ | split

theorem State.askRecord_canon (s : State) (g : Group) (p : Phys) (n : Nat) (hc : s.Canon) : (State.askRecord s g p n).Canon := by
  unfold State.askRecord
  repeat' with_reducible first
      | assumption | apply State.askAway_canon | apply State.bump_canon | apply State.request_canon | apply State.noteFault_canon
      | refine fst_canon (by assumption) ?_ | dsimp only | (simp only [State.canon_mk]; refine ⟨?_, ?_, ?_⟩) | apply State.Canon.mem
      | apply State.Canon.mbox | apply State.Canon.recWin | split

theorem State.useRecord_canon (s : State) (u : Nat) (p : Phys) (hc : s.Canon) : (State.useRecord s u p).Canon := by
  unfold State.useRecord
  repeat' with_reducible first
      | assumption | apply State.dropBarRead_canon | split

/-! ## EngineWords -/

theorem State.clearLines_canon (s : State) (core id : Nat) (ls : List Nat) (hc : s.Canon) : (State.clearLines s core id ls).Canon := by
  unfold State.clearLines
  repeat' with_reducible first
      | assumption | (simp only [State.canon_mk]; refine ⟨?_, ?_, ?_⟩) | apply State.Canon.mem | apply State.Canon.mbox | apply State.Canon.recWin

theorem failAtIssue_canon (s : State) (x : Issue) (k : Nat) (kind : OpKind) (cause : BitVec 8) (hc : s.Canon) : (failAtIssue s x k kind cause).Canon
    := by
  unfold failAtIssue
  repeat' with_reducible first
      | assumption | apply State.finishOp_canon | apply State.commit_canon | apply State.bind_canon

theorem recordWord_canon {s : State} {x : Issue} {k : Nat} {kind : OpKind} {va n : Nat} {body : Bytes → State → State} (hb : ∀ b s, s.Canon → (body
    b s).Canon)
    (h : s.Canon) : (recordWord s x k kind va n body).Canon := by
  unfold recordWord
  repeat' with_reducible first
    | assumption | apply hb | apply State.commit_canon | apply noteParks_canon | apply failAtIssue_canon | apply State.useRecord_canon
    | apply State.askRecord_canon | dsimp only | split

theorem joinGather_canon (s : State) (x : Issue) (k gid idx : Nat) (h : Shape) (sl : Slice) (hc : s.Canon) : (joinGather s x k gid idx h sl).Canon
    := by
  unfold joinGather
  repeat' with_reducible first
      | assumption | apply State.modGroup_canon | apply State.modGather_canon | apply State.commit_canon | apply State.bindWith_canon
      | apply State.enqueue_canon | apply State.clearLines_canon | split

theorem openGather_canon (s : State) (x : Issue) (va : Nat) (bs : Bytes) (doff : Nat) (hc : s.Canon) : (openGather s x va bs doff).2.Canon := by
  unfold openGather
  repeat' with_reducible first
      | assumption | apply State.bump_canon | apply State.setSlot_canon | dsimp only | (simp only [State.canon_mk]; refine ⟨?_, ?_, ?_⟩)
      | apply State.Canon.mem | apply State.Canon.mbox | apply State.Canon.recWin | split

theorem cpySlice_canon (s : State) (x : Issue) (k va idx : Nat) (sl : Slice) (hc : s.Canon) : (cpySlice s x k va idx sl).Canon := by
  unfold cpySlice
  repeat' with_reducible first
      | assumption | intro _ | apply failAtIssue_canon | apply recordWord_canon | apply joinGather_canon | apply openGather_canon | dsimp only
      | split

theorem execCpy_canon (st : Bool) (k : BitVec 4) (a b : BitVec 8) (o d : BitVec 1) (s : State) (hc : s.Canon) : OutCanon (execCpy st k a b o d s) :=
    by
  unfold execCpy
  repeat' with_reducible first
      | assumption | intro _ | apply State.commit_canon | apply runWord_canon | apply noteParks_canon | apply failAtIssue_canon
      | apply cpySlice_canon | dsimp only | (simp only [State.canon_mk]; refine ⟨?_, ?_, ?_⟩) | apply State.Canon.mem | apply State.Canon.mbox
      | apply State.Canon.recWin | split

theorem execLaunch_canon (st : Bool) (k : BitVec 4) (a : BitVec 8) (s : State) (hc : s.Canon) : OutCanon (execLaunch st k a s) := by
  unfold execLaunch
  repeat' with_reducible first
      | assumption | intro _ | apply State.bump_canon | apply State.commit_canon | apply runWord_canon | apply State.bindWith_canon
      | apply State.enqueue_canon | (simp only [State.canon_mk]; refine ⟨?_, ?_, ?_⟩) | apply State.Canon.mem | apply State.Canon.mbox
      | apply State.Canon.recWin | dsimp only

theorem sacqBody_canon (s : State) (x : Issue) (d n : Nat) (hc : s.Canon) : (sacqBody s x d n).Canon := by
  unfold sacqBody
  repeat' with_reducible first
      | assumption | apply State.modTeam_canon | apply State.setSlot_canon | apply State.commit_canon | apply scalarWord_canon | split

theorem execSacq_canon (st : Bool) (d : BitVec 8) (n : BitVec 3) (s : State) (hc : s.Canon) : OutCanon (execSacq st d n s) := by
  unfold execSacq
  repeat' with_reducible first
      | assumption | intro _ | apply runWord_canon | apply gated_canon | apply sacqBody_canon

theorem spopBody_canon (s : State) (x : Issue) (d c n : Nat) (hc : s.Canon) : (spopBody s x d c n).Canon := by
  unfold spopBody
  repeat' with_reducible first
      | assumption | apply State.modTeam_canon | apply State.setSlot_canon | apply State.commit_canon | apply scalarWord_canon | split

theorem execSpop_canon (st : Bool) (d c : BitVec 8) (n : BitVec 3) (s : State) (hc : s.Canon) : OutCanon (execSpop st d c n s) := by
  unfold execSpop
  repeat' with_reducible first
      | assumption | intro _ | apply runWord_canon | apply gated_canon | apply spopBody_canon

theorem srelBody_canon (s : State) (x : Issue) (o n : Nat) (fill : Bool) (hc : s.Canon) : (srelBody s x o n fill).Canon := by
  unfold srelBody
  repeat' with_reducible first
      | assumption | apply State.setSlot_canon | apply State.commit_canon | split

theorem execSrel_canon (st : Bool) (a : BitVec 8) (f : BitVec 1) (n : BitVec 3) (s : State) (hc : s.Canon) : OutCanon (execSrel st a f n s) := by
  unfold execSrel
  repeat' with_reducible first
      | assumption | intro _ | apply runWord_canon | apply gated_canon | apply srelBody_canon

theorem kvWord_canon (s : State) (x : Issue) (k : Nat) (kind : OpKind) (va : Nat) (args : List Word) (lines : List Nat) (hc : s.Canon) : (kvWord s x
    k kind va args lines).Canon := by
  unfold kvWord
  repeat' with_reducible first
      | assumption | apply State.commit_canon | apply State.bindWith_canon | apply State.enqueue_canon | apply State.clearLines_canon

theorem execKvld_canon (st : Bool) (k : BitVec 4) (a b : BitVec 8) (o w : BitVec 1) (s : State) (hc : s.Canon) : OutCanon (execKvld st k a b o w s)
    := by
  unfold execKvld
  repeat' with_reducible first
      | assumption | intro _ | apply State.commit_canon | apply runWord_canon | apply kvWord_canon | dsimp only | split

theorem execKvseal_canon (st : Bool) (k : BitVec 4) (a b : BitVec 8) (s : State) (hc : s.Canon) : OutCanon (execKvseal st k a b s) := by
  unfold execKvseal
  repeat' with_reducible first
      | assumption | intro _ | apply runWord_canon | apply kvWord_canon

theorem execKvhdr_canon (st : Bool) (k : BitVec 4) (a b : BitVec 8) (s : State) (hc : s.Canon) : OutCanon (execKvhdr st k a b s) := by
  unfold execKvhdr
  repeat' with_reducible first
      | assumption | intro _ | apply runWord_canon | apply kvWord_canon

theorem State.nextOrdinal_canon (s : State) (asid kind cid : Nat) (hc : s.Canon) : (State.nextOrdinal s asid kind cid).2.Canon := by
  unfold State.nextOrdinal
  repeat' with_reducible first
      | assumption | (simp only [State.canon_mk]; refine ⟨?_, ?_, ?_⟩) | apply State.Canon.mem | apply State.Canon.mbox | apply State.Canon.recWin

theorem cancelAtIssue_canon (s : State) (x : Issue) (k : Nat) (kind : OpKind) (p : Packet) (hc : s.Canon) : (cancelAtIssue s x k kind p).Canon := by
  unfold cancelAtIssue
  repeat' with_reducible first
      | assumption | apply failAtIssue_canon | (simp only [State.canon_mk]; refine ⟨?_, ?_, ?_⟩) | apply State.Canon.mem | apply State.Canon.mbox
      | apply State.Canon.recWin

theorem podWord_canon (s : State) (x : Issue) (k : Nat) (kind : OpKind) (va : Nat) (bs : Bytes) (args : List Word) (cid n nchunk : Nat) (lines :
    List Nat) (hc : s.Canon) : (podWord s x k kind va bs args cid n nchunk lines).Canon := by
  unfold podWord
  repeat' with_reducible first
      | assumption | apply State.modGroup_canon | apply State.commit_canon | apply State.bindWith_canon | apply State.enqueue_canon
      | apply State.clearLines_canon | split

theorem execColl_canon (st : Bool) (k : BitVec 4) (a b : BitVec 8) (s : State) (hc : s.Canon) : OutCanon (execColl st k a b s) := by
  unfold execColl
  repeat' with_reducible first
      | assumption | intro _ | apply runWord_canon | apply failAtIssue_canon | apply recordWord_canon | apply State.nextOrdinal_canon
      | apply cancelAtIssue_canon | apply podWord_canon | dsimp only | split

theorem execMcst_canon (st : Bool) (k : BitVec 4) (a b : BitVec 8) (s : State) (hc : s.Canon) : OutCanon (execMcst st k a b s) := by
  unfold execMcst
  repeat' with_reducible first
      | assumption | intro _ | apply runWord_canon | apply failAtIssue_canon | apply recordWord_canon | apply podWord_canon | dsimp only
      | (simp only [State.canon_mk]; refine ⟨?_, ?_, ?_⟩) | apply State.Canon.mem | apply State.Canon.mbox | apply State.Canon.recWin | split

theorem dispatchBody_canon (s : State) (x : Issue) (k a b : Nat) (combine : Bool) (bs : Bytes) (hc : s.Canon) : (dispatchBody s x k a b combine
    bs).Canon := by
  unfold dispatchBody
  repeat' with_reducible first
      | assumption | apply failAtIssue_canon | apply State.nextOrdinal_canon | apply cancelAtIssue_canon | apply podWord_canon | dsimp only | split

theorem execRte_canon (st : Bool) (k : BitVec 4) (a b : BitVec 8) (s : State) (hc : s.Canon) : OutCanon (execRte st k a b s) := by
  unfold execRte
  repeat' with_reducible first
      | assumption | intro _ | apply runWord_canon | apply recordWord_canon | apply dispatchBody_canon

theorem execRtc_canon (st : Bool) (k : BitVec 4) (a b : BitVec 8) (s : State) (hc : s.Canon) : OutCanon (execRtc st k a b s) := by
  unfold execRtc
  repeat' with_reducible first
      | assumption | intro _ | apply runWord_canon | apply recordWord_canon | apply dispatchBody_canon

/-! ## Engine -/

theorem State.holdFor_canon (s : State) (asid page : Nat) (light writes : Bool) (hc : s.Canon) : (State.holdFor s asid page light writes).Canon := by
  unfold State.holdFor
  repeat' with_reducible first
      | assumption | (simp only [State.canon_mk]; refine ⟨?_, ?_, ?_⟩) | apply State.Canon.mem | apply State.Canon.mbox | apply State.Canon.recWin
      | split

theorem State.writeNear_canon (s : State) (clu asid : Nat) (a0 : List (Phys × Nat)) (a1 : Bytes) (hc : s.Canon) : (State.writeNear s clu asid a0
    a1).Canon := by
  induction a0 generalizing a1 s clu asid with
  | nil =>
    unfold State.writeNear
    repeat' with_reducible first
        | assumption
  | cons x l ih =>
    unfold State.writeNear
    repeat' with_reducible first
        | assumption | apply ih | apply State.putLocal_canon | apply State.homeWrite_canon | apply State.dropExtent_canon | split

theorem memWfFrom_filter {p : Host.Cell → Bool} {m : Memory} {lo : Nat} (h : memWfFrom lo m = true) : memWfFrom lo (m.filter p) = true := by
  induction m generalizing lo with
  | nil => rfl
  | cons c m ih =>
    obtain ⟨a, b⟩ := c
    simp [memWfFrom] at h
    obtain ⟨⟨h1, h2⟩, h3⟩ := h
    rw [List.filter_cons]
    split
    · simp [memWfFrom, h1, h2]; exact ih h3
    · exact memWfFrom_mono (ih h3) (by omega)
theorem clearRange_wf {m : Memory} {a n : Nat} (h : m.wf = true) : (clearRange m a n).wf = true := memWfFrom_filter h

theorem putCells_wf (m : Memory) (src dst : Nat) (a0 : List Host.Cell) (hc : m.wf = true) : (putCells m src dst a0).wf = true := by
  induction a0 generalizing m src dst with
  | nil =>
    unfold putCells
    repeat' with_reducible first
        | assumption
  | cons x l ih =>
    unfold putCells
    repeat' with_reducible first
        | assumption | apply ih | apply memPut_wf

theorem copyRange_wf (m : Memory) (src dst n : Nat) (hc : m.wf = true) : (copyRange m src dst n).wf = true := by
  unfold copyRange
  repeat' with_reducible first
      | assumption | apply clearRange_wf | apply putCells_wf

theorem State.askRead_canon (s : State) (dev pa n : Nat) (owner : ReqFor) (asid grp : Nat) (hc : s.Canon) : (State.askRead s dev pa n owner asid
    grp).1.Canon := by
  unfold State.askRead
  repeat' with_reducible first
      | assumption | apply State.request_canon

theorem State.askWrite_canon (s : State) (dev pa : Nat) (data : Bytes) (owner : ReqFor) (asid grp : Nat) (hc : s.Canon) : (State.askWrite s dev pa
    data owner asid grp).1.Canon := by
  unfold State.askWrite
  repeat' with_reducible first
      | assumption | apply State.request_canon

theorem State.askAtomic_canon (s : State) (dev pa aux : Nat) (data : Bytes) (owner : ReqFor) (asid grp : Nat) (hc : s.Canon) : (State.askAtomic s
    dev pa aux data owner asid grp).1.Canon := by
  unfold State.askAtomic
  repeat' with_reducible first
      | assumption | apply State.request_canon

theorem State.orderNo_canon (s : State) (grp dev pa : Nat) (hc : s.Canon) : (State.orderNo s grp dev pa).2.Canon := by
  unfold State.orderNo
  repeat' with_reducible first
      | assumption | (simp only [State.canon_mk]; refine ⟨?_, ?_, ?_⟩) | apply State.Canon.mem | apply State.Canon.mbox | apply State.Canon.recWin

theorem State.opEnds_canon (s : State) (o : Op) (cause lane size va : Nat) (hc : s.Canon) : (State.opEnds s o cause lane size va).Canon := by
  unfold State.opEnds
  repeat' with_reducible first
      | assumption | apply State.endTask_canon | dsimp only | (simp only [State.canon_mk]; refine ⟨?_, ?_, ?_⟩) | apply State.Canon.mem
      | apply State.Canon.mbox | apply State.Canon.recWin

theorem State.endCommand_canon (s : State) (o : Op) (st : TokState) (cause : BitVec 8) (hc : s.Canon) : (State.endCommand s o st cause).Canon := by
  unfold State.endCommand
  repeat' with_reducible first
      | assumption | apply State.finishOp_canon | apply State.endCopy_canon | split

theorem State.engineEnds_canon (s : State) (o : Op) (cause va : Nat) (hc : s.Canon) : (State.engineEnds s o cause va).Canon := by
  unfold State.engineEnds
  repeat' with_reducible first
      | assumption | apply State.opEnds_canon | apply State.endCommand_canon

/-! ## Chunk -/



/-! ## Transfer -/

/-- The state that an outcome carries has the canonical form. -/
def Got.Canon : Got → Prop
  | .ok _ => True
  | .wait s => s.Canon
  | .halted s => s.Canon
  | .fail _ => True
theorem Got.ok_mk {x0} : (Got.ok x0).Canon := trivial
theorem Got.wait_mk {s : State} (h : s.Canon) : (Got.wait s).Canon := h
theorem Got.wait_canon {r : Got} {s : State} (e : r = .wait s) (h : r.Canon) : s.Canon := by subst e; exact h
theorem Got.halted_mk {s : State} (h : s.Canon) : (Got.halted s).Canon := h
theorem Got.halted_canon {r : Got} {s : State} (e : r = .halted s) (h : r.Canon) : s.Canon := by subst e; exact h
theorem Got.fail_mk {x0} : (Got.fail x0).Canon := trivial
theorem Got.wait_snd {p : Nat × Got} {n : Nat} {s : State} (e : p = (n, Got.wait s)) (h : p.2.Canon) : s.Canon := by subst e; exact h
theorem Got.halted_snd {p : Nat × Got} {n : Nat} {s : State} (e : p = (n, Got.halted s)) (h : p.2.Canon) : s.Canon := by subst e; exact h
/-- The state that a refused check carries has the canonical form. -/
def ErrGot : Except Got Nat → Prop
  | .error g => g.Canon
  | .ok _ => True
theorem ErrGot.error {g : Got} (h : g.Canon) : ErrGot (.error g) := h
theorem ErrGot.ok {n : Nat} : ErrGot (.ok n) := trivial
theorem ErrGot.wait_canon {p : Except Got Nat} {s : State} (e : p = .error (Got.wait s)) (h : ErrGot p) : s.Canon := by subst e; exact h
theorem ErrGot.halted_canon {p : Except Got Nat} {s : State} (e : p = .error (Got.halted s)) (h : ErrGot p) : s.Canon := by subst e; exact h

/-- The state that an outcome carries has the canonical form. -/
def Put.Canon : Put → Prop
  | .ok s => s.Canon
  | .wait s => s.Canon
  | .halted s => s.Canon
  | .fail _ => True
theorem Put.ok_mk {s : State} (h : s.Canon) : (Put.ok s).Canon := h
theorem Put.ok_canon {r : Put} {s : State} (e : r = .ok s) (h : r.Canon) : s.Canon := by subst e; exact h
theorem Put.wait_mk {s : State} (h : s.Canon) : (Put.wait s).Canon := h
theorem Put.wait_canon {r : Put} {s : State} (e : r = .wait s) (h : r.Canon) : s.Canon := by subst e; exact h
theorem Put.halted_mk {s : State} (h : s.Canon) : (Put.halted s).Canon := h
theorem Put.halted_canon {r : Put} {s : State} (e : r = .halted s) (h : r.Canon) : s.Canon := by subst e; exact h
theorem Put.fail_mk {x0} : (Put.fail x0).Canon := trivial
theorem Put.foldl_canon {α : Type} {f : Put → α → Put} {l : List α} {q : Put} (hf : ∀ q x, q.Canon → (f q x).Canon) (h : q.Canon) : (l.foldl f
    q).Canon := by
  induction l generalizing q with
  | nil => exact h
  | cons x l ih => exact ih (hf q x h)
theorem Put.ok_inv {s : State} (h : (Put.ok s).Canon) : s.Canon := h
theorem Put.ok_fst {p : Put × Nat} {n : Nat} {s : State} (e : p = (Put.ok s, n)) (h : p.1.Canon) : s.Canon := by subst e; exact h
theorem Put.wait_fst {p : Put × Nat} {n : Nat} {s : State} (e : p = (Put.wait s, n)) (h : p.1.Canon) : s.Canon := by subst e; exact h
theorem Put.halted_fst {p : Put × Nat} {n : Nat} {s : State} (e : p = (Put.halted s, n)) (h : p.1.Canon) : s.Canon := by subst e; exact h

theorem State.failOp_canon (s : State) (id : Nat) (c : BitVec 8) (hc : s.Canon) : (State.failOp s id c).Canon := by
  unfold State.failOp
  repeat' with_reducible first
      | assumption | apply State.modOp_canon

theorem State.putBuf_canon (s : State) (id key tag : Nat) (bs : Bytes) (hc : s.Canon) : (State.putBuf s id key tag bs).Canon := by
  unfold State.putBuf
  repeat' with_reducible first
      | assumption | apply State.modOp_canon

theorem State.dropBufs_canon (s : State) (id lo n : Nat) (hc : s.Canon) : (State.dropBufs s id lo n).Canon := by
  unfold State.dropBufs
  repeat' with_reducible first
      | assumption | apply State.modOp_canon

theorem State.askSource_canon (s : State) (o : Op) (dev pa n key : Nat) (hc : s.Canon) : (State.askSource s o dev pa n key).1.Canon := by
  unfold State.askSource
  repeat' with_reducible first
      | assumption | apply State.request_canon

theorem State.askPiece_canon (s : State) (o : Op) (key : Nat) (p : Phys) (n : Nat) (hc : s.Canon) : (State.askPiece s o key p n).Canon := by
  unfold State.askPiece
  repeat' with_reducible first
      | assumption | apply State.bump_canon | apply State.noteFault_canon | apply State.askRead_canon | apply State.failOp_canon
      | apply State.putBuf_canon | apply State.askSource_canon | refine fst_canon (by assumption) ?_
      | (simp only [State.canon_mk]; refine ⟨?_, ?_, ?_⟩) | apply State.Canon.mem | apply State.Canon.mbox | apply State.Canon.recWin | split

theorem askAll_canon (o : Op) (a0 : Nat) (a1 : List (Phys × Nat)) (a2 : State) (hc : a2.Canon) : (askAll o a0 a1 a2).Canon := by
  induction a1 generalizing a0 a2 o with
  | nil =>
    unfold askAll
    repeat' with_reducible first
        | assumption
  | cons x l ih =>
    unfold askAll
    repeat' with_reducible first
        | assumption | apply ih | apply State.askPiece_canon | split

theorem State.engineGet_canon (s : State) (o : Op) (key va n : Nat) (hc : s.Canon) : (State.engineGet s o key va n).Canon := by
  unfold State.engineGet
  repeat' with_reducible first
      | assumption | apply State.holdFor_canon | apply State.engineEnds_canon | apply State.failOp_canon | apply State.putBuf_canon
      | apply askAll_canon | apply Got.halted_mk | apply Got.wait_mk | exact Got.fail_mk | exact Got.ok_mk | dsimp only | split

theorem State.engineGetAll_canon (s : State) (o : Op) (a0 : Nat) (a1 : List (Nat × Nat)) (hc : s.Canon) : (State.engineGetAll s o a0 a1).Canon := by
  induction a1 generalizing a0 s o with
  | nil =>
    unfold State.engineGetAll
    repeat' with_reducible first
        | assumption | apply State.engineGet_canon | exact Got.ok_mk
  | cons x l ih =>
    unfold State.engineGetAll
    repeat' with_reducible first
        | assumption | apply ih | apply State.engineGet_canon | exact Got.ok_mk | split

theorem State.sendChunk_canon (s : State) (dev : Nat) (addr : Nat) (fmt : Nat) (bad : Option Nat) (red : Bool) (aux : Nat) (data : Bytes) (owner :
    ReqFor) (asid grp : Nat) (hc : s.Canon) : (State.sendChunk s dev addr fmt bad red aux data owner asid grp).1.Canon := by
  unfold State.sendChunk
  repeat' with_reducible first
      | assumption | apply State.request_canon

theorem State.putAway_canon (s : State) (o : Op) (key fmt : Nat) (chunk : Bool) (a0 : List (Phys × Nat)) (a1 : Bytes) (hc : s.Canon) :
    (State.putAway s o key fmt chunk a0 a1).Canon := by
  induction a0 generalizing a1 s o key fmt chunk with
  | nil =>
    unfold State.putAway
    repeat' with_reducible first
        | assumption
  | cons x l ih =>
    unfold State.putAway
    repeat' with_reducible first
        | assumption | intro _ | apply ih | apply State.noteFault_canon | apply State.askWrite_canon | apply State.failOp_canon
        | apply State.sendChunk_canon | refine fst_canon (by assumption) ?_ | apply foldl_canon | (simp only [State.canon_mk]; refine ⟨?_, ?_, ?_⟩)
        | apply State.Canon.mem | apply State.Canon.mbox | apply State.Canon.recWin | split

theorem State.enginePut_canon (s : State) (o : Op) (key va fmt : Nat) (chunk : Bool) (bs : Bytes) (hc : s.Canon) : (State.enginePut s o key va fmt
    chunk bs).Canon := by
  unfold State.enginePut
  repeat' with_reducible first
      | assumption | apply State.holdFor_canon | apply State.writeNear_canon | apply State.engineEnds_canon | apply State.putAway_canon
      | apply Put.halted_mk | apply Put.ok_mk | apply Put.wait_mk | exact Put.fail_mk | split

theorem putEntries_canon (o : Op) (list size cap c key : Nat) (a0 : Nat) (a1 : List Bytes) (a2 : State) (hc : a2.Canon) : (putEntries o list size
    cap c key a0 a1 a2).Canon := by
  induction a1 generalizing a0 a2 o list size cap c key with
  | nil =>
    unfold putEntries
    repeat' with_reducible first
        | assumption | apply State.putBuf_canon | apply State.enginePut_canon | refine Put.ok_canon (by assumption) ?_
        | refine Put.wait_canon (by assumption) ?_ | apply Put.ok_mk
  | cons x l ih =>
    unfold putEntries
    repeat' with_reducible first
        | assumption | apply ih | apply State.putBuf_canon | apply State.enginePut_canon | refine Put.ok_canon (by assumption) ?_
        | refine Put.wait_canon (by assumption) ?_ | apply Put.ok_mk | apply Put.wait_mk | split

theorem State.listAdd_canon (s : State) (o : Op) (va k key : Nat) (hc : s.Canon) : (State.listAdd s o va k key).Canon := by
  unfold State.listAdd
  repeat' with_reducible first
      | assumption | apply State.homeWrite_canon | apply State.dropExtent_canon | apply State.holdFor_canon | apply State.askAtomic_canon
      | apply State.engineEnds_canon | apply State.putBuf_canon | refine fst_canon (by assumption) ?_ | apply Got.halted_mk | apply Got.wait_mk
      | exact Got.fail_mk | split

theorem State.listUpdate_canon (s : State) (o : Op) (list size skip key : Nat) (es : List Bytes) (hc : s.Canon) : (State.listUpdate s o list size
    skip key es).Canon := by
  unfold State.listUpdate
  repeat' with_reducible first
      | assumption | apply State.putBuf_canon | apply State.engineGet_canon | apply putEntries_canon | apply State.listAdd_canon
      | refine Put.ok_canon (by assumption) ?_ | refine Put.wait_canon (by assumption) ?_ | refine Put.halted_canon (by assumption) ?_
      | apply Got.halted_mk | apply Got.wait_mk | exact Got.fail_mk | exact Got.ok_mk | dsimp only | split

theorem State.listHeader_canon (s : State) (o : Op) (list size key : Nat) (hc : s.Canon) : (State.listHeader s o list size key).Canon := by
  unfold State.listHeader
  repeat' with_reducible first
      | assumption | apply State.engineEnds_canon | apply State.engineGet_canon | apply Got.halted_mk | exact Got.fail_mk | exact Got.ok_mk | split

end Sys2Proof.Machine
end

