-- ==== Sys2Proof/Laws/CanonicalEvents.lean ====
section
/-!
SUPPORT. Canonical form: the steps of the engines, the fabric, the tables and the dispatch, and the words that start them, keep the canonical form of the device's memories.
`f_canon` says it of `f`, in the order of the model's files.
-/
namespace Sys2Proof.Machine
open Sys2Proof
set_option Elab.async false

/-! ## MemEvents -/

/-- The state that an outcome carries has the canonical form. -/
def TileExt.Canon : TileExt → Prop
  | .ok _ _ => True
  | .wait s => s.Canon
  | .halted s => s.Canon
theorem TileExt.ok_mk {x0} {x1} : (TileExt.ok x0 x1).Canon := trivial
theorem TileExt.wait_mk {s : State} (h : s.Canon) : (TileExt.wait s).Canon := h
theorem TileExt.wait_canon {r : TileExt} {s : State} (e : r = .wait s) (h : r.Canon) : s.Canon := by subst e; exact h
theorem TileExt.halted_mk {s : State} (h : s.Canon) : (TileExt.halted s).Canon := h
theorem TileExt.halted_canon {r : TileExt} {s : State} (e : r = .halted s) (h : r.Canon) : s.Canon := by subst e; exact h

theorem State.storeL1_canon (s : State) (core pa : Nat) (bs : Bytes) (hc : s.Canon) : (State.storeL1 s core pa bs).Canon := by
  unfold State.storeL1
  repeat' with_reducible first
      | assumption | (simp only [State.canon_mk]; refine ⟨?_, ?_, ?_⟩) | apply State.Canon.mem | apply State.Canon.mbox | apply State.Canon.recWin

theorem State.storeCluster_canon (s : State) (core asid pa : Nat) (bs : Bytes) (hc : s.Canon) : (State.storeCluster s core asid pa bs).Canon := by
  unfold State.storeCluster
  repeat' with_reducible first
      | assumption | apply State.allocCC_canon | apply State.storeL1_canon | (simp only [State.canon_mk]; refine ⟨?_, ?_, ?_⟩)
      | apply State.Canon.mem | apply State.Canon.mbox | apply State.Canon.recWin

theorem State.storeBy_canon (s : State) (cp core asid pa : Nat) (bs : Bytes) (hc : s.Canon) : (State.storeBy s cp core asid pa bs).Canon := by
  unfold State.storeBy
  repeat' with_reducible first
      | assumption | apply State.homeWrite_canon | apply State.writeBack_canon | apply State.storeL1_canon | apply State.storeCluster_canon
      | (simp only [State.canon_mk]; refine ⟨?_, ?_, ?_⟩) | apply State.Canon.mem | apply State.Canon.mbox | apply State.Canon.recWin | split

theorem State.fillFor_canon (s : State) (cp core asid va pa : Nat) (hc : s.Canon) : (State.fillFor s cp core asid va pa).Canon := by
  unfold State.fillFor
  repeat' with_reducible first
      | assumption | apply State.allocCC_canon | apply State.fillL1_canon | dsimp only | split

theorem State.countHome_canon (s : State) (g : Group) (pa : Nat) (hc : s.Canon) : (State.countHome s g pa).Canon := by
  unfold State.countHome
  repeat' with_reducible first
      | assumption | apply State.count_canon | (simp only [State.canon_mk]; refine ⟨?_, ?_, ?_⟩) | apply State.Canon.mem | apply State.Canon.mbox
      | apply State.Canon.recWin

theorem State.countCluster_canon (s : State) (g : Group) (pa : Nat) (hc : s.Canon) : (State.countCluster s g pa).Canon := by
  unfold State.countCluster
  repeat' with_reducible first
      | assumption | apply State.countHome_canon | apply State.count_canon | split

theorem State.countLoad_canon (s : State) (g : Group) (va pa : Nat) (hc : s.Canon) : (State.countLoad s g va pa).Canon := by
  unfold State.countLoad
  repeat' with_reducible first
      | assumption | apply State.countCluster_canon | apply State.count_canon | split

theorem State.sentPart_canon (s : State) (o : Op) (lane : Nat) (hc : s.Canon) : (State.sentPart s o lane).Canon := by
  unfold State.sentPart
  repeat' with_reducible first
      | assumption | apply State.modPart_canon

theorem State.performedPart_canon (s : State) (o : Op) (lane : Nat) (hc : s.Canon) : (State.performedPart s o lane).Canon := by
  unfold State.performedPart
  repeat' with_reducible first
      | assumption | apply State.modPart_canon

theorem State.sentOr_canon {o : Op} {lane : Nat} {p : State × Bool} (h : p.1.Canon) : (State.sentOr o lane p).Canon := by
  obtain ⟨s, b⟩ := p
  cases b
  · exact State.finishPart_canon _ _ _ _ h
  · exact State.sentPart_canon _ _ _ h

theorem State.sendStore_canon (s : State) (g : Group) (o : Op) (p : Part) (hc : s.Canon) : (State.sendStore s g o p).Canon := by
  unfold State.sendStore
  repeat' with_reducible first
      | assumption | apply State.countCluster_canon | apply State.putLocal_canon | apply State.sendFlag_canon | apply State.putFrames_canon | apply State.noteFault_canon
      | apply State.askWrite_canon | apply State.opEnds_canon | apply State.storeBy_canon | apply State.sentPart_canon
      | apply State.performedPart_canon | apply State.sentOr_canon | (simp only [State.canon_mk]; refine ⟨?_, ?_, ?_⟩) | apply State.Canon.mem
      | apply State.Canon.mbox | apply State.Canon.recWin | split

theorem State.sendHome_canon (s : State) (o : Op) (p : Part) (hc : s.Canon) : (State.sendHome s o p).Canon := by
  unfold State.sendHome
  repeat' with_reducible first
      | assumption | apply State.sendFlag_canon | apply State.askAtomic_canon | apply State.orderNo_canon | apply State.sentPart_canon
      | apply State.sentOr_canon | split

theorem State.popQueue_canon (s : State) (u : Nat) (hc : s.Canon) : (State.popQueue s u).Canon := by
  unfold State.popQueue
  repeat' with_reducible first
      | assumption | apply State.modGroup_canon

theorem sendParts_canon (g : Group) (o : Op) (store : Bool) (a0 : List Part) (a1 : State) (hc : a1.Canon) : (sendParts g o store a0 a1).Canon := by
  induction a0 generalizing a1 g o store with
  | nil =>
    unfold sendParts
    repeat' with_reducible first
        | assumption
  | cons x l ih =>
    unfold sendParts
    repeat' with_reducible first
        | assumption | apply ih | apply State.sendStore_canon | apply State.sendHome_canon | split

theorem State.drainPart_canon (s : State) (g : Group) (e : QEntry) (hc : s.Canon) : (State.drainPart s g e).Canon := by
  unfold State.drainPart
  repeat' with_reducible first
      | assumption | apply State.modGroup_canon | apply State.release_canon | apply State.finishPart_canon | apply State.popQueue_canon
      | apply sendParts_canon | dsimp only | split

theorem State.initBarrier_canon (s : State) (pa : Nat) (w0 w1 : Word) (asid tag : Nat) (hc : s.Canon) : (State.initBarrier s pa w0 w1 asid
    tag).Canon := by
  unfold State.initBarrier
  repeat' with_reducible first
      | assumption | apply State.homeWrite_canon

theorem State.sendBarrier_canon (s : State) (g : Group) (o : Op) (hc : s.Canon) : (State.sendBarrier s g o).Canon := by
  unfold State.sendBarrier
  repeat' with_reducible first
      | assumption | apply State.dropExtent_canon | apply State.sendFlag_canon | apply State.sendUpdate_canon | apply State.finishOp_canon
      | apply State.opEnds_canon | apply State.sentPart_canon | apply State.initBarrier_canon | refine fst_canon (by assumption) ?_ | dsimp only
      | (simp only [State.canon_mk]; refine ⟨?_, ?_, ?_⟩) | apply State.Canon.mem | apply State.Canon.mbox | apply State.Canon.recWin | split

theorem sendUpdates_canon (u : Nat) (a0 : List (Nat × BUpdate)) (a1 : State) (hc : a1.Canon) : (sendUpdates u a0 a1).Canon := by
  induction a0 generalizing a1 u with
  | nil =>
    unfold sendUpdates
    repeat' with_reducible first
        | assumption
  | cons x l ih =>
    unfold sendUpdates
    repeat' with_reducible first
        | assumption | apply ih | apply State.sendUpdate_canon

theorem State.drainTexp_canon (s : State) (g : Group) (e : QEntry) (hc : s.Canon) : (State.drainTexp s g e).Canon := by
  unfold State.drainTexp
  repeat' with_reducible first
      | assumption | apply State.release_canon | apply State.popQueue_canon | apply sendUpdates_canon | dsimp only | split

theorem State.drainBarrier_canon (s : State) (g : Group) (e : QEntry) (hc : s.Canon) : (State.drainBarrier s g e).Canon := by
  unfold State.drainBarrier
  repeat' with_reducible first
      | assumption | apply State.release_canon | apply State.finishOp_canon | apply State.popQueue_canon | apply State.sendBarrier_canon
      | apply State.drainTexp_canon | dsimp only | split

theorem State.drainFence_canon (s : State) (g : Group) (e : QEntry) (scope : BitVec 3) (upto : Nat) (hc : s.Canon) : (State.drainFence s g e scope
    upto).Canon := by
  unfold State.drainFence
  repeat' with_reducible first
      | assumption | apply State.release_canon | apply State.popQueue_canon | dsimp only | split

theorem execStoreQueueDrain_canon (u : Nat) (s : State) (hc : s.Canon) : OutCanon (execStoreQueueDrain u s) := by
  unfold execStoreQueueDrain
  repeat' with_reducible first
      | assumption | apply State.finishGroup_canon | apply State.drainPart_canon | apply State.drainBarrier_canon | apply State.drainFence_canon
      | apply OutCanon.next | split

theorem State.atomicAt_canon (s : State) (tag bits pa : Nat) (opnd : Bytes) (hc : s.Canon) : (State.atomicAt s tag bits pa opnd).1.Canon := by
  unfold State.atomicAt
  repeat' with_reducible first
      | assumption | apply State.homeWrite_canon | dsimp only | split

theorem performAtomics_canon (o : Op) (pa : Nat) (a0 : List Part) (a1 : State) (hc : a1.Canon) : (performAtomics o pa a0 a1).Canon := by
  induction a0 generalizing a1 o pa with
  | nil =>
    unfold performAtomics
    repeat' with_reducible first
        | assumption
  | cons x l ih =>
    unfold performAtomics
    repeat' with_reducible first
        | assumption | apply ih | apply State.modPart_canon | apply State.finishPart_canon | apply State.atomicAt_canon | split

theorem State.replyAtomic_canon (s : State) (g : Group) (o : Op) (pa : Nat) (hc : s.Canon) : (State.replyAtomic s g o pa).Canon := by
  unfold State.replyAtomic
  repeat' with_reducible first
      | assumption | apply State.countHome_canon | apply State.dropExtent_canon | apply State.acquire_canon | apply State.opEnds_canon | apply performAtomics_canon | dsimp only
      | split

theorem State.loadHome_canon (s : State) (g : Group) (o : Op) (p : Part) (pa : Nat) (hc : s.Canon) : (State.loadHome s g o p pa).Canon := by
  unfold State.loadHome
  repeat' with_reducible first
      | assumption | apply State.countLoad_canon | apply State.modPart_canon | apply State.acquire_canon | apply State.finishPart_canon | apply State.opEnds_canon
      | apply State.fillFor_canon | split

theorem State.loadAway_canon (s : State) (g : Group) (o : Op) (p : Part) (hc : s.Canon) : (State.loadAway s g o p).Canon := by
  unfold State.loadAway
  repeat' with_reducible first
      | assumption | apply State.modPart_canon | apply State.bump_canon | apply State.acquire_canon | apply State.finishPart_canon
      | apply State.noteFault_canon | apply State.askRead_canon | apply State.sentPart_canon | apply State.sentOr_canon | apply State.loadHome_canon
      | (simp only [State.canon_mk]; refine ⟨?_, ?_, ?_⟩) | apply State.Canon.mem | apply State.Canon.mbox | apply State.Canon.recWin | split

theorem State.replyLoad_canon (s : State) (g : Group) (o : Op) (p : Part) (hc : s.Canon) : (State.replyLoad s g o p).Canon := by
  unfold State.replyLoad
  repeat' with_reducible first
      | assumption | apply State.finishPart_canon | apply State.loadAway_canon | dsimp only | split

theorem State.replyStore_canon (s : State) (g : Group) (o : Op) (p : Part) (hc : s.Canon) : (State.replyStore s g o p).Canon := by
  unfold State.replyStore
  repeat' with_reducible first
      | assumption | apply State.writeBack_canon | apply State.finishPart_canon | split

theorem flushLine_canon (core : Nat) (opn : BitVec 2) (pa : Nat) (s : State) (hc : s.Canon) : (flushLine core opn pa s).Canon := by
  unfold flushLine
  repeat' with_reducible first
      | assumption | apply State.writeBack_canon | apply State.dropLine_canon | (simp only [State.canon_mk]; refine ⟨?_, ?_, ?_⟩)
      | apply State.Canon.mem | apply State.Canon.mbox | apply State.Canon.recWin | split

theorem flushSpan_canon (core : Nat) (opn : BitVec 2) (p : Phys) (n : Nat) (s : State) (hc : s.Canon) : (flushSpan core opn p n s).Canon := by
  unfold flushSpan
  repeat' with_reducible first
      | assumption | intro _ | apply flushLine_canon | apply foldl_canon | split

theorem State.replyFlush_canon (s : State) (g : Group) (o : Op) (p : Part) (opn : BitVec 2) (hc : s.Canon) : (State.replyFlush s g o p opn).Canon :=
    by
  unfold State.replyFlush
  repeat' with_reducible first
      | assumption | apply State.finishPart_canon | apply flushSpan_canon | split

theorem State.endTile_canon (s : State) (o : Op) (p : Part) (c : BitVec 8) (hc : s.Canon) : (State.endTile s o p c).Canon := by
  unfold State.endTile
  repeat' with_reducible first
      | assumption | apply State.finishPart_canon | (simp only [State.canon_mk]; refine ⟨?_, ?_, ?_⟩) | apply State.Canon.mem
      | apply State.Canon.mbox | apply State.Canon.recWin

theorem State.tileExtent_canon (s : State) (g : Group) (o : Op) (p : Part) (w : Nat) (write : Bool) (hc : s.Canon) : (State.tileExtent s g o p w
    write).Canon := by
  unfold State.tileExtent
  repeat' with_reducible first
      | assumption | apply State.holdFor_canon | apply State.opEnds_canon | apply State.endTile_canon | apply TileExt.halted_mk
      | apply TileExt.wait_mk | exact TileExt.ok_mk | dsimp only | split

theorem askPieces_canon (o : Op) (lane : Nat) (a0 : Nat) (a1 : List (Phys × Nat)) (a2 : State) (hc : a2.Canon) : (askPieces o lane a0 a1 a2).Canon
    := by
  induction a1 generalizing a0 a2 o lane with
  | nil =>
    unfold askPieces
    repeat' with_reducible first
        | assumption
  | cons x l ih =>
    unfold askPieces
    repeat' with_reducible first
        | assumption | intro _ | apply ih | (injection ‹_ :: _ = _ :: _› with e1 e2; subst e1; subst e2) | apply State.askRead_canon
        | apply foldl_canon | split

theorem pushPieces_canon (o : Op) (lane : Nat) (a0 : Nat) (a1 : List (Phys × Nat)) (a2 : Bytes) (a3 : State) (hc : a3.Canon) : (pushPieces o lane a0
    a1 a2 a3).Canon := by
  induction a1 generalizing a0 a2 a3 o lane with
  | nil =>
    unfold pushPieces
    repeat' with_reducible first
        | assumption
  | cons x l ih =>
    unfold pushPieces
    repeat' with_reducible first
        | assumption | intro _ | apply ih | (injection ‹_ :: _ = _ :: _› with e1 e2; subst e1; subst e2) | apply State.askWrite_canon
        | apply foldl_canon | split

theorem State.askWord_canon (s : State) (o : Op) (p : Part) (dev pa : Nat) (hc : s.Canon) : (State.askWord s o p dev pa).Canon := by
  unfold State.askWord
  repeat' with_reducible first
      | assumption | apply State.askRead_canon | apply State.endTile_canon | refine fst_canon (by assumption) ?_ | split

theorem tileIn_canon (spad : Nat) (a0 : Nat) (a1 : List (Phys × Nat)) (a2 : State) (hc : a2.Canon) : (tileIn spad a0 a1 a2).Canon := by
  induction a1 generalizing a0 a2 spad with
  | nil =>
    unfold tileIn
    repeat' with_reducible first
        | assumption
  | cons x l ih =>
    unfold tileIn
    repeat' with_reducible first
        | assumption | apply ih | (simp only [State.canon_mk]; refine ⟨?_, ?_, ?_⟩) | apply putBytes_wf | apply State.Canon.mem
        | apply State.Canon.mbox | apply State.Canon.recWin | split

theorem State.ldtBegin_canon (s : State) (g : Group) (o : Op) (p : Part) (w : Nat) (hc : s.Canon) : (State.ldtBegin s g o p w).Canon := by
  unfold State.ldtBegin
  repeat' with_reducible first
      | assumption | apply State.modPart_canon | apply State.tileExtent_canon | apply askPieces_canon | refine TileExt.wait_canon (by assumption) ?_
      | refine TileExt.halted_canon (by assumption) ?_ | (simp only [State.canon_mk]; refine ⟨?_, ?_, ?_⟩) | apply State.Canon.mem
      | apply State.Canon.mbox | apply State.Canon.recWin | split

theorem State.ldtEnd_canon (s : State) (g : Group) (o : Op) (p : Part) (w : Nat) (hc : s.Canon) : (State.ldtEnd s g o p w).Canon := by
  unfold State.ldtEnd
  repeat' with_reducible first
      | assumption | apply State.modPart_canon | apply State.acquire_canon | apply State.endTile_canon | split

theorem State.ldtFirst_canon (s : State) (g : Group) (o : Op) (p : Part) (w : Nat) (hc : s.Canon) : (State.ldtFirst s g o p w).Canon := by
  unfold State.ldtFirst
  repeat' with_reducible first
      | assumption | apply State.modPart_canon | apply State.endTile_canon | apply State.ldtBegin_canon | split

theorem State.replyLdt_canon (s : State) (g : Group) (o : Op) (p : Part) (hc : s.Canon) : (State.replyLdt s g o p).Canon := by
  unfold State.replyLdt
  repeat' with_reducible first
      | assumption | intro _ | apply State.dropExtent_canon | apply State.askRead_canon | apply State.opEnds_canon | apply State.tileExtent_canon
      | apply State.askWord_canon | apply tileIn_canon | apply State.ldtEnd_canon | apply State.ldtFirst_canon
      | refine TileExt.wait_canon (by assumption) ?_ | refine TileExt.halted_canon (by assumption) ?_ | apply foldl_canon | split

theorem execLdtRetry_canon (id lane : Nat) (s : State) (hc : s.Canon) : OutCanon (execLdtRetry id lane s) := by
  unfold execLdtRetry
  repeat' with_reducible first
      | assumption | apply State.modPart_canon | apply OutCanon.next | dsimp only | (simp only [State.canon_mk]; refine ⟨?_, ?_, ?_⟩)
      | apply State.Canon.mem | apply State.Canon.mbox | apply State.Canon.recWin | split

theorem State.sttTake_canon (s : State) (g : Group) (o : Op) (p : Part) (w : Nat) (hc : s.Canon) : (State.sttTake s g o p w).Canon := by
  unfold State.sttTake
  repeat' with_reducible first
      | assumption | apply State.modPart_canon | apply State.homeWrite_canon | apply State.askAtomic_canon | apply State.endTile_canon
      | apply State.tileExtent_canon | refine TileExt.wait_canon (by assumption) ?_ | refine TileExt.halted_canon (by assumption) ?_ | split

theorem State.sttWrite_canon (s : State) (g : Group) (o : Op) (p : Part) (hc : s.Canon) : (State.sttWrite s g o p).Canon := by
  unfold State.sttWrite
  repeat' with_reducible first
      | assumption | apply State.modPart_canon | apply State.writeNear_canon | apply State.tileExtent_canon | apply pushPieces_canon
      | refine TileExt.wait_canon (by assumption) ?_ | refine TileExt.halted_canon (by assumption) ?_ | dsimp only | split

theorem State.sttClose_canon (s : State) (g : Group) (o : Op) (p : Part) (hc : s.Canon) : (State.sttClose s g o p).Canon := by
  unfold State.sttClose
  repeat' with_reducible first
      | assumption | apply State.modPart_canon | apply State.homeWrite_canon | apply State.dropExtent_canon | apply State.acquire_canon
      | apply State.finishPart_canon | apply State.askWrite_canon | split

theorem execSttProgress_canon (id lane : Nat) (s : State) (hc : s.Canon) : OutCanon (execSttProgress id lane s) := by
  unfold execSttProgress
  repeat' with_reducible first
      | assumption | apply State.dropExtent_canon | apply State.opEnds_canon | apply State.askWord_canon | apply State.sttTake_canon
      | apply State.sttWrite_canon | apply State.sttClose_canon | apply OutCanon.next | split

theorem State.replyPart_canon (s : State) (id lane : Nat) (hc : s.Canon) : (State.replyPart s id lane).Canon := by
  unfold State.replyPart
  repeat' with_reducible first
      | assumption | apply State.replyAtomic_canon | apply State.replyLoad_canon | apply State.replyStore_canon | apply State.replyFlush_canon
      | apply State.replyLdt_canon | split

theorem execMemoryReply_canon (id lane : Nat) (s : State) (hc : s.Canon) : OutCanon (execMemoryReply id lane s) := by
  unfold execMemoryReply
  repeat' with_reducible first
      | assumption | apply State.replyPart_canon | apply OutCanon.next

/-! ## MatrixWords -/

theorem State.modTile_canon (s : State) (team arr i : Nat) (f : Tile → Tile) (hc : s.Canon) : (State.modTile s team arr i f).Canon := by
  unfold State.modTile
  repeat' with_reducible first
      | assumption | apply State.modTeam_canon

theorem xWord_canon {s : State} {x : Issue} {turn : Option Turn} {own : Option Nat} {body : State} (hb : body.Canon) (h : s.Canon) : (xWord s x turn
    own body).Canon := by
  unfold xWord
  repeat' with_reducible first | assumption | apply State.commit_canon | split

theorem mmaBind_canon (s : State) (x : Issue) (k fmt c va : Nat) (d : Word) (takers : List Nat) (hc : s.Canon) : (mmaBind s x k fmt c va d
    takers).Canon := by
  unfold mmaBind
  repeat' with_reducible first
      | assumption | apply State.commit_canon | apply State.bind_canon | apply State.modTile_canon

theorem mmaBody_canon (s : State) (x : Issue) (k fmt c va : Nat) (d : Word) (hc : s.Canon) : (mmaBody s x k fmt c va d).Canon := by
  unfold mmaBody
  repeat' with_reducible first
      | assumption | apply State.commit_canon | apply mmaBind_canon | dsimp only | split

theorem mmaWord_canon (s : State) (op fmt : Nat) (st : Bool) (k : BitVec 4) (c : BitVec 5) (a b : BitVec 7) (hc : s.Canon) : OutCanon (mmaWord s op
    fmt st k c a b) := by
  unfold mmaWord
  repeat' with_reducible first
      | assumption | intro _ | apply runWord_canon | apply xWord_canon | apply mmaBody_canon

theorem execMmaBf16_canon (st : Bool) (k : BitVec 4) (c : BitVec 5) (a b : BitVec 7) (s : State) (hc : s.Canon) : OutCanon (execMmaBf16 st k c a b
    s) := by
  unfold execMmaBf16
  repeat' with_reducible first
      | assumption | apply mmaWord_canon

theorem execMmaF16_canon (st : Bool) (k : BitVec 4) (c : BitVec 5) (a b : BitVec 7) (s : State) (hc : s.Canon) : OutCanon (execMmaF16 st k c a b s)
    := by
  unfold execMmaF16
  repeat' with_reducible first
      | assumption | apply mmaWord_canon

theorem execMmaE4m3_canon (st : Bool) (k : BitVec 4) (c : BitVec 5) (a b : BitVec 7) (s : State) (hc : s.Canon) : OutCanon (execMmaE4m3 st k c a b
    s) := by
  unfold execMmaE4m3
  repeat' with_reducible first
      | assumption | apply mmaWord_canon

theorem execMmaE5m2_canon (st : Bool) (k : BitVec 4) (c : BitVec 5) (a b : BitVec 7) (s : State) (hc : s.Canon) : OutCanon (execMmaE5m2 st k c a b
    s) := by
  unfold execMmaE5m2
  repeat' with_reducible first
      | assumption | apply mmaWord_canon

theorem execMmaE2m3_canon (st : Bool) (k : BitVec 4) (c : BitVec 5) (a b : BitVec 7) (s : State) (hc : s.Canon) : OutCanon (execMmaE2m3 st k c a b
    s) := by
  unfold execMmaE2m3
  repeat' with_reducible first
      | assumption | apply mmaWord_canon

theorem execMmaE3m2_canon (st : Bool) (k : BitVec 4) (c : BitVec 5) (a b : BitVec 7) (s : State) (hc : s.Canon) : OutCanon (execMmaE3m2 st k c a b
    s) := by
  unfold execMmaE3m2
  repeat' with_reducible first
      | assumption | apply mmaWord_canon

theorem execMmaI8_canon (st : Bool) (k : BitVec 4) (c : BitVec 5) (a b : BitVec 7) (s : State) (hc : s.Canon) : OutCanon (execMmaI8 st k c a b s) :=
    by
  unfold execMmaI8
  repeat' with_reducible first
      | assumption | apply mmaWord_canon

theorem execMmaE2m1_canon (st : Bool) (k : BitVec 4) (c : BitVec 5) (a b : BitVec 7) (s : State) (hc : s.Canon) : OutCanon (execMmaE2m1 st k c a b
    s) := by
  unfold execMmaE2m1
  repeat' with_reducible first
      | assumption | apply mmaWord_canon

theorem execMmaSx4_canon (st : Bool) (k : BitVec 4) (c : BitVec 5) (a b : BitVec 7) (s : State) (hc : s.Canon) : OutCanon (execMmaSx4 st k c a b s)
    := by
  unfold execMmaSx4
  repeat' with_reducible first
      | assumption | apply mmaWord_canon

theorem execAcrel_canon (st : Bool) (c : BitVec 5) (s : State) (hc : s.Canon) : OutCanon (execAcrel st c s) := by
  unfold execAcrel
  repeat' with_reducible first
      | assumption | intro _ | apply State.commit_canon | apply runWord_canon | apply gated_canon | apply State.modTile_canon | apply xWord_canon

theorem acacqBody_canon (s : State) (x : Issue) (k c : Nat) (hc : s.Canon) : (acacqBody s x k c).Canon := by
  unfold acacqBody
  repeat' with_reducible first
      | assumption | apply State.commit_canon | apply State.bind_canon | apply State.modTile_canon

theorem execAcacq_canon (st : Bool) (k : BitVec 4) (c : BitVec 5) (s : State) (hc : s.Canon) : OutCanon (execAcacq st k c s) := by
  unfold execAcacq
  repeat' with_reducible first
      | assumption | intro _ | apply runWord_canon | apply xWord_canon | apply acacqBody_canon

theorem zeroRows_wf (t : Team) (arr i : Nat) (m : Memory) (a0 : List Nat) (hc : m.wf = true) : (zeroRows t arr i m a0).wf = true := by
  induction a0 generalizing t arr i m with
  | nil =>
    unfold zeroRows
    repeat' with_reducible first
        | assumption
  | cons x l ih =>
    unfold zeroRows
    repeat' with_reducible first
        | assumption | apply ih | apply putBytes_wf

theorem execAcz_canon (st : Bool) (c : BitVec 5) (s : State) (hc : s.Canon) : OutCanon (execAcz st c s) := by
  unfold execAcz
  repeat' with_reducible first
      | assumption | intro _ | apply State.commit_canon | apply runWord_canon | apply gated_canon | apply xWord_canon | apply zeroRows_wf
      | (simp only [State.canon_mk]; refine ⟨?_, ?_, ?_⟩) | apply State.Canon.mem | apply State.Canon.mbox | apply State.Canon.recWin | split

theorem execAcrd_canon (st : Bool) (c : BitVec 5) (d b : BitVec 7) (s : State) (hc : s.Canon) : OutCanon (execAcrd st c d b s) := by
  unfold execAcrd
  repeat' with_reducible first
      | assumption | intro _ | apply State.bump_canon | apply State.commit_canon | apply runWord_canon | apply gated_canon | apply xWord_canon | split

theorem acwrRows_wf (x : Issue) (t : Team) (arr i v : Nat) (m : AccDesc) (mem : Memory) (a0 : List Nat) (hc : mem.wf = true) : (acwrRows x t arr i v
    m mem a0).wf = true := by
  induction a0 generalizing x t arr i v m mem with
  | nil =>
    unfold acwrRows
    repeat' with_reducible first
        | assumption
  | cons x l ih =>
    unfold acwrRows
    repeat' with_reducible first
        | assumption | intro _ | apply ih | apply foldl_wf | apply putBytes_wf

theorem execAcwr_canon (st : Bool) (c : BitVec 5) (a b : BitVec 7) (s : State) (hc : s.Canon) : OutCanon (execAcwr st c a b s) := by
  unfold execAcwr
  repeat' with_reducible first
      | assumption | intro _ | apply State.commit_canon | apply runWord_canon | apply gated_canon | apply xWord_canon | apply acwrRows_wf
      | (simp only [State.canon_mk]; refine ⟨?_, ?_, ?_⟩) | apply State.Canon.mem | apply State.Canon.mbox | apply State.Canon.recWin | split

/-! ## CopyEvents -/

theorem State.leaveQueue_canon (s : State) (asid : Nat) (ids : List Nat) (hc : s.Canon) : (State.leaveQueue s asid ids).Canon := by
  unfold State.leaveQueue
  repeat' with_reducible first
      | assumption | apply State.modCtx_canon

theorem State.markStarted_canon (s : State) (ids : List Nat) (hc : s.Canon) : (State.markStarted s ids).Canon := by
  unfold State.markStarted
  repeat' with_reducible first
      | assumption | (simp only [State.canon_mk]; refine ⟨?_, ?_, ?_⟩) | apply State.Canon.mem | apply State.Canon.mbox | apply State.Canon.recWin

theorem State.acqFor_canon (s : State) (o : Op) (hc : s.Canon) : (State.acqFor s o).Canon := by
  unfold State.acqFor
  repeat' with_reducible first
      | assumption | apply State.writeBackAll_canon | split

theorem State.relFor_canon (s : State) (o : Op) (hc : s.Canon) : (State.relFor s o).Canon := by
  unfold State.relFor
  repeat' with_reducible first
      | assumption | apply State.release_canon | split

theorem acqAll_canon (a0 : List Op) (a1 : State) (hc : a1.Canon) : (acqAll a0 a1).Canon := by
  induction a0 generalizing a1 with
  | nil =>
    unfold acqAll
    repeat' with_reducible first
        | assumption
  | cons x l ih =>
    unfold acqAll
    repeat' with_reducible first
        | assumption | apply ih | apply State.acqFor_canon

theorem relAll_canon (a0 : List Op) (a1 : State) (hc : a1.Canon) : (relAll a0 a1).Canon := by
  induction a0 generalizing a1 with
  | nil =>
    unfold relAll
    repeat' with_reducible first
        | assumption
  | cons x l ih =>
    unfold relAll
    repeat' with_reducible first
        | assumption | apply ih | apply State.relFor_canon

theorem State.startCopy_canon (s : State) (g : Gather) (hc : s.Canon) : (State.startCopy s g).Canon := by
  unfold State.startCopy
  repeat' with_reducible first
      | assumption | apply State.modGather_canon | apply State.endCopy_canon | apply State.leaveQueue_canon | apply State.markStarted_canon
      | apply acqAll_canon | dsimp only | split

theorem keepStream_canon (id : Nat) (r : List (Nat × Nat × Bytes) × Nat) (s : State) (hc : s.Canon) : (keepStream id r s).Canon := by
  unfold keepStream
  repeat' with_reducible first
      | assumption | apply State.modOp_canon

theorem State.prepareCopy_canon (s : State) (o : Op) (h : Shape) (g : Gather) (hc : s.Canon) : (State.prepareCopy s o h g).Canon := by
  unfold State.prepareCopy
  repeat' with_reducible first
      | assumption | apply State.modOp_canon | apply State.engineEnds_canon | apply State.failOp_canon | apply State.engineGet_canon
      | apply State.listHeader_canon | apply keepStream_canon | refine Got.wait_canon (by assumption) ?_
      | refine Got.halted_canon (by assumption) ?_ | dsimp only | split

theorem State.chunkData_canon (s : State) (o : Op) (h : Shape) (g : Gather) (core base i n : Nat) (hc : s.Canon) : (State.chunkData s o h g core
    base i n).2.Canon := by
  unfold State.chunkData
  repeat' with_reducible first
      | assumption | apply State.engineGetAll_canon | exact Got.ok_mk | dsimp only | split

theorem State.verifyChunk_canon (s : State) (o : Op) (h : Shape) (i : Nat) (bs : Bytes) (hc : s.Canon) : ErrGot (State.verifyChunk s o h i bs) := by
  unfold State.verifyChunk
  repeat' with_reducible first
      | assumption | apply State.engineGet_canon | apply ErrGot.error | exact ErrGot.ok | split

theorem State.putWindow_canon (s : State) (o : Op) (key fmt va : Nat) (bs : Bytes) (hc : s.Canon) : (State.putWindow s o key fmt va bs).Canon := by
  unfold State.putWindow
  repeat' with_reducible first
      | assumption | apply State.holdFor_canon | apply State.engineEnds_canon | apply State.enginePut_canon | apply Put.halted_mk
      | apply Put.wait_mk | exact Put.fail_mk | split

theorem State.putChunk_canon (s : State) (o : Op) (h : Shape) (t : Team) (dst i : Nat) (bs : Bytes) (hc : s.Canon) : (State.putChunk s o h t dst i
    bs).Canon := by
  unfold State.putChunk
  repeat' with_reducible first
      | assumption | apply State.enginePut_canon | apply State.putWindow_canon | apply Put.ok_mk | (simp only [State.canon_mk]; refine ⟨?_, ?_, ?_⟩)
      | apply putBytes_wf | apply State.Canon.mem | apply State.Canon.mbox | apply State.Canon.recWin | split

theorem putProg_canon (n : Nat) (landed : List Nat) (a0 : List Op) (a1 : State) (hc : a1.Canon) : (putProg n landed a0 a1).Canon := by
  induction a0 generalizing a1 n landed with
  | nil =>
    unfold putProg
    repeat' with_reducible first
        | assumption
  | cons x l ih =>
    unfold putProg
    repeat' with_reducible first
        | assumption | apply ih | apply State.putToken_canon | split

theorem countAll_canon (n : Nat) (unit : Nat) (a0 : List Op) (a1 : State) (hc : a1.Canon) : (countAll n unit a0 a1).Canon := by
  induction a0 generalizing a1 n unit with
  | nil =>
    unfold countAll
    repeat' with_reducible first
        | assumption
  | cons x l ih =>
    unfold countAll
    repeat' with_reducible first
        | assumption | apply ih | apply countBytes_canon

theorem State.chunkLanded_canon (s : State) (o : Op) (os : List Op) (core : Nat) (line : Option Nat) (i n len reason : Nat) (hc : s.Canon) :
    (State.chunkLanded s o os core line i n len reason).Canon := by
  unfold State.chunkLanded
  repeat' with_reducible first
      | assumption | apply State.modOp_canon | apply State.count_canon | apply putProg_canon | apply countAll_canon
      | (simp only [State.canon_mk]; refine ⟨?_, ?_, ?_⟩) | apply State.Canon.mem | apply State.Canon.mbox | apply State.Canon.recWin | split

theorem State.landChecked_canon (s : State) (o : Op) (os : List Op) (h : Shape) (t : Team) (dst i n reason : Nat) (check : Nat × Nat) (hc : s.Canon)
    : (State.landChecked s o os h t dst i n reason check).Canon := by
  unfold State.landChecked
  repeat' with_reducible first
      | assumption | apply State.failOp_canon | apply State.enginePut_canon | apply State.chunkLanded_canon | refine Put.ok_canon (by assumption) ?_
      | refine Put.wait_canon (by assumption) ?_ | refine Put.halted_canon (by assumption) ?_ | split

theorem State.landBytes_canon (s : State) (o : Op) (os : List Op) (h : Shape) (t : Team) (dst i n reason : Nat) (bs : Bytes) (hc : s.Canon) :
    (State.landBytes s o os h t dst i n reason bs).Canon := by
  unfold State.landBytes
  repeat' with_reducible first
      | assumption | apply State.modOp_canon | apply State.failOp_canon | apply State.putChunk_canon | apply State.landChecked_canon
      | refine Put.ok_canon (by assumption) ?_ | refine Put.wait_canon (by assumption) ?_ | refine Put.halted_canon (by assumption) ?_ | dsimp only
      | split

theorem State.landAway_canon (s : State) (o : Op) (os : List Op) (h : Shape) (t : Team) (dst i reason : Nat) (xs : List Nat) (hc : s.Canon) :
    (State.landAway s o os h t dst i reason xs).Canon := by
  unfold State.landAway
  repeat' with_reducible first
      | assumption | apply State.landChecked_canon | split

theorem State.landCopy_canon (s : State) (g : Gather) (o : Op) (i : Nat) (hc : s.Canon) : (State.landCopy s g o i).Canon := by
  unfold State.landCopy
  repeat' with_reducible first
      | assumption | apply State.failOp_canon | apply State.prepareCopy_canon | apply State.chunkData_canon | apply State.verifyChunk_canon
      | apply State.landBytes_canon | apply State.landAway_canon | refine Got.wait_snd (by assumption) ?_ | refine Got.halted_snd (by assumption) ?_
      | refine ErrGot.wait_canon (by assumption) ?_ | refine ErrGot.halted_canon (by assumption) ?_ | dsimp only | split

theorem State.finishCopy_canon (s : State) (g : Gather) (o : Op) (hc : s.Canon) : (State.finishCopy s g o).Canon := by
  unfold State.finishCopy
  repeat' with_reducible first
      | assumption | apply State.endCopy_canon | apply State.listUpdate_canon | apply relAll_canon | refine Got.wait_canon (by assumption) ?_
      | refine Got.halted_canon (by assumption) ?_ | dsimp only | split

/-! ## System -/

theorem execSysrd_canon (st : Bool) (d : BitVec 8) (n : BitVec 15) (s : State) (hc : s.Canon) : OutCanon (execSysrd st d n s) := by
  unfold execSysrd
  repeat' with_reducible first
      | assumption | intro _ | apply State.commit_canon | apply runWord_canon | apply scalarWord_canon | split

theorem execSyswr_canon (st : Bool) (d : BitVec 8) (n : BitVec 15) (s : State) (hc : s.Canon) : OutCanon (execSyswr st d n s) := by
  unfold execSyswr
  repeat' with_reducible first
      | assumption | intro _ | apply runWord_canon | apply scalarWord_canon

theorem State.putCounter_canon (s : State) (c : Counter) (hc : s.Canon) : (State.putCounter s c).Canon := by
  unfold State.putCounter
  repeat' with_reducible first
      | assumption | (simp only [State.canon_mk]; refine ⟨?_, ?_, ?_⟩) | apply State.Canon.mem | apply State.Canon.mbox | apply State.Canon.recWin

theorem perfRead_canon (s : State) (x : Issue) (d : Nat) (c : Counter) (hc : s.Canon) : (perfRead s x d c).Canon := by
  unfold perfRead
  repeat' with_reducible first
      | assumption | apply scalarWord_canon

theorem perfChange_canon (s : State) (x : Issue) (n : Nat) (f : Counter → Counter) (hc : s.Canon) : (perfChange s x n f).Canon := by
  unfold perfChange
  repeat' with_reducible first
      | assumption | apply State.commit_canon | apply State.putCounter_canon | split

theorem execPerf_canon (st : Bool) (d a : BitVec 8) (o : BitVec 3) (n : BitVec 4) (s : State) (hc : s.Canon) : OutCanon (execPerf st d a o n s) := by
  unfold execPerf
  repeat' with_reducible first
      | assumption | intro _ | apply runWord_canon | apply scalarWord_canon | apply perfRead_canon | apply perfChange_canon | split

theorem execDrain_canon (st : Bool) (k : BitVec 4) (m : BitVec 3) (s : State) (hc : s.Canon) : OutCanon (execDrain st k m s) := by
  unfold execDrain
  repeat' with_reducible first
      | assumption | intro _ | apply State.commit_canon | apply runWord_canon | apply State.bind_canon

/-! ## Quiet -/

theorem State.observed_canon (s : State) (hc : s.Canon) : (State.observed s).Canon := by
  unfold State.observed
  repeat' with_reducible first
      | assumption | (simp only [State.canon_mk]; refine ⟨?_, ?_, ?_⟩) | apply State.Canon.mem | apply State.Canon.mbox | apply State.Canon.recWin

/-! ## SyncEvents -/

theorem tellWatchers_canon (phase : Nat) (a0 : List (Nat × Nat × Word × Nat)) (a1 : State) (hc : a1.Canon) : (tellWatchers phase a0 a1).Canon := by
  induction a0 generalizing a1 phase with
  | nil =>
    unfold tellWatchers
    repeat' with_reducible first
        | assumption
  | cons x l ih =>
    unfold tellWatchers
    repeat' with_reducible first
        | assumption | apply ih | apply State.sendMgmt_canon

theorem State.advanced_canon (s : State) (pa : Nat) (b : Barrier) (hc : s.Canon) : (State.advanced_ s pa b).Canon := by
  unfold State.advanced_
  repeat' with_reducible first
      | assumption | apply State.msix_canon | apply tellWatchers_canon | dsimp only | (simp only [State.canon_mk]; refine ⟨?_, ?_, ?_⟩)
      | apply State.Canon.mem | apply State.Canon.mbox | apply State.Canon.recWin | split

theorem State.exportEnds_canon (s : State) (u : BUpdate) (cause : Nat) (hc : s.Canon) : (State.exportEnds s u cause).Canon := by
  unfold State.exportEnds
  repeat' with_reducible first
      | assumption | apply State.endTask_canon | dsimp only | (simp only [State.canon_mk]; refine ⟨?_, ?_, ?_⟩) | apply State.Canon.mem
      | apply State.Canon.mbox | apply State.Canon.recWin | split

theorem State.updateEnds_canon (s : State) (u : BUpdate) (hc : s.Canon) : (State.updateEnds s u).Canon := by
  unfold State.updateEnds
  repeat' with_reducible first
      | assumption | apply State.exportEnds_canon | apply State.endTask_canon | apply State.opEnds_canon | dsimp only
      | (simp only [State.canon_mk]; refine ⟨?_, ?_, ?_⟩) | apply State.Canon.mem | apply State.Canon.mbox | apply State.Canon.recWin | split

theorem State.applyUpdate_canon (s : State) (pa : Nat) (u : BUpdate) (hc : s.Canon) : (State.applyUpdate s pa u).1.Canon := by
  unfold State.applyUpdate
  repeat' with_reducible first
      | assumption | apply State.homeWrite_canon | apply State.dropExtent_canon | apply State.logEvent_canon | apply State.advanced_canon
      | apply State.updateEnds_canon | dsimp only | split

theorem State.landUpdate_canon (s : State) (pa : Nat) (u : BUpdate) (hc : s.Canon) : (State.landUpdate s pa u).Canon := by
  unfold State.landUpdate
  repeat' with_reducible first
      | assumption | apply State.finishOp_canon | apply State.applyUpdate_canon | dsimp only | split

theorem landUpdates_canon (pa : Nat) (a0 : List BUpdate) (a1 : State) (hc : a1.Canon) : (landUpdates pa a0 a1).Canon := by
  induction a0 generalizing a1 pa with
  | nil =>
    unfold landUpdates
    repeat' with_reducible first
        | assumption
  | cons x l ih =>
    unfold landUpdates
    repeat' with_reducible first
        | assumption | apply ih | apply State.landUpdate_canon

theorem State.resendUpdate_canon (s : State) (u : BUpdate) (hc : s.Canon) : (State.resendUpdate s u).Canon := by
  unfold State.resendUpdate
  repeat' with_reducible first
      | assumption | apply State.sendUpdate_canon | apply State.finishOp_canon | dsimp only | split

theorem execBarrierUpdate_canon (n : Nat) (s : State) (hc : s.Canon) : OutCanon (execBarrierUpdate n s) := by
  unfold execBarrierUpdate
  repeat' with_reducible first
      | assumption | apply landUpdates_canon | apply State.resendUpdate_canon | apply OutCanon.next
      | (simp only [State.canon_mk]; refine ⟨?_, ?_, ?_⟩) | apply State.Canon.mem | apply State.Canon.mbox | apply State.Canon.recWin | split

theorem execQuiescenceTimer_canon (id : Nat) (s : State) (hc : s.Canon) : OutCanon (execQuiescenceTimer id s) := by
  unfold execQuiescenceTimer
  repeat' with_reducible first
      | assumption | apply State.finishOp_canon | apply OutCanon.next | dsimp only | split

theorem execWatchReread_canon (u : Nat) (s : State) (hc : s.Canon) : OutCanon (execWatchReread u s) := by
  unfold execWatchReread
  repeat' with_reducible first
      | assumption | apply State.askBarrier_canon | apply OutCanon.next | split

/-! ## Karic -/

theorem State.forward_canon (s : State) (p : Packet) (hc : s.Canon) : (State.forward s p).Canon := by
  unfold State.forward
  repeat' with_reducible first
      | assumption | apply State.dropPacket_canon | apply State.emitOn_canon | dsimp only | split

theorem State.forwardCopies_canon (s : State) (p : Packet) (hc : s.Canon) : (State.forwardCopies s p).Canon := by
  unfold State.forwardCopies
  repeat' with_reducible first
      | assumption | intro _ | apply State.dropPacket_canon | apply State.emitOn_canon | apply foldl_canon | dsimp only | split

theorem State.injectCopies_canon (s : State) (p : Packet) (hc : s.Canon) : (State.injectCopies s p).Canon := by
  unfold State.injectCopies
  repeat' with_reducible first
      | assumption | intro _ | apply State.dropPacket_canon | apply State.emitOn_canon | apply foldl_canon | dsimp only | split

theorem State.setPort_canon (s : State) (p : Port) (hc : s.Canon) : (State.setPort s p).Canon := by
  unfold State.setPort
  repeat' with_reducible first
      | assumption | (simp only [State.canon_mk]; refine ⟨?_, ?_, ?_⟩) | apply State.Canon.mem | apply State.Canon.mbox | apply State.Canon.recWin

theorem State.ingress_canon (s : State) (port : Nat) (p : Packet) (hc : s.Canon) : (State.ingress s port p).1.Canon := by
  unfold State.ingress
  repeat' with_reducible first
      | assumption | apply State.countPacket_canon | apply State.count_canon | split

theorem onPacket_canon {s : State} {ok : Packet → Bool} {f : Packet → State → State} (hf : ∀ p s, s.Canon → (f p s).Canon) (h : s.Canon) :
    OutCanon (onPacket s ok f) := by
  unfold onPacket
  repeat' with_reducible first
    | assumption | apply State.countPacket_canon | apply hf | apply State.forwardCopies_canon | refine fst_canon (by assumption) ?_
    | apply State.ingress_canon | apply State.dropPacket_canon | apply State.count_canon
    | (simp only [State.canon_mk]; exact ⟨h.mem, h.mbox, h.recWin⟩) | apply OutCanon.next | dsimp only
    | (simp only [State.canon_mk]; refine ⟨?_, ?_, ?_⟩) | apply State.Canon.mem | apply State.Canon.mbox | apply State.Canon.recWin | split

theorem State.logError_canon (s : State) (asid : Nat) (r : Bytes) (hc : s.Canon) : (State.logError s asid r).Canon := by
  unfold State.logError
  repeat' with_reducible first
      | assumption | apply State.logEvent_canon

theorem State.answer_canon (s : State) (p : Packet) (ty aux : Nat) (data : Bytes) (hc : s.Canon) : (State.answer s p ty aux data).Canon := by
  unfold State.answer
  repeat' with_reducible first
      | assumption | apply State.send_canon

theorem State.answerKept_canon (s : State) (p : Packet) (ty aux : Nat) (data : Bytes) (hc : s.Canon) : (State.answerKept s p ty aux data).Canon := by
  unfold State.answerKept
  repeat' with_reducible first
      | assumption | apply State.answer_canon | (simp only [State.canon_mk]; refine ⟨?_, ?_, ?_⟩) | apply State.Canon.mem | apply State.Canon.mbox
      | apply State.Canon.recWin

theorem State.answerAgain_canon (s : State) (a : Packet) (hc : s.Canon) : (State.answerAgain s a).Canon := by
  unfold State.answerAgain
  repeat' with_reducible first
      | assumption | apply State.count_canon | apply State.send_canon

theorem State.logDenied_canon (s : State) (p : Packet) (pa cause code : Nat) (hc : s.Canon) : (State.logDenied s p pa cause code).Canon := by
  unfold State.logDenied
  repeat' with_reducible first
      | assumption | apply State.logEvent_canon

theorem State.holdPacket_canon (s : State) (p : Packet) (hc : s.Canon) : (State.holdPacket s p).Canon := by
  unfold State.holdPacket
  repeat' with_reducible first
      | assumption | (simp only [State.canon_mk]; refine ⟨?_, ?_, ?_⟩) | apply State.Canon.mem | apply State.Canon.mbox | apply State.Canon.recWin
      | split

theorem State.admitted_canon {s : State} {p : Packet} {pa n : Nat} {r : Rights} {aligned : Bool} {f : State → State} (hf : ∀ s, s.Canon → (f s).Canon)
    (h : s.Canon) : (State.admitted s p pa n r aligned f).Canon := by
  unfold State.admitted
  repeat' with_reducible first
    | assumption | apply hf | apply State.answerAgain_canon | apply State.holdPacket_canon | apply State.answer_canon | apply State.logDenied_canon
    | dsimp only | split

/-! ## PageEvents -/

theorem execTlbWalkReturn_canon (clu asid va : Nat) (s : State) (hc : s.Canon) : OutCanon (execTlbWalkReturn clu asid va s) := by
  unfold execTlbWalkReturn
  repeat' with_reducible first
      | assumption | apply State.fillTlb_canon | apply OutCanon.next | dsimp only | (simp only [State.canon_mk]; refine ⟨?_, ?_, ?_⟩)
      | apply State.Canon.mem | apply State.Canon.mbox | apply State.Canon.recWin | split

theorem State.putEntry_canon (s : State) (place e : Nat) (hc : s.Canon) : (State.putEntry s place e).Canon := by
  unfold State.putEntry
  repeat' with_reducible first
      | assumption | apply State.homeWrite_canon

theorem execLightFaultService_canon (asid va : Nat) (s : State) (hc : s.Canon) : OutCanon (execLightFaultService asid va s) := by
  unfold execLightFaultService
  repeat' with_reducible first
      | assumption | apply State.shoot_canon | apply State.putEntry_canon | apply OutCanon.next | dsimp only
      | (simp only [State.canon_mk]; refine ⟨?_, ?_, ?_⟩) | apply State.Canon.mem | apply State.Canon.mbox | apply State.Canon.recWin | split

theorem State.releaseAll_canon (s : State) (hc : s.Canon) : (State.releaseAll s).Canon := by
  unfold State.releaseAll
  repeat' with_reducible first
      | assumption | intro _ | apply State.writeBack_canon | apply foldl_canon

theorem State.acquireAll_canon (s : State) (hc : s.Canon) : (State.acquireAll s).Canon := by
  unfold State.acquireAll
  repeat' with_reducible first
      | assumption | apply State.releaseAll_canon | (simp only [State.canon_mk]; refine ⟨?_, ?_, ?_⟩) | apply State.Canon.mem
      | apply State.Canon.mbox | apply State.Canon.recWin

theorem moveMarks_canon (old new span : Nat) (s : State) (hc : s.Canon) : (moveMarks old new span s).Canon := by
  unfold moveMarks
  repeat' with_reducible first
      | assumption | intro _ | apply State.tagLine_canon | apply foldl_canon | (simp only [State.canon_mk]; refine ⟨?_, ?_, ?_⟩)
      | apply State.Canon.mem | apply State.Canon.mbox | apply State.Canon.recWin

theorem moveHolds_canon (s : State) (old new : Nat) (hc : s.Canon) : (moveHolds s old new).Canon := by
  unfold moveHolds
  repeat' with_reducible first
      | assumption | (simp only [State.canon_mk]; refine ⟨?_, ?_, ?_⟩) | apply State.Canon.mem | apply State.Canon.mbox | apply State.Canon.recWin
      | dsimp only

theorem releaseWaiting_canon (old new : Nat) (s : State) (hc : s.Canon) : (releaseWaiting old new s).Canon := by
  unfold releaseWaiting
  repeat' with_reducible first
      | assumption | (simp only [State.canon_mk]; refine ⟨?_, ?_, ?_⟩) | apply State.Canon.mem | apply State.Canon.mbox | apply State.Canon.recWin

theorem State.migBegin_canon (s : State) (asid place old new : Nat) (t : Tlb) (hc : s.Canon) : (State.migBegin s asid place old new t).Canon := by
  unfold State.migBegin
  repeat' with_reducible first
      | assumption | apply State.shoot_canon | apply State.putEntry_canon | apply State.releaseAll_canon
      | (simp only [State.canon_mk]; refine ⟨?_, ?_, ?_⟩) | apply State.Canon.mem | apply State.Canon.mbox | apply State.Canon.recWin

theorem retireFrames_canon (a0 : List Nat) (a1 : State) (hc : a1.Canon) : (retireFrames a0 a1).Canon := by
  induction a0 generalizing a1 with
  | nil =>
    unfold retireFrames
    repeat' with_reducible first
        | assumption | apply State.post_canon | dsimp only | (simp only [State.canon_mk]; refine ⟨?_, ?_, ?_⟩) | apply State.Canon.mem
        | apply State.Canon.mbox | apply State.Canon.recWin | split
  | cons x l ih =>
    unfold retireFrames
    repeat' with_reducible first
        | assumption | apply ih | apply State.post_canon | (simp only [State.canon_mk]; refine ⟨?_, ?_, ?_⟩) | apply State.Canon.mem
        | apply State.Canon.mbox | apply State.Canon.recWin | dsimp only | split

theorem State.migEnd_canon (s : State) (asid place old new : Nat) (t : Tlb) (hc : s.Canon) : (State.migEnd s asid place old new t).Canon := by
  unfold State.migEnd
  repeat' with_reducible first
      | assumption | apply retireFrames_canon | apply State.shoot_canon | apply copyRange_wf | apply State.putEntry_canon
      | apply State.acquireAll_canon | apply moveMarks_canon | apply moveHolds_canon | apply releaseWaiting_canon
      | (simp only [State.canon_mk]; refine ⟨?_, ?_, ?_⟩) | apply State.Canon.mem | apply State.Canon.mbox | apply State.Canon.recWin | dsimp only

theorem execMigration_canon (asid va frame : Nat) (s : State) (hc : s.Canon) : OutCanon (execMigration asid va frame s) := by
  unfold execMigration
  repeat' with_reducible first
      | assumption | apply State.migBegin_canon | apply State.migEnd_canon | apply OutCanon.next | dsimp only
      | (simp only [State.canon_mk]; refine ⟨?_, ?_, ?_⟩) | apply State.Canon.mem | apply State.Canon.mbox | apply State.Canon.recWin | split

theorem execMigrationSwapOut_canon (team : Nat) (s : State) (hc : s.Canon) : OutCanon (execMigrationSwapOut team s) := by
  unfold execMigrationSwapOut
  repeat' with_reducible first
      | assumption | apply State.modTeam_canon | apply OutCanon.next | dsimp only | (simp only [State.canon_mk]; refine ⟨?_, ?_, ?_⟩)
      | apply State.Canon.mem | apply State.Canon.mbox | apply State.Canon.recWin | split

/-! ## LaunchEvents -/

theorem State.dropLaunch_canon (s : State) (l : Nat) (hc : s.Canon) : (State.dropLaunch s l).Canon := by
  unfold State.dropLaunch
  repeat' with_reducible first
      | assumption | (simp only [State.canon_mk]; refine ⟨?_, ?_, ?_⟩) | apply State.Canon.mem | apply State.Canon.mbox | apply State.Canon.recWin
      | dsimp only

theorem State.startLaunch_canon (s : State) (o : Op) (l : Nat) (hc : s.Canon) : (State.startLaunch s o l).Canon := by
  unfold State.startLaunch
  repeat' with_reducible first
      | assumption | apply State.modLaunch_canon | apply State.release_canon | apply State.leaveQueue_canon | apply State.markStarted_canon
      | dsimp only | (simp only [State.canon_mk]; refine ⟨?_, ?_, ?_⟩) | apply State.Canon.mem | apply State.Canon.mbox | apply State.Canon.recWin
      | split

theorem unpinAll_canon (asid : Nat) (a0 : List Pin) (a1 : State) (hc : a1.Canon) : (unpinAll asid a0 a1).Canon := by
  induction a0 generalizing a1 asid with
  | nil =>
    unfold unpinAll
    repeat' with_reducible first
        | assumption
  | cons x l ih =>
    unfold unpinAll
    repeat' with_reducible first
        | assumption | apply ih | apply State.sendMgmt_canon | split

theorem State.releasePins_canon (s : State) (l : Launch) (hc : s.Canon) : (State.releasePins s l).Canon := by
  unfold State.releasePins
  repeat' with_reducible first
      | assumption | apply State.modLaunch_canon | apply unpinAll_canon | dsimp only | (simp only [State.canon_mk]; refine ⟨?_, ?_, ?_⟩)
      | apply State.Canon.mem | apply State.Canon.mbox | apply State.Canon.recWin

theorem State.tellToken_canon (s : State) (l : Launch) (cause : Nat) (hc : s.Canon) : (State.tellToken s l cause).Canon := by
  unfold State.tellToken
  repeat' with_reducible first
      | assumption | apply State.finishOp_canon | split

theorem State.poisonDoneb_canon (s : State) (l : Launch) (cause : Nat) (hc : s.Canon) : (State.poisonDoneb s l cause).Canon := by
  unfold State.poisonDoneb
  repeat' with_reducible first
      | assumption | apply State.sendUpdate_canon

theorem State.refuseCreate_canon (s : State) (l : Launch) (hc : s.Canon) : (State.refuseCreate s l).Canon := by
  unfold State.refuseCreate
  repeat' with_reducible first
      | assumption | apply State.post_canon | apply State.bind_canon | apply State.dropLaunch_canon | apply State.releasePins_canon
      | (simp only [State.canon_mk]; refine ⟨?_, ?_, ?_⟩) | apply State.Canon.mem | apply State.Canon.mbox | apply State.Canon.recWin | dsimp only

theorem State.failLaunch_canon (s : State) (l : Launch) (cause : Nat) (hc : s.Canon) : (State.failLaunch s l cause).Canon := by
  unfold State.failLaunch
  repeat' with_reducible first
      | assumption | apply State.modLaunch_canon | apply State.dropLaunch_canon | apply State.releasePins_canon | apply State.tellToken_canon
      | apply State.poisonDoneb_canon | apply State.refuseCreate_canon | dsimp only | (simp only [State.canon_mk]; refine ⟨?_, ?_, ?_⟩)
      | apply State.Canon.mem | apply State.Canon.mbox | apply State.Canon.recWin | split

theorem State.pinFails_canon (s : State) (l : Launch) (hc : s.Canon) : (State.pinFails s l).Canon := by
  unfold State.pinFails
  repeat' with_reducible first
      | assumption | apply State.dropLaunch_canon | apply State.releasePins_canon | apply State.tellToken_canon | apply State.failLaunch_canon | split

theorem State.letIn_canon (s : State) (l : Launch) (hc : s.Canon) : (State.letIn s l).Canon := by
  unfold State.letIn
  repeat' with_reducible first
      | assumption | apply State.modLaunch_canon | apply State.tellToken_canon | (simp only [State.canon_mk]; refine ⟨?_, ?_, ?_⟩)
      | apply State.Canon.mem | apply State.Canon.mbox | apply State.Canon.recWin | dsimp only | split

theorem State.pinsDone_canon (s : State) (l : Launch) (hc : s.Canon) : (State.pinsDone s l).Canon := by
  unfold State.pinsDone
  repeat' with_reducible first
      | assumption | apply State.modLaunch_canon | apply State.tellToken_canon | apply State.poisonDoneb_canon | apply State.letIn_canon | dsimp only
      | (simp only [State.canon_mk]; refine ⟨?_, ?_, ?_⟩) | apply State.Canon.mem | apply State.Canon.mbox | apply State.Canon.recWin | split

theorem State.pinLeaf_canon (s : State) (l : Launch) (r : Range) (rest : List Range) (t : Tlb) (place : Nat) (hc : s.Canon) : (State.pinLeaf s l r
    rest t place).Canon := by
  unfold State.pinLeaf
  repeat' with_reducible first
      | assumption | apply State.modLaunch_canon | apply State.bump_canon | apply State.answered_canon | apply State.sendMgmt_canon
      | apply State.shoot_canon | apply State.putEntry_canon | dsimp only | (simp only [State.canon_mk]; refine ⟨?_, ?_, ?_⟩) | apply State.Canon.mem
      | apply State.Canon.mbox | apply State.Canon.recWin | split

theorem execLeasePin_canon (l : Nat) (s : State) (hc : s.Canon) : OutCanon (execLeasePin l s) := by
  unfold execLeasePin
  repeat' with_reducible first
      | assumption | apply State.modLaunch_canon | apply State.bump_canon | apply State.post_canon | apply State.pinFails_canon
      | apply State.pinsDone_canon | apply State.pinLeaf_canon | apply OutCanon.next | dsimp only | (simp only [State.canon_mk]; refine ⟨?_, ?_, ?_⟩)
      | apply State.Canon.mem | apply State.Canon.mbox | apply State.Canon.recWin | split

theorem State.residAnswer_canon (s : State) (asid rid : Nat) (mapped : Bool) (hc : s.Canon) : OptCanon (State.residAnswer s asid rid mapped) := by
  unfold State.residAnswer
  repeat' with_reducible first
      | assumption | apply State.modLaunch_canon | apply State.pinFails_canon | apply OptCanon.some | exact OptCanon.none | split

theorem State.pinAnswer_canon (s : State) (dev gid : Nat) (granted : Bool) (hc : s.Canon) : (State.pinAnswer s dev gid granted).Canon := by
  unfold State.pinAnswer
  repeat' with_reducible first
      | assumption | apply State.modLaunch_canon | apply State.answered_canon | apply State.pinFails_canon | split

theorem execPinTimeout_canon (gid : Nat) (s : State) (hc : s.Canon) : OutCanon (execPinTimeout gid s) := by
  unfold execPinTimeout
  repeat' with_reducible first
      | assumption | apply State.answered_canon | apply State.pinFails_canon | apply OutCanon.next | split

theorem State.distGet_canon (s : State) (o : Op) (asid key va n : Nat) (hc : s.Canon) : (State.distGet s o asid key va n).Canon := by
  unfold State.distGet
  repeat' with_reducible first
      | assumption | apply State.holdFor_canon | apply askAll_canon | apply Got.wait_mk | exact Got.fail_mk | exact Got.ok_mk | dsimp only | split

theorem State.readRecord_canon (s : State) (y : Launch) (o : Op) (hc : s.Canon) : (State.readRecord s y o).Canon := by
  unfold State.readRecord
  repeat' with_reducible first
      | assumption | apply State.modLaunch_canon | apply State.modOp_canon | apply State.acquire_canon | apply State.engineGet_canon
      | apply State.dropLaunch_canon | apply State.tellToken_canon | apply State.failLaunch_canon | refine Got.wait_canon (by assumption) ?_
      | refine Got.halted_canon (by assumption) ?_ | dsimp only | split

theorem State.readHeader_canon (s : State) (y : Launch) (o : Op) (hc : s.Canon) : (State.readHeader s y o).Canon := by
  unfold State.readHeader
  repeat' with_reducible first
      | assumption | apply State.modLaunch_canon | apply State.modOp_canon | apply State.failLaunch_canon | apply State.distGet_canon
      | refine Got.wait_canon (by assumption) ?_ | refine Got.halted_canon (by assumption) ?_ | dsimp only | split

theorem State.readImage_canon (s : State) (y : Launch) (o : Op) (hc : s.Canon) : (State.readImage s y o).Canon := by
  unfold State.readImage
  repeat' with_reducible first
      | assumption | apply State.modLaunch_canon | apply State.modOp_canon | apply State.bump_canon | apply State.failLaunch_canon
      | apply State.distGet_canon | refine Got.wait_canon (by assumption) ?_ | refine Got.halted_canon (by assumption) ?_ | dsimp only | split

theorem execLaunchValidation_canon (l : Nat) (s : State) (hc : s.Canon) : OutCanon (execLaunchValidation l s) := by
  unfold execLaunchValidation
  repeat' with_reducible first
      | assumption | apply State.readRecord_canon | apply State.readHeader_canon | apply State.readImage_canon | apply OutCanon.next | dsimp only
      | (simp only [State.canon_mk]; refine ⟨?_, ?_, ?_⟩) | apply State.Canon.mem | apply State.Canon.mbox | apply State.Canon.recWin | split

theorem askPres_canon (y : Launch) (o : Op) (a0 : Nat) (a1 : List Precond) (a2 : State) (hc : a2.Canon) : (askPres y o a0 a1 a2).Canon := by
  induction a1 generalizing a0 a2 y o with
  | nil =>
    unfold askPres
    repeat' with_reducible first
        | assumption
  | cons x l ih =>
    unfold askPres
    repeat' with_reducible first
        | assumption | apply ih | apply State.distGet_canon | refine Got.wait_canon (by assumption) ?_ | split

theorem State.zeroTeams_canon (s : State) (y : Launch) (hc : s.Canon) : (State.zeroTeams s y).Canon := by
  unfold State.zeroTeams
  repeat' with_reducible first
      | assumption | apply State.sendUpdate_canon | apply State.dropLaunch_canon | apply State.releasePins_canon | apply State.tellToken_canon | split

theorem execLaunchPreconditionsHeld_canon (l : Nat) (s : State) (hc : s.Canon) : OutCanon (execLaunchPreconditionsHeld l s) := by
  unfold execLaunchPreconditionsHeld
  repeat' with_reducible first
      | assumption | apply State.modLaunch_canon | apply State.modOp_canon | apply State.failLaunch_canon | apply askPres_canon
      | apply State.zeroTeams_canon | apply OutCanon.next | dsimp only | (simp only [State.canon_mk]; refine ⟨?_, ?_, ?_⟩) | apply State.Canon.mem
      | apply State.Canon.mbox | apply State.Canon.recWin | split

/-! ## FabricEvents -/

theorem State.learnEpoch_canon (s : State) (dev : Nat) (epoch : Word) (hc : s.Canon) : (State.learnEpoch s dev epoch).Canon := by
  unfold State.learnEpoch
  repeat' with_reducible first
      | assumption | dsimp only | (simp only [State.canon_mk]; refine ⟨?_, ?_, ?_⟩) | apply State.Canon.mem | apply State.Canon.mbox
      | apply State.Canon.recWin | split

theorem execKaricHello_canon (port width : Nat) (pkt : Packet) (s : State) (hc : s.Canon) : OutCanon (execKaricHello port width pkt s) := by
  unfold execKaricHello
  repeat' with_reducible first
      | assumption | apply State.count_canon | apply State.logEvent_canon | apply State.dropPacket_canon | apply State.emitOn_canon
      | apply State.setPort_canon | apply State.learnEpoch_canon | apply OutCanon.next | dsimp only
      | (simp only [State.canon_mk]; refine ⟨?_, ?_, ?_⟩) | apply State.Canon.mem | apply State.Canon.mbox | apply State.Canon.recWin | split

theorem State.portDown_canon (s : State) (p : Port) (hc : s.Canon) : (State.portDown s p).Canon := by
  unfold State.portDown
  repeat' with_reducible first
      | assumption | apply State.logEvent_canon | apply State.setPort_canon | (simp only [State.canon_mk]; refine ⟨?_, ?_, ?_⟩)
      | apply State.Canon.mem | apply State.Canon.mbox | apply State.Canon.recWin | split

theorem execPortDegraded_canon (port : Nat) (s : State) (hc : s.Canon) : OutCanon (execPortDegraded port s) := by
  unfold execPortDegraded
  repeat' with_reducible first
      | assumption | apply State.portDown_canon | apply OutCanon.next | split

theorem execLinkFail_canon (port : Nat) (s : State) (hc : s.Canon) : OutCanon (execLinkFail port s) := by
  unfold execLinkFail
  repeat' with_reducible first
      | assumption | apply State.portDown_canon | apply OutCanon.next | split

theorem execPortRestored_canon (port : Nat) (s : State) (hc : s.Canon) : OutCanon (execPortRestored port s) := by
  unfold execPortRestored
  repeat' with_reducible first
      | assumption | apply State.logEvent_canon | apply State.setPort_canon | apply OutCanon.next | dsimp only
      | (simp only [State.canon_mk]; refine ⟨?_, ?_, ?_⟩) | apply State.Canon.mem | apply State.Canon.mbox | apply State.Canon.recWin | split

theorem execFabricStartDelay_canon (s : State) (hc : s.Canon) : OutCanon (execFabricStartDelay s) := by
  unfold execFabricStartDelay
  repeat' with_reducible first
      | assumption | apply sendHeld_canon | apply sendAll_canon | apply OutCanon.next | (simp only [State.canon_mk]; refine ⟨?_, ?_, ?_⟩)
      | apply State.Canon.mem | apply State.Canon.mbox | apply State.Canon.recWin | split

theorem execKaricForward_canon (s : State) (hc : s.Canon) : OutCanon (execKaricForward s) := by
  unfold execKaricForward
  repeat' with_reducible first
      | assumption | intro _ | apply State.forward_canon | apply onPacket_canon | split

theorem State.answerChunk_canon (s : State) (p : Packet) (bs : Bytes) (hc : s.Canon) : (State.answerChunk s p bs).Canon := by
  unfold State.answerChunk
  repeat' with_reducible first
      | assumption | apply State.send_canon

theorem execKaricRdreq_canon (s : State) (hc : s.Canon) : OutCanon (execKaricRdreq s) := by
  unfold execKaricRdreq
  repeat' with_reducible first
      | assumption | intro _ | apply onPacket_canon | apply State.answer_canon | apply State.admitted_canon | apply State.answerChunk_canon | split

theorem execKaricWr_canon (s : State) (hc : s.Canon) : OutCanon (execKaricWr s) := by
  unfold execKaricWr
  repeat' with_reducible first
      | assumption | intro _ | apply State.homeWrite_canon | apply onPacket_canon | apply State.answerKept_canon | apply State.admitted_canon

theorem State.performAtom_canon (s : State) (p : Packet) (hc : s.Canon) : (State.performAtom s p).Canon := by
  unfold State.performAtom
  repeat' with_reducible first
      | assumption | apply State.atomicAt_canon | apply State.answerKept_canon

theorem State.orderTaken_canon (s : State) (p : Packet) (hc : s.Canon) : (State.orderTaken s p).Canon := by
  unfold State.orderTaken
  repeat' with_reducible first
      | assumption | (simp only [State.canon_mk]; refine ⟨?_, ?_, ?_⟩) | apply State.Canon.mem | apply State.Canon.mbox | apply State.Canon.recWin
      | split

theorem releaseAtoms_canon (a0 : Nat) (a1 : State) (hc : a1.Canon) : (releaseAtoms a0 a1).Canon := by
  induction a0 generalizing a1 with
  | zero =>
    unfold releaseAtoms
    repeat' with_reducible first
        | assumption
  | succ n ih =>
    unfold releaseAtoms
    repeat' with_reducible first
        | assumption | apply ih | apply State.performAtom_canon | apply State.orderTaken_canon | (simp only [State.canon_mk]; refine ⟨?_, ?_, ?_⟩)
        | apply State.Canon.mem | apply State.Canon.mbox | apply State.Canon.recWin | split

theorem State.holdAtom_canon (s : State) (place : Nat) (p : Packet) (hc : s.Canon) : (State.holdAtom s place p).Canon := by
  unfold State.holdAtom
  repeat' with_reducible first
      | assumption | (simp only [State.canon_mk]; refine ⟨?_, ?_, ?_⟩) | apply State.Canon.mem | apply State.Canon.mbox | apply State.Canon.recWin
      | split

theorem execKaricAtom_canon (s : State) (hc : s.Canon) : OutCanon (execKaricAtom s) := by
  unfold execKaricAtom
  repeat' with_reducible first
      | assumption | intro _ | apply onPacket_canon | apply State.answer_canon | apply State.answerAgain_canon | apply State.logDenied_canon
      | apply State.holdPacket_canon | apply State.performAtom_canon | apply State.orderTaken_canon | apply releaseAtoms_canon
      | apply State.holdAtom_canon | dsimp only | split

theorem State.markFlag_canon (s : State) (f : FlagIn) (d : Nat) (hc : s.Canon) : (State.markFlag s f d).Canon := by
  unfold State.markFlag
  repeat' with_reducible first
      | assumption | (simp only [State.canon_mk]; refine ⟨?_, ?_, ?_⟩) | apply State.Canon.mem | apply State.Canon.mbox | apply State.Canon.recWin

theorem State.performFlag_canon (s : State) (p : Packet) (hc : s.Canon) : (State.performFlag s p).Canon := by
  unfold State.performFlag
  repeat' with_reducible first
      | assumption | apply State.homeWrite_canon | apply State.initBarrier_canon | apply State.atomicAt_canon | apply State.applyUpdate_canon
      | apply State.answerKept_canon | dsimp only | split

theorem State.numberedFlag_canon (s : State) (p : Packet) (f : FlagIn) (hc : s.Canon) : (State.numberedFlag s p f).Canon := by
  unfold State.numberedFlag
  repeat' with_reducible first
      | assumption | apply State.count_canon | apply State.answer_canon | apply State.answerKept_canon | apply State.answerAgain_canon
      | apply State.logDenied_canon | apply State.holdPacket_canon | apply State.markFlag_canon | apply State.performFlag_canon | dsimp only | split

theorem State.flagFrom_canon (s : State) (p : Packet) (hc : s.Canon) : (State.flagFrom s p).Canon := by
  unfold State.flagFrom
  repeat' with_reducible first
      | assumption | apply State.logEvent_canon | apply State.answer_canon | apply State.numberedFlag_canon | dsimp only | split

theorem execKaricFlag_canon (s : State) (hc : s.Canon) : OutCanon (execKaricFlag s) := by
  unfold execKaricFlag
  repeat' with_reducible first
      | assumption | intro _ | apply onPacket_canon | apply State.answer_canon | apply State.flagFrom_canon | dsimp only | split

theorem execMgmtPin_canon (s : State) (hc : s.Canon) : OutCanon (execMgmtPin s) := by
  unfold execMgmtPin
  repeat' with_reducible first
      | assumption | intro _ | apply State.sendMgmt_canon | apply onPacket_canon | apply State.answer_canon | dsimp only
      | (simp only [State.canon_mk]; refine ⟨?_, ?_, ?_⟩) | apply State.Canon.mem | apply State.Canon.mbox | apply State.Canon.recWin | split

theorem execMgmtPinans_canon (s : State) (hc : s.Canon) : OutCanon (execMgmtPinans s) := by
  unfold execMgmtPinans
  repeat' with_reducible first
      | assumption | intro _ | apply onPacket_canon | apply State.pinAnswer_canon

theorem execMgmtWatch_canon (s : State) (hc : s.Canon) : OutCanon (execMgmtWatch s) := by
  unfold execMgmtWatch
  repeat' with_reducible first
      | assumption | intro _ | apply tellWatchers_canon | apply onPacket_canon | dsimp only | (simp only [State.canon_mk]; refine ⟨?_, ?_, ?_⟩)
      | apply State.Canon.mem | apply State.Canon.mbox | apply State.Canon.recWin | split

theorem execMgmtAdvanced_canon (s : State) (hc : s.Canon) : OutCanon (execMgmtAdvanced s) := by
  unfold execMgmtAdvanced
  repeat' with_reducible first
      | assumption | intro _ | apply onPacket_canon | dsimp only | (simp only [State.canon_mk]; refine ⟨?_, ?_, ?_⟩) | apply State.Canon.mem
      | apply State.Canon.mbox | apply State.Canon.recWin | split

theorem execMgmtGather_canon (s : State) (hc : s.Canon) : OutCanon (execMgmtGather s) := by
  unfold execMgmtGather
  repeat' with_reducible first
      | assumption | intro _ | apply onPacket_canon | (simp only [State.canon_mk]; refine ⟨?_, ?_, ?_⟩) | apply State.Canon.mem
      | apply State.Canon.mbox | apply State.Canon.recWin | split

/-! ## SaveArea -/

theorem setMemBit_wf (m : Memory) (a i : Nat) (hc : m.wf = true) : (setMemBit m a i).wf = true := by
  unfold setMemBit
  repeat' with_reducible first
      | assumption | dsimp only | apply memPut_wf | split

theorem State.presentLine_canon (s : State) (t : Team) (id line : Nat) (hc : s.Canon) : (State.presentLine s t id line).Canon := by
  unfold State.presentLine
  repeat' with_reducible first
      | assumption | apply State.tagExtent_canon | apply setMemBit_wf | dsimp only | (simp only [State.canon_mk]; refine ⟨?_, ?_, ?_⟩)
      | apply State.Canon.mem | apply State.Canon.mbox | apply State.Canon.recWin | split

theorem putMasked_wf (base stride mask : Nat) (a0 : Nat) (a1 : List Word) (a2 : Memory) (hc : a2.wf = true) : (putMasked base stride mask a0 a1
    a2).wf = true := by
  induction a1 generalizing a0 a2 base stride mask with
  | nil =>
    unfold putMasked
    repeat' with_reducible first
        | assumption
  | cons x l ih =>
    unfold putMasked
    repeat' with_reducible first
        | assumption | apply ih | apply putBytes_wf | split

theorem putMaskedByte_wf (m : Memory) (a mask x : Nat) (hc : m.wf = true) : (putMaskedByte m a mask x).wf = true := by
  unfold putMaskedByte
  repeat' with_reducible first
      | assumption | apply memPut_wf

theorem putThreads_wf (img : Image) (vbud r : Nat) (a0 : Nat) (a1 : List Thread) (a2 : Memory) (hc : a2.wf = true) : (putThreads img vbud r a0 a1
    a2).wf = true := by
  induction a1 generalizing a0 a2 img vbud r with
  | nil =>
    unfold putThreads
    repeat' with_reducible first
        | assumption
  | cons x l ih =>
    unfold putThreads
    repeat' with_reducible first
        | assumption | apply ih | apply putMasked_wf | apply putMaskedByte_wf

theorem putTokens_wf (r mask : Nat) (a0 : Nat) (a1 : List Token) (a2 : Memory) (hc : a2.wf = true) : (putTokens r mask a0 a1 a2).wf = true := by
  induction a1 generalizing a0 a2 r mask with
  | nil =>
    unfold putTokens
    repeat' with_reducible first
        | assumption
  | cons x l ih =>
    unfold putTokens
    repeat' with_reducible first
        | assumption | apply ih | apply putBytes_wf | split

theorem groupSave_wf (img : Image) (r : Nat) (g : Group) (m : Memory) (hc : m.wf = true) : (groupSave img r g m).wf = true := by
  unfold groupSave
  repeat' with_reducible first
      | assumption | apply putMasked_wf | apply putMaskedByte_wf | apply putThreads_wf | apply putTokens_wf | apply putBytes_wf

theorem queueSave_wf (base : Nat) (q : StreamQ) (m : Memory) (hc : m.wf = true) : (queueSave base q m).wf = true := by
  unfold queueSave
  repeat' with_reducible first
      | assumption | apply putBytes_wf

theorem tilesSave_wf (t : Team) (base : Nat) (a0 : List (Nat × Nat)) (a1 : Memory) (hc : a1.wf = true) : (tilesSave t base a0 a1).wf = true := by
  induction a0 generalizing a1 t base with
  | nil =>
    unfold tilesSave
    repeat' with_reducible first
        | assumption
  | cons x l ih =>
    unfold tilesSave
    repeat' with_reducible first
        | assumption | intro _ | apply ih | apply copyRange_wf | apply foldl_wf | apply putBytes_wf

theorem sharesSave_wf (t : Team) (base : Nat) (a0 : List (Nat × Nat)) (a1 : Memory) (hc : a1.wf = true) : (sharesSave t base a0 a1).wf = true := by
  induction a0 generalizing a1 t base with
  | nil =>
    unfold sharesSave
    repeat' with_reducible first
        | assumption
  | cons x l ih =>
    unfold sharesSave
    repeat' with_reducible first
        | assumption | apply ih | apply copyRange_wf

theorem tagAll_canon (tag : Nat) (a0 : List (Nat × Nat)) (a1 : State) (hc : a1.Canon) : (tagAll tag a0 a1).Canon := by
  induction a0 generalizing a1 tag with
  | nil =>
    unfold tagAll
    repeat' with_reducible first
        | assumption
  | cons x l ih =>
    unfold tagAll
    repeat' with_reducible first
        | assumption | apply ih | apply State.tagExtent_canon | split

theorem State.writeArea_canon (s : State) (t : Team) (l : Launch) (gs : List Group) (kind : Nat) (hc : s.Canon) : (State.writeArea s t l gs
    kind).Canon := by
  unfold State.writeArea
  repeat' with_reducible first
      | assumption | intro _ | apply copyRange_wf | apply groupSave_wf | apply queueSave_wf | apply tilesSave_wf | apply sharesSave_wf
      | apply tagAll_canon | apply foldl_wf | (simp only [State.canon_mk]; refine ⟨?_, ?_, ?_⟩) | apply putBytes_wf | apply State.Canon.mem
      | apply State.Canon.mbox | apply State.Canon.recWin | split

/-! ## CollEvents -/

theorem State.failPod_canon (s : State) (o : Op) (c : BitVec 8) (hc : s.Canon) : (State.failPod s o c).Canon := by
  unfold State.failPod
  repeat' with_reducible first
      | assumption | apply State.finishOp_canon | apply State.sendCancel_canon

theorem State.podGot_canon {s : State} {o : Op} {g : Got} {f : Bytes → State} (hf : ∀ b, (f b).Canon) (hg : g.Canon) (h : s.Canon) : (State.podGot s
    o g f).Canon := by
  unfold State.podGot
  cases g <;> first | exact hf _ | exact hg | exact State.failPod_canon _ _ _ h

theorem State.podPut_canon {s : State} {o : Op} {g : Put} {f : State → State} (hf : ∀ s, s.Canon → (f s).Canon) (hg : g.Canon) (h : s.Canon) :
    (State.podPut s o g f).Canon := by
  unfold State.podPut
  cases g <;> first | exact hf _ hg | exact hg | exact State.failPod_canon _ _ _ h

theorem State.joinGroup_canon (s : State) (o : Op) (members : List Nat) (subtype : Nat) (desc : Bytes) (hc : s.Canon) : (State.joinGroup s o members
    subtype desc).Canon := by
  unfold State.joinGroup
  repeat' with_reducible first
      | assumption | intro _ | apply State.modOp_canon | apply State.sendMgmt_canon | apply foldl_canon

theorem State.knowPeers_canon (s : State) (o : Op) (list : Bytes) (hc : s.Canon) : (State.knowPeers s o list).1.Canon := by
  unfold State.knowPeers
  repeat' with_reducible first
      | assumption | apply State.modOp_canon | apply State.sendCancel_canon | dsimp only | split

theorem State.prepareColl_canon (s : State) (o : Op) (hc : s.Canon) : (State.prepareColl s o).Canon := by
  unfold State.prepareColl
  repeat' with_reducible first
      | assumption | intro _ | apply State.engineEnds_canon | apply State.engineGet_canon | apply State.listHeader_canon | apply State.failPod_canon
      | apply State.podGot_canon | apply State.joinGroup_canon | apply State.knowPeers_canon | dsimp only | split

theorem State.agree_canon (s : State) (o : Op) (subtype kind : Nat) (own : Bytes) (hc : s.Canon) : (State.agree s o subtype kind own).Canon := by
  unfold State.agree
  repeat' with_reducible first
      | assumption | apply State.modOp_canon | apply State.failPod_canon | dsimp only | (simp only [State.canon_mk]; refine ⟨?_, ?_, ?_⟩)
      | apply State.Canon.mem | apply State.Canon.mbox | apply State.Canon.recWin | split

theorem State.putDest_canon (s : State) (o : Op) (d : Nat) (bs : Bytes) (check : Nat × Nat) (hc : s.Canon) : (State.putDest s o d bs check).Canon :=
    by
  unfold State.putDest
  repeat' with_reducible first
      | assumption | apply State.homeWrite_canon | apply State.enginePut_canon | apply State.presentLine_canon
      | refine Put.ok_canon (by assumption) ?_ | apply Put.ok_mk | dsimp only | split

theorem State.landDest_canon (s : State) (o : Op) (d orig finder : Nat) (red : Bool) (bs : Bytes) (hc : s.Canon) : (State.landDest s o d orig finder
    red bs).Canon := by
  unfold State.landDest
  repeat' with_reducible first
      | assumption | apply State.putBuf_canon | apply State.chunkLanded_canon | apply State.logError_canon | apply State.putDest_canon
      | refine Put.ok_canon (by assumption) ?_ | apply Put.ok_mk | dsimp only | split

theorem State.sourceChunk_canon (s : State) (o : Op) (i n : Nat) (hc : s.Canon) : (State.sourceChunk s o i n).Canon := by
  unfold State.sourceChunk
  repeat' with_reducible first
      | assumption | apply State.engineGetAll_canon | exact Got.ok_mk | dsimp only | split

theorem State.addInput_canon (s : State) (o : Op) (g slot finder : Nat) (bs : Bytes) (hc : s.Canon) : (State.addInput s o g slot finder bs).Canon :=
    by
  unfold State.addInput
  repeat' with_reducible first
      | assumption | apply State.modOp_canon | apply State.putBuf_canon

theorem deliverChunk_canon (o : Op) (own tag : Nat) (bs : Bytes) (a0 : List (Nat × Nat × Bool)) (a1 : State) (hc : a1.Canon) : (deliverChunk o own
    tag bs a0 a1).Canon := by
  induction a0 generalizing a1 o own tag bs with
  | nil =>
    unfold deliverChunk
    repeat' with_reducible first
        | assumption | apply State.sendChunk_canon | apply State.landDest_canon | apply State.addInput_canon | refine fst_canon (by assumption) ?_
        | refine Put.ok_canon (by assumption) ?_ | apply Put.ok_mk
  | cons x l ih =>
    unfold deliverChunk
    repeat' with_reducible first
        | assumption | apply ih | apply State.sendChunk_canon | apply State.landDest_canon | apply State.addInput_canon
        | refine fst_canon (by assumption) ?_ | refine Put.ok_canon (by assumption) ?_ | apply Put.ok_mk | exact Put.fail_mk | dsimp only | split

theorem State.readColl_canon (s : State) (o : Op) (i : Nat) (hc : s.Canon) : (State.readColl s o i).Canon := by
  unfold State.readColl
  repeat' with_reducible first
      | assumption | intro _ | apply State.modOp_canon | apply State.podGot_canon | apply State.podPut_canon | apply State.sourceChunk_canon
      | apply deliverChunk_canon | dsimp only | split

theorem State.slotOrder_canon (s : State) (o : Op) (slot : Nat) (hc : s.Canon) : (State.slotOrder s o slot).Canon := by
  unfold State.slotOrder
  repeat' with_reducible first
      | assumption | apply State.engineGet_canon | exact Got.fail_mk | exact Got.ok_mk | dsimp only | split

theorem sendResult_canon (o : Op) (slot orig finder : Nat) (bs : Bytes) (a0 : List Nat) (a1 : State) (hc : a1.Canon) : (sendResult o slot orig
    finder bs a0 a1).Canon := by
  induction a0 generalizing a1 o slot orig finder bs with
  | nil =>
    unfold sendResult
    repeat' with_reducible first
        | assumption | apply State.sendChunk_canon | refine fst_canon (by assumption) ?_ | apply Put.ok_mk
  | cons x l ih =>
    unfold sendResult
    repeat' with_reducible first
        | assumption | apply ih | apply State.sendChunk_canon | refine fst_canon (by assumption) ?_ | apply Put.ok_mk | exact Put.fail_mk | split

theorem State.reduce_canon (s : State) (o : Op) (slot : Nat) (hc : s.Canon) : (State.reduce s o slot).Canon := by
  unfold State.reduce
  repeat' with_reducible first
      | assumption | intro _ | apply State.modOp_canon | apply State.count_canon | apply State.enginePut_canon | apply State.podGot_canon
      | apply State.podPut_canon | apply State.landDest_canon | apply State.slotOrder_canon | apply sendResult_canon | apply Put.ok_mk | dsimp only
      | (simp only [State.canon_mk]; refine ⟨?_, ?_, ?_⟩) | apply State.Canon.mem | apply State.Canon.mbox | apply State.Canon.recWin | split

theorem State.takeColl_canon (s : State) (o : Op) (p : Packet) (hc : s.Canon) : (State.takeColl s o p).Canon := by
  unfold State.takeColl
  repeat' with_reducible first
      | assumption | apply State.answerKept_canon | apply State.failPod_canon | apply State.landDest_canon | apply State.addInput_canon
      | refine Put.ok_canon (by assumption) ?_ | refine Put.wait_canon (by assumption) ?_ | refine Put.halted_canon (by assumption) ?_ | dsimp only
      | (simp only [State.canon_mk]; refine ⟨?_, ?_, ?_⟩) | apply State.Canon.mem | apply State.Canon.mbox | apply State.Canon.recWin | split

theorem State.landColl_canon (s : State) (o : Op) (i : Nat) (hc : s.Canon) : (State.landColl s o i).Canon := by
  unfold State.landColl
  repeat' with_reducible first
      | assumption | apply State.failPod_canon | apply State.prepareColl_canon | apply State.agree_canon | apply State.readColl_canon
      | apply State.takeColl_canon | split

theorem State.podLists_canon (s : State) (o : Op) (errl : Nat) (bad errs : List Bytes) (hc : s.Canon) : (State.podLists s o errl bad errs).Canon := by
  unfold State.podLists
  repeat' with_reducible first
      | assumption | apply State.listUpdate_canon | split

theorem State.finishColl_canon (s : State) (o : Op) (hc : s.Canon) : (State.finishColl s o).Canon := by
  unfold State.finishColl
  repeat' with_reducible first
      | assumption | intro _ | apply State.finishOp_canon | apply State.relFor_canon | apply State.failPod_canon | apply State.podGot_canon
      | apply State.podLists_canon | dsimp only | split

theorem State.prepareMcst_canon (s : State) (o : Op) (hc : s.Canon) : (State.prepareMcst s o).Canon := by
  unfold State.prepareMcst
  repeat' with_reducible first
      | assumption | intro _ | apply State.modOp_canon | apply State.engineGet_canon | apply State.listHeader_canon | apply State.failPod_canon
      | apply State.podGot_canon | dsimp only | split

theorem State.landMc_canon (s : State) (p : Packet) (hc : s.Canon) : (State.landMc s p).1.Canon := by
  unfold State.landMc
  repeat' with_reducible first
      | assumption | apply State.homeWrite_canon | apply State.logError_canon | apply State.logDenied_canon | split

theorem State.landOwn_canon (s : State) (o : Op) (i : Nat) (p : Packet) (hc : s.Canon) : (State.landOwn s o i p).Canon := by
  unfold State.landOwn
  repeat' with_reducible first
      | assumption | apply State.modOp_canon | apply State.homeWrite_canon | apply State.dropExtent_canon | apply State.egress_canon
      | apply State.putBuf_canon | apply State.logError_canon | apply State.logDenied_canon | dsimp only | split

theorem State.takeMc_canon (s : State) (p : Packet) (hc : s.Canon) : (State.takeMc s p).Canon := by
  unfold State.takeMc
  repeat' with_reducible first
      | assumption | apply State.count_canon | apply State.egress_canon | apply State.answerKept_canon | apply State.answerAgain_canon
      | apply State.holdPacket_canon | apply State.landMc_canon | dsimp only | (simp only [State.canon_mk]; refine ⟨?_, ?_, ?_⟩)
      | apply State.Canon.mem | apply State.Canon.mbox | apply State.Canon.recWin | split

theorem State.mcAnswer_canon (s : State) (o : Op) (member status bad denied : Nat) (hc : s.Canon) : (State.mcAnswer s o member status bad
    denied).Canon := by
  unfold State.mcAnswer
  repeat' with_reducible first
      | assumption | apply State.modOp_canon | dsimp only | (simp only [State.canon_mk]; refine ⟨?_, ?_, ?_⟩) | apply State.Canon.mem
      | apply State.Canon.mbox | apply State.Canon.recWin | split

theorem State.mcSent_canon (s : State) (o : Op) (hc : s.Canon) : (State.mcSent s o).Canon := by
  unfold State.mcSent
  repeat' with_reducible first
      | assumption | apply State.mcAnswer_canon | dsimp only | (simp only [State.canon_mk]; refine ⟨?_, ?_, ?_⟩) | apply State.Canon.mem
      | apply State.Canon.mbox | apply State.Canon.recWin | split

theorem State.sendMc_canon (s : State) (o : Op) (i : Nat) (hc : s.Canon) : (State.sendMc s o i).Canon := by
  unfold State.sendMc
  repeat' with_reducible first
      | assumption | intro _ | apply State.modOp_canon | apply State.bump_canon | apply State.holdFor_canon | apply State.engineEnds_canon
      | apply State.injectCopies_canon | apply State.failPod_canon | apply State.podGot_canon | apply State.sourceChunk_canon
      | apply State.landOwn_canon | apply State.mcSent_canon | dsimp only | (simp only [State.canon_mk]; refine ⟨?_, ?_, ?_⟩) | apply State.Canon.mem
      | apply State.Canon.mbox | apply State.Canon.recWin | split

theorem State.landMcst_canon (s : State) (o : Op) (i : Nat) (hc : s.Canon) : (State.landMcst s o i).Canon := by
  unfold State.landMcst
  repeat' with_reducible first
      | assumption | apply State.failPod_canon | apply State.prepareMcst_canon | apply State.sendMc_canon | split

theorem State.mcReply_canon (s : State) (o : Op) (r : Req) (p : Packet) (hc : s.Canon) : (State.mcReply s o r p).Canon := by
  unfold State.mcReply
  repeat' with_reducible first
      | assumption | apply State.logEvent_canon | apply State.answered_canon | apply State.mcAnswer_canon | dsimp only
      | (simp only [State.canon_mk]; refine ⟨?_, ?_, ?_⟩) | apply State.Canon.mem | apply State.Canon.mbox | apply State.Canon.recWin | split

theorem State.finishMcst_canon (s : State) (o : Op) (hc : s.Canon) : (State.finishMcst s o).Canon := by
  unfold State.finishMcst
  repeat' with_reducible first
      | assumption | intro _ | apply State.putToken_canon | apply countBytes_canon | apply State.finishOp_canon | apply State.opEnds_canon
      | apply State.relFor_canon | apply State.podGot_canon | apply State.podLists_canon | dsimp only
      | (simp only [State.canon_mk]; refine ⟨?_, ?_, ?_⟩) | apply State.Canon.mem | apply State.Canon.mbox | apply State.Canon.recWin | split

/-! ## DispatchEvents -/

/-- The state that an outcome carries has the canonical form. -/
def Bufs.Canon : Bufs → Prop
  | .ok _ => True
  | .wait s => s.Canon
  | .halted s => s.Canon
theorem Bufs.ok_mk {x0} : (Bufs.ok x0).Canon := trivial
theorem Bufs.wait_mk {s : State} (h : s.Canon) : (Bufs.wait s).Canon := h
theorem Bufs.wait_canon {r : Bufs} {s : State} (e : r = .wait s) (h : r.Canon) : s.Canon := by subst e; exact h
theorem Bufs.halted_mk {s : State} (h : s.Canon) : (Bufs.halted s).Canon := h
theorem Bufs.halted_canon {r : Bufs} {s : State} (e : r = .halted s) (h : r.Canon) : s.Canon := by subst e; exact h

theorem State.refuseGathers_canon (s : State) (o : Op) (et : Bytes) (away : List Nat) (hc : s.Canon) : (State.refuseGathers s o et away).Canon := by
  unfold State.refuseGathers
  repeat' with_reducible first
      | assumption | (simp only [State.canon_mk]; refine ⟨?_, ?_, ?_⟩) | apply State.Canon.mem | apply State.Canon.mbox | apply State.Canon.recWin

theorem State.dropGathers_canon (s : State) (o : Op) (hc : s.Canon) : (State.dropGathers s o).Canon := by
  unfold State.dropGathers
  repeat' with_reducible first
      | assumption | (simp only [State.canon_mk]; refine ⟨?_, ?_, ?_⟩) | apply State.Canon.mem | apply State.Canon.mbox | apply State.Canon.recWin

theorem State.ownBufs_canon (s : State) (o : Op) (et : Bytes) (a0 : List Nat) (a1 : List Nat) (hc : s.Canon) : (State.ownBufs s o et a0 a1).Canon :=
    by
  induction a0 generalizing a1 s o et with
  | nil =>
    unfold State.ownBufs
    repeat' with_reducible first
        | assumption | apply State.holdFor_canon | apply State.engineEnds_canon | apply State.dropGathers_canon | apply Bufs.halted_mk
        | apply Bufs.wait_mk | exact Bufs.ok_mk
  | cons x l ih =>
    unfold State.ownBufs
    repeat' with_reducible first
        | assumption | apply ih | apply State.holdFor_canon | apply State.engineEnds_canon | apply State.dropGathers_canon | apply Bufs.halted_mk
        | apply Bufs.wait_mk | exact Bufs.ok_mk | split

theorem State.prepareDisp_canon (s : State) (o : Op) (combine : Bool) (hc : s.Canon) : (State.prepareDisp s o combine).Canon := by
  unfold State.prepareDisp
  repeat' with_reducible first
      | assumption | intro _ | apply State.putBuf_canon | apply State.engineGet_canon | apply State.listHeader_canon | apply State.failPod_canon
      | apply State.podGot_canon | apply State.joinGroup_canon | apply State.knowPeers_canon | apply State.refuseGathers_canon
      | apply State.ownBufs_canon | refine Bufs.wait_canon (by assumption) ?_ | refine Bufs.halted_canon (by assumption) ?_ | dsimp only | split

theorem sendCounts_canon (o : Op) (counts : List Nat) (d : Nat) (a0 : List Nat) (a1 : State) (hc : a1.Canon) : (sendCounts o counts d a0 a1).1.Canon
    := by
  induction a0 generalizing a1 o counts d with
  | nil =>
    unfold sendCounts
    repeat' with_reducible first
        | assumption
  | cons x l ih =>
    unfold sendCounts
    repeat' with_reducible first
        | assumption | apply ih | apply State.request_canon | refine fst_canon (by assumption) ?_ | dsimp only | split

theorem sendAllCounts_canon (o : Op) (counts : List Nat) (a0 : List Nat) (a1 : State) (hc : a1.Canon) : (sendAllCounts o counts a0 a1).1.Canon := by
  induction a0 generalizing a1 o counts with
  | nil =>
    unfold sendAllCounts
    repeat' with_reducible first
        | assumption
  | cons x l ih =>
    unfold sendAllCounts
    repeat' with_reducible first
        | assumption | apply ih | apply sendCounts_canon | refine fst_canon (by assumption) ?_ | split

theorem State.countRte_canon (s : State) (o : Op) (hc : s.Canon) : (State.countRte s o).Canon := by
  unfold State.countRte
  repeat' with_reducible first
      | assumption | intro _ | apply State.modOp_canon | apply State.putBuf_canon | apply State.engineGet_canon | apply State.failPod_canon
      | apply State.podGot_canon | apply sendAllCounts_canon | refine fst_canon (by assumption) ?_ | dsimp only | split

theorem State.checkRows_canon (s : State) (o : Op) (et : Bytes) (a0 : List Placed) (hc : s.Canon) : (State.checkRows s o et a0).Canon := by
  induction a0 generalizing s o et with
  | nil =>
    unfold State.checkRows
    repeat' with_reducible first
        | assumption | apply State.holdFor_canon | apply State.engineEnds_canon | apply Got.halted_mk | apply Got.wait_mk | exact Got.fail_mk
        | exact Got.ok_mk
  | cons x l ih =>
    unfold State.checkRows
    repeat' with_reducible first
        | assumption | apply ih | apply State.holdFor_canon | apply State.engineEnds_canon | apply Got.halted_mk | apply Got.wait_mk
        | exact Got.fail_mk | exact Got.ok_mk | dsimp only | split

theorem State.placeRte_canon (s : State) (o : Op) (hc : s.Canon) : (State.placeRte s o).Canon := by
  unfold State.placeRte
  repeat' with_reducible first
      | assumption | intro _ | apply State.modOp_canon | apply State.putBuf_canon | apply State.podGot_canon | apply State.checkRows_canon | split

theorem State.putLong_canon (s : State) (o : Op) (va : Nat) (bs : Bytes) (hc : s.Canon) : (State.putLong s o va bs).Canon := by
  unfold State.putLong
  repeat' with_reducible first
      | assumption | intro _ | apply State.modOp_canon | apply State.enginePut_canon | apply State.podPut_canon | dsimp only | split

theorem State.sourceRow_canon (s : State) (o : Op) (t r : Nat) (hc : s.Canon) : (State.sourceRow s o t r).Canon := by
  unfold State.sourceRow
  repeat' with_reducible first
      | assumption | apply State.engineGetAll_canon | exact Got.ok_mk | dsimp only | split

theorem State.rowTaken_canon (s : State) (o : Op) (e i orig finder : Nat) (hc : s.Canon) : (State.rowTaken s o e i orig finder).Canon := by
  unfold State.rowTaken
  repeat' with_reducible first
      | assumption | apply State.modOp_canon | apply State.count_canon | apply countBytes_canon | apply State.putBuf_canon
      | apply State.logError_canon | split

theorem State.localRow_canon (s : State) (o : Op) (e i pa tag : Nat) (bs : Bytes) (hc : s.Canon) : (State.localRow s o e i pa tag bs).Canon := by
  unfold State.localRow
  repeat' with_reducible first
      | assumption | apply State.homeWrite_canon | apply State.dropExtent_canon | apply State.egress_canon | apply State.rowTaken_canon

theorem State.scatterOne_canon (s : State) (o : Op) (r e i tag : Nat) (p : Phys) (bs : Bytes) (hc : s.Canon) : (State.scatterOne s o r e i tag p
    bs).Canon := by
  unfold State.scatterOne
  repeat' with_reducible first
      | assumption | apply State.putLocal_canon | apply State.sendChunk_canon | apply State.rowTaken_canon | apply State.localRow_canon
      | refine fst_canon (by assumption) ?_ | apply Put.ok_mk | exact Put.fail_mk | dsimp only | split

theorem scatterChunks_canon (o : Op) (r e i : Nat) (bs : Bytes) (a0 : Nat) (a1 : List Phys) (a2 : State) (hc : a2.Canon) : (scatterChunks o r e i bs
    a0 a1 a2).Canon := by
  induction a1 generalizing a0 a2 o r e i bs with
  | nil =>
    unfold scatterChunks
    repeat' with_reducible first
        | assumption | apply State.scatterOne_canon | refine Put.ok_canon (by assumption) ?_ | apply Put.ok_mk
  | cons x l ih =>
    unfold scatterChunks
    repeat' with_reducible first
        | assumption | apply ih | apply State.scatterOne_canon | refine Put.ok_canon (by assumption) ?_ | apply Put.ok_mk | split

theorem State.scatterRte_canon (s : State) (o : Op) (hc : s.Canon) : (State.scatterRte s o).Canon := by
  unfold State.scatterRte
  repeat' with_reducible first
      | assumption | intro _ | apply State.modOp_canon | apply State.holdFor_canon | apply State.engineEnds_canon | apply State.dropBufs_canon
      | apply State.failPod_canon | apply State.podGot_canon | apply State.podPut_canon | apply State.sourceRow_canon | apply scatterChunks_canon
      | dsimp only | (simp only [State.canon_mk]; refine ⟨?_, ?_, ?_⟩) | apply State.Canon.mem | apply State.Canon.mbox | apply State.Canon.recWin
      | split

theorem State.rowNear_canon (s : State) (pa src : Nat) (hc : s.Canon) : (State.rowNear s pa src).Canon := by
  unfold State.rowNear
  repeat' with_reducible first
      | assumption | apply State.dropExtent_canon | intro _ | apply foldl_canon

theorem State.rowLanded_canon (s : State) (pa src txid finder : Nat) (hc : s.Canon) : (State.rowLanded s pa src txid finder).Canon := by
  unfold State.rowLanded
  repeat' with_reducible first
      | assumption | apply State.logError_canon | apply State.rowTaken_canon | dsimp only | (simp only [State.canon_mk]; refine ⟨?_, ?_, ?_⟩)
      | apply State.Canon.mem | apply State.Canon.mbox | apply State.Canon.recWin | split

theorem settleRows_canon (a0 : List (Nat × Nat × Nat × Nat)) (a1 : State) (hc : a1.Canon) : (settleRows a0 a1).Canon := by
  induction a0 generalizing a1 with
  | nil =>
    unfold settleRows
    repeat' with_reducible first
        | assumption | apply State.rowLanded_canon
  | cons x l ih =>
    unfold settleRows
    repeat' with_reducible first
        | assumption | apply ih | apply State.rowLanded_canon

theorem State.rowsAgain_canon (s : State) (hc : s.Canon) : (State.rowsAgain s).Canon := by
  unfold State.rowsAgain
  repeat' with_reducible first
      | assumption | apply settleRows_canon | dsimp only | (simp only [State.canon_mk]; refine ⟨?_, ?_, ?_⟩) | apply State.Canon.mem
      | apply State.Canon.mbox | apply State.Canon.recWin

theorem State.runRte_canon (s : State) (o : Op) (hc : s.Canon) : (State.runRte s o).Canon := by
  unfold State.runRte
  repeat' with_reducible first
      | assumption | apply State.rowsAgain_canon | intro _ | apply State.modOp_canon | apply State.listUpdate_canon | apply State.failPod_canon
      | apply State.podGot_canon | apply State.agree_canon | apply State.prepareDisp_canon | apply State.countRte_canon | apply State.placeRte_canon
      | apply State.putLong_canon | apply State.scatterRte_canon | dsimp only | (simp only [State.canon_mk]; refine ⟨?_, ?_, ?_⟩)
      | apply State.Canon.mem | apply State.Canon.mbox | apply State.Canon.recWin | split

theorem State.finishRte_canon (s : State) (o : Op) (hc : s.Canon) : (State.finishRte s o).Canon := by
  unfold State.finishRte
  repeat' with_reducible first
      | assumption | intro _ | apply State.finishOp_canon | apply State.relFor_canon | apply State.failPod_canon | apply State.podGot_canon
      | apply State.podLists_canon | split

theorem State.readRtc_canon (s : State) (o : Op) (hc : s.Canon) : (State.readRtc s o).Canon := by
  unfold State.readRtc
  repeat' with_reducible first
      | assumption | intro _ | apply State.modOp_canon | apply State.putBuf_canon | apply State.engineGet_canon | apply State.failPod_canon
      | apply State.podGot_canon | split

theorem keepRow_canon (o : Op) (r : Nat) (bs : Bytes) (s : State) (hc : s.Canon) : (keepRow o r bs s).Canon := by
  unfold keepRow
  repeat' with_reducible first
      | assumption | intro _ | apply State.putBuf_canon | apply foldl_canon

theorem State.requestRow_canon (s : State) (o : Op) (x : Nat × Nat × Nat × Nat) (hc : s.Canon) : (State.requestRow s o x).Canon := by
  unfold State.requestRow
  repeat' with_reducible first
      | assumption | apply State.failPod_canon | intro _ | apply State.modOp_canon | apply State.sendMgmt_canon | apply State.dropBufs_canon
      | apply State.engineGet_canon | apply State.podGot_canon | apply keepRow_canon | dsimp only | (simp only [State.canon_mk]; refine ⟨?_, ?_, ?_⟩)
      | apply State.Canon.mem | apply State.Canon.mbox | apply State.Canon.recWin | split

theorem requestRows_canon (id : Nat) (a0 : List (Nat × Nat × Nat × Nat)) (a1 : State) (hc : a1.Canon) : (requestRows id a0 a1).Canon := by
  induction a0 generalizing a1 id with
  | nil =>
    unfold requestRows
    repeat' with_reducible first
        | assumption
  | cons x l ih =>
    unfold requestRows
    repeat' with_reducible first
        | assumption | apply ih | apply State.requestRow_canon | split

theorem State.dropItem_canon (s : State) (o : Op) (t : Nat) (hc : s.Canon) : (State.dropItem s o t).Canon := by
  unfold State.dropItem
  repeat' with_reducible first
      | assumption | apply State.modOp_canon | dsimp only | split

theorem State.combine_canon (s : State) (o : Op) (i : Nat) (hc : s.Canon) : (State.combine s o i).Canon := by
  unfold State.combine
  repeat' with_reducible first
      | assumption | intro _ | apply State.count_canon | apply State.podPut_canon | apply State.landDest_canon | apply requestRows_canon
      | apply State.dropItem_canon | dsimp only | split

theorem State.runRtc_canon (s : State) (o : Op) (i : Nat) (hc : s.Canon) : (State.runRtc s o i).Canon := by
  unfold State.runRtc
  repeat' with_reducible first
      | assumption | apply State.failPod_canon | apply State.agree_canon | apply State.prepareDisp_canon | apply State.readRtc_canon
      | apply State.combine_canon | split

theorem serveChunks_canon (o : Op) (dev ridx own : Nat) (bs : Bytes) (a0 : List Nat) (a1 : State) (hc : a1.Canon) : OptCanon (serveChunks o dev ridx
    own bs a0 a1) := by
  induction a0 generalizing a1 o dev ridx own bs with
  | nil =>
    unfold serveChunks
    repeat' with_reducible first
        | assumption | apply State.sendChunk_canon | refine fst_canon (by assumption) ?_ | apply OptCanon.some
  | cons x l ih =>
    unfold serveChunks
    repeat' with_reducible first
        | assumption | apply ih | apply State.sendChunk_canon | refine fst_canon (by assumption) ?_ | apply OptCanon.some | exact OptCanon.none
        | split

theorem State.serveGather_canon (s : State) (p : Packet) (o : Op) (hc : s.Canon) : (State.serveGather s p o).Canon := by
  unfold State.serveGather
  repeat' with_reducible first
      | assumption | apply State.holdFor_canon | apply State.engineEnds_canon | apply State.answer_canon | apply State.logDenied_canon
      | apply State.failPod_canon | apply serveChunks_canon | refine opt_canon (by assumption) ?_ | dsimp only
      | (simp only [State.canon_mk]; refine ⟨?_, ?_, ?_⟩) | apply State.Canon.mem | apply State.Canon.mbox | apply State.Canon.recWin | split

theorem State.takeGather_canon (s : State) (o : Op) (r : Nat) (p : Packet) (hc : s.Canon) : (State.takeGather s o r p).Canon := by
  unfold State.takeGather
  repeat' with_reducible first
      | assumption | apply State.putBuf_canon | apply State.answerKept_canon

theorem State.finishRtc_canon (s : State) (o : Op) (hc : s.Canon) : (State.finishRtc s o).Canon := by
  unfold State.finishRtc
  repeat' with_reducible first
      | assumption | intro _ | apply State.finishOp_canon | apply State.relFor_canon | apply State.failPod_canon | apply State.podGot_canon
      | apply State.podLists_canon | dsimp only | (simp only [State.canon_mk]; refine ⟨?_, ?_, ?_⟩) | apply State.Canon.mem | apply State.Canon.mbox
      | apply State.Canon.recWin | split

/-! ## Arbiter -/

theorem State.beginIssue_canon (s : State) (g : Group) (set : List Nat) (hc : s.Canon) : (State.beginIssue s g set).Canon := by
  unfold State.beginIssue
  repeat' with_reducible first
      | assumption | apply State.modGroup_canon | apply State.count_canon | (simp only [State.canon_mk]; refine ⟨?_, ?_, ?_⟩) | apply State.Canon.mem
      | apply State.Canon.mbox | apply State.Canon.recWin | dsimp only

theorem State.countWord_canon (s : State) (x : Issue) (op : Nat) (hc : s.Canon) : (State.countWord s x op).Canon := by
  unfold State.countWord
  repeat' with_reducible first
      | assumption | apply State.count_canon | dsimp only | (simp only [State.canon_mk]; refine ⟨?_, ?_, ?_⟩) | apply State.Canon.mem
      | apply State.Canon.mbox | apply State.Canon.recWin | split

theorem State.keepAhead_canon (s : State) (g : Group) (pc : Nat) (hc : s.Canon) : (State.keepAhead s g pc).Canon := by
  unfold State.keepAhead
  repeat' with_reducible first
      | assumption | apply State.modGroup_canon | apply State.count_canon | split

theorem State.noteQuad_canon (s : State) (core quad part : Nat) (hc : s.Canon) : (State.noteQuad s core quad part).Canon := by
  unfold State.noteQuad
  repeat' with_reducible first
      | assumption | dsimp only | (simp only [State.canon_mk]; refine ⟨?_, ?_, ?_⟩) | apply State.Canon.mem | apply State.Canon.mbox
      | apply State.Canon.recWin

theorem State.countPark_canon (s : State) (g : Group) (r : Reason) (hc : s.Canon) : (State.countPark s g r).Canon := by
  unfold State.countPark
  repeat' with_reducible first
      | assumption | apply State.count_canon | split

theorem countParks_canon (g : Group) (issued a0 : List Nat) (a1 : State) (hc : a1.Canon) : (countParks g issued a0 a1).Canon := by
  induction a0 generalizing a1 with
  | nil => exact hc
  | cons x l ih =>
    unfold countParks
    repeat' with_reducible first
        | assumption | apply ih | apply State.countPark_canon | split

theorem State.endIssue_canon (s : State) (x : Issue) (op : Nat) (hc : s.Canon) : (State.endIssue s x op).Canon := by
  unfold State.endIssue
  repeat' with_reducible first
      | assumption | apply State.noteQuad_canon | apply State.countWord_canon | apply State.modGroup_canon | apply countParks_canon
      | apply State.keepAhead_canon | dsimp only | split

/-! ## PlaceEvents -/

theorem clearStorage_wf (m : Memory) (core : Nat) (img : Image) (f : Fit) (hc : m.wf = true) : (clearStorage m core img f).wf = true := by
  unfold clearStorage
  repeat' with_reducible first
      | assumption | intro _ | apply clearRange_wf | apply foldl_wf

theorem State.placeNew_canon (s : State) (l : Launch) (index core : Nat) (img : Image) (f : Fit) (save : Nat) (hc : s.Canon) : (State.placeNew s l
    index core img f save).Canon := by
  unfold State.placeNew
  repeat' with_reducible first
      | assumption | apply tagAll_canon | apply clearStorage_wf | (simp only [State.canon_mk]; refine ⟨?_, ?_, ?_⟩) | apply putBytes_wf
      | apply State.Canon.mem | apply State.Canon.mbox | apply State.Canon.recWin | split

theorem bringArrays_wf (t : Team) (img : Image) (core : Nat) (gs : List Group) (f : Fit) (m : Memory) (hc : m.wf = true) : (bringArrays t img core
    gs f m).wf = true := by
  unfold bringArrays
  repeat' with_reducible first
      | assumption | intro _ | apply copyRange_wf | apply foldl_wf | split

theorem releaseRcv_canon (a0 : List Nat) (a1 : State) (hc : a1.Canon) : (releaseRcv a0 a1).Canon := by
  induction a0 generalizing a1 with
  | nil =>
    unfold releaseRcv
    repeat' with_reducible first
        | assumption
  | cons x l ih =>
    unfold releaseRcv
    repeat' with_reducible first
        | assumption | apply ih | apply State.rcvRelease_canon | split

theorem moveArea_canon (t : Team) (l : Launch) (img : Image) (f : Fit) (gs : List Group) (save : Nat) (s : State) (hc : s.Canon) : (moveArea t l img
    f gs save s).Canon := by
  unfold moveArea
  repeat' with_reducible first
      | assumption | intro _ | apply copyRange_wf | apply tagAll_canon | apply foldl_wf | (simp only [State.canon_mk]; refine ⟨?_, ?_, ?_⟩)
      | apply putBytes_wf | apply State.Canon.mem | apply State.Canon.mbox | apply State.Canon.recWin | dsimp only | apply foldl_canon | split

theorem State.placeSaved_canon (s : State) (t : Team) (l : Launch) (core : Nat) (f : Fit) (save : Nat) (hc : s.Canon) : (State.placeSaved s t l core
    f save).Canon := by
  unfold State.placeSaved
  repeat' with_reducible first
      | assumption | apply State.acquire_canon | apply State.bump_canon | apply copyRange_wf | apply clearStorage_wf | apply bringArrays_wf
      | apply releaseRcv_canon | apply moveArea_canon | (simp only [State.canon_mk]; refine ⟨?_, ?_, ?_⟩) | apply State.Canon.mem
      | apply State.Canon.mbox | apply State.Canon.recWin | dsimp only

theorem State.placeNext_canon (s : State) (c : Claim) (hc : s.Canon) : (State.placeNext s c).Canon := by
  unfold State.placeNext
  repeat' with_reducible first
      | assumption | apply State.modLaunch_canon | apply State.placeNew_canon | apply State.placeSaved_canon | dsimp only
      | (simp only [State.canon_mk]; refine ⟨?_, ?_, ?_⟩) | apply State.Canon.mem | apply State.Canon.mbox | apply State.Canon.recWin | split

theorem State.modDist_canon (s : State) (d : Nat) (f : Distributor → Distributor) (hc : s.Canon) : (State.modDist s d f).Canon := by
  unfold State.modDist
  repeat' with_reducible first
      | assumption | (simp only [State.canon_mk]; refine ⟨?_, ?_, ?_⟩) | apply State.Canon.mem | apply State.Canon.mbox | apply State.Canon.recWin
      | dsimp only | split

theorem State.markStarved_canon (s : State) (l : Nat) (hc : s.Canon) : (State.markStarved s l).Canon := by
  unfold State.markStarved
  repeat' with_reducible first
      | assumption | apply State.modLaunch_canon

theorem State.restStarved_canon (s : State) (hc : s.Canon) : (State.restStarved s).Canon := by
  unfold State.restStarved
  repeat' with_reducible first
      | assumption | (simp only [State.canon_mk]; refine ⟨?_, ?_, ?_⟩) | apply State.Canon.mem | apply State.Canon.mbox | apply State.Canon.recWin

theorem State.placeFor_canon (s : State) (d : Nat) (l : Launch) (c : Claim) (hc : s.Canon) : (State.placeFor s d l c).Canon := by
  unfold State.placeFor
  repeat' with_reducible first
      | assumption | apply State.modCtx_canon | apply State.placeNext_canon | apply State.modDist_canon | dsimp only
      | (simp only [State.canon_mk]; refine ⟨?_, ?_, ?_⟩) | apply State.Canon.mem | apply State.Canon.mbox | apply State.Canon.recWin

theorem State.useClaim_canon (s : State) (d : Nat) (c : Claim) (hc : s.Canon) : (State.useClaim s d c).1.Canon := by
  unfold State.useClaim
  repeat' with_reducible first
      | assumption | apply State.placeFor_canon | dsimp only | (simp only [State.canon_mk]; refine ⟨?_, ?_, ?_⟩) | apply State.Canon.mem
      | apply State.Canon.mbox | apply State.Canon.recWin | split

theorem State.askImage_canon (s : State) (l : Launch) (hc : s.Canon) : (State.askImage s l).Canon := by
  unfold State.askImage
  repeat' with_reducible first
      | assumption | apply State.askAway_canon | intro _ | apply foldl_canon | split

theorem State.decideStep_canon (s : State) (d prio : Nat) (ctxs ls : List Nat) (placed : Bool) (hc : s.Canon) : (State.decideStep s d prio ctxs ls
    placed).Canon := by
  unfold State.decideStep
  repeat' with_reducible first
      | assumption | apply State.askImage_canon | apply State.modCtx_canon | apply State.modDist_canon | apply State.markStarved_canon
      | apply State.placeFor_canon | dsimp only | (simp only [State.canon_mk]; refine ⟨?_, ?_, ?_⟩) | apply State.Canon.mem | apply State.Canon.mbox
      | apply State.Canon.recWin | split

theorem runDecision_canon (d : Nat) (a0 : Nat) (a1 : State) (hc : a1.Canon) : (runDecision d a0 a1).Canon := by
  induction a0 generalizing a1 d with
  | zero =>
    unfold runDecision
    repeat' with_reducible first
        | assumption
  | succ n ih =>
    unfold runDecision
    repeat' with_reducible first
        | assumption | apply ih | apply State.decideStep_canon | split

theorem State.afterPreempt_canon (s : State) (d : Nat) (hc : s.Canon) : (State.afterPreempt s d).Canon := by
  unfold State.afterPreempt
  repeat' with_reducible first
      | assumption | apply State.modDist_canon | apply State.useClaim_canon | dsimp only | (simp only [State.canon_mk]; refine ⟨?_, ?_, ?_⟩)
      | apply State.Canon.mem | apply State.Canon.mbox | apply State.Canon.recWin | split

theorem execPlacementDecision_canon (d : Nat) (s : State) (hc : s.Canon) : OutCanon (execPlacementDecision d s) := by
  unfold execPlacementDecision
  repeat' with_reducible first
      | assumption | apply State.modDist_canon | apply State.restStarved_canon | apply runDecision_canon | apply State.afterPreempt_canon
      | apply OutCanon.next | dsimp only | (simp only [State.canon_mk]; refine ⟨?_, ?_, ?_⟩) | apply State.Canon.mem | apply State.Canon.mbox
      | apply State.Canon.recWin | split

theorem execReservation_canon (d : Nat) (s : State) (hc : s.Canon) : OutCanon (execReservation d s) := by
  unfold execReservation
  repeat' with_reducible first
      | assumption | apply State.bind_canon | apply State.modDist_canon | apply State.restStarved_canon | apply OutCanon.next | dsimp only
      | (simp only [State.canon_mk]; refine ⟨?_, ?_, ?_⟩) | apply State.Canon.mem | apply State.Canon.mbox | apply State.Canon.recWin | split

theorem execReservationAnswer_canon (d : Nat) (s : State) (hc : s.Canon) : OutCanon (execReservationAnswer d s) := by
  unfold execReservationAnswer
  repeat' with_reducible first
      | assumption | apply State.modDist_canon | apply State.restStarved_canon | apply State.useClaim_canon | apply runDecision_canon
      | refine fst_canon (by assumption) ?_ | apply OutCanon.next | dsimp only | (simp only [State.canon_mk]; refine ⟨?_, ?_, ?_⟩)
      | apply State.Canon.mem | apply State.Canon.mbox | apply State.Canon.recWin | split

theorem State.orderStop_canon (s : State) (team : Nat) (kind : StopKind) (hc : s.Canon) : (State.orderStop s team kind).Canon := by
  unfold State.orderStop
  repeat' with_reducible first
      | assumption | apply State.modTeam_canon | dsimp only | (simp only [State.canon_mk]; refine ⟨?_, ?_, ?_⟩) | apply State.Canon.mem
      | apply State.Canon.mbox | apply State.Canon.recWin | split

theorem execPreemption_canon (l : Nat) (s : State) (hc : s.Canon) : OutCanon (execPreemption l s) := by
  unfold execPreemption
  repeat' with_reducible first
      | assumption | intro _ | apply State.modDist_canon | apply State.restStarved_canon | apply State.orderStop_canon | apply foldl_canon
      | apply OutCanon.next | dsimp only | (simp only [State.canon_mk]; refine ⟨?_, ?_, ?_⟩) | apply State.Canon.mem | apply State.Canon.mbox
      | apply State.Canon.recWin | split

theorem execUnplaceableLog_canon (l : Nat) (s : State) (hc : s.Canon) : OutCanon (execUnplaceableLog l s) := by
  unfold execUnplaceableLog
  repeat' with_reducible first
      | assumption | apply State.modLaunch_canon | apply State.logEvent_canon | apply State.restStarved_canon | apply OutCanon.next | dsimp only
      | (simp only [State.canon_mk]; refine ⟨?_, ?_, ?_⟩) | apply State.Canon.mem | apply State.Canon.mbox | apply State.Canon.recWin | split

/-! ## MatrixEvents -/

theorem Op.view_canon (o : Op) (s : State) (hc : s.Canon) : (Op.view o s).Canon := by
  unfold Op.view
  repeat' with_reducible first
      | assumption | intro _ | apply foldl_wf | (simp only [State.canon_mk]; refine ⟨?_, ?_, ?_⟩) | apply putBytes_wf | apply State.Canon.mem
      | apply State.Canon.mbox | apply State.Canon.recWin

theorem accElem_wf (s : State) (t : Team) (arr fmt acc : Nat) (m : MmaDesc) (row : Nat × List Word × List Word × List Word) (mem : Memory) (j : Nat)
    (hc : mem.wf = true) : (accElem s t arr fmt acc m row mem j).wf = true := by
  unfold accElem
  repeat' with_reducible first
      | assumption | apply putBytes_wf

theorem accRows_wf (s : State) (t : Team) (arr fmt acc : Nat) (m : MmaDesc) (wrote : List Nat) (a0 : List (Nat × List Word × List Word × List Word))
    (a1 : Memory) (hc : a1.wf = true) : (accRows s t arr fmt acc m wrote a0 a1).wf = true := by
  induction a0 generalizing a1 s t arr fmt acc m wrote with
  | nil =>
    unfold accRows
    repeat' with_reducible first
        | assumption
  | cons x l ih =>
    unfold accRows
    repeat' with_reducible first
        | assumption | apply ih | apply accElem_wf | apply foldl_wf

theorem State.leaveTile_canon (s : State) (team arr acc id : Nat) (f : Tile → Tile) (hc : s.Canon) : (State.leaveTile s team arr acc id f).Canon := by
  unfold State.leaveTile
  repeat' with_reducible first
      | assumption | apply State.modTile_canon

theorem execMmaStart_canon (id : Nat) (s : State) (hc : s.Canon) : OutCanon (execMmaStart id s) := by
  unfold execMmaStart
  repeat' with_reducible first
      | assumption | apply State.modOp_canon | apply State.finishOp_canon | apply State.leaveTile_canon | apply OutCanon.next | split

theorem execMmaFinish_canon (id : Nat) (s : State) (hc : s.Canon) : OutCanon (execMmaFinish id s) := by
  unfold execMmaFinish
  repeat' with_reducible first
      | assumption | apply State.count_canon | apply State.finishOp_canon | apply Op.view_canon | apply accRows_wf | apply State.leaveTile_canon
      | apply OutCanon.next | (simp only [State.canon_mk]; refine ⟨?_, ?_, ?_⟩) | apply State.Canon.mem | apply State.Canon.mbox
      | apply State.Canon.recWin | split

theorem State.arrayReads_canon (s : State) (id unit : Nat) (hc : s.Canon) : (State.arrayReads s id unit).Canon := by
  unfold State.arrayReads
  repeat' with_reducible first
      | assumption | apply State.modOp_canon | dsimp only | (simp only [State.canon_mk]; refine ⟨?_, ?_, ?_⟩) | apply State.Canon.mem
      | apply State.Canon.mbox | apply State.Canon.recWin | split

theorem State.arrayWrites_canon (s : State) (id lane col : Nat) (hc : s.Canon) : (State.arrayWrites s id lane col).Canon := by
  unfold State.arrayWrites
  repeat' with_reducible first
      | assumption | apply State.modOp_canon | apply Op.view_canon | apply accElem_wf | dsimp only
      | (simp only [State.canon_mk]; refine ⟨?_, ?_, ?_⟩) | apply State.Canon.mem | apply State.Canon.mbox | apply State.Canon.recWin | split

theorem execAcacqFinish_canon (id : Nat) (s : State) (hc : s.Canon) : OutCanon (execAcacqFinish id s) := by
  unfold execAcacqFinish
  repeat' with_reducible first
      | assumption | apply State.finishOp_canon | apply State.leaveTile_canon | apply OutCanon.next | split

/-! ## SaveEvents -/

theorem execForcedFullSave_canon (team : Nat) (s : State) (hc : s.Canon) : OutCanon (execForcedFullSave team s) := by
  unfold execForcedFullSave
  repeat' with_reducible first
      | assumption | apply OutCanon.next | (simp only [State.canon_mk]; refine ⟨?_, ?_, ?_⟩) | apply State.Canon.mem | apply State.Canon.mbox
      | apply State.Canon.recWin | split

theorem State.closeStopped_canon (s : State) (u lane : Nat) (hc : s.Canon) : (State.closeStopped s u lane).Canon := by
  unfold State.closeStopped
  repeat' with_reducible first
      | assumption | apply State.setGroup_canon | apply State.applyRes_canon | split

theorem forgetTokens_canon (u mask : Nat) (a0 : List Nat) (a1 : State) (hc : a1.Canon) : (forgetTokens u mask a0 a1).Canon := by
  induction a0 generalizing a1 u mask with
  | nil =>
    unfold forgetTokens
    repeat' with_reducible first
        | assumption
  | cons x l ih =>
    unfold forgetTokens
    repeat' with_reducible first
        | assumption | apply ih | apply State.modGroup_canon | apply State.detach_canon | split

theorem keepGroups_canon (img : Image) (a0 : List Group) (a1 : State) (hc : a1.Canon) : (keepGroups img a0 a1).Canon := by
  induction a0 generalizing a1 img with
  | nil =>
    unfold keepGroups
    repeat' with_reducible first
        | assumption
  | cons x l ih =>
    unfold keepGroups
    repeat' with_reducible first
        | assumption | apply ih | apply State.modGroup_canon | apply forgetTokens_canon

theorem State.leaveCore_canon (s : State) (asid core : Nat) (hc : s.Canon) : (State.leaveCore s asid core).Canon := by
  unfold State.leaveCore
  repeat' with_reducible first
      | assumption | apply State.shoot_canon | split

theorem State.newArea_canon (s : State) (t : Team) (l : Launch) (a n : Nat) (hc : s.Canon) : (State.newArea s t l a n).1.Canon := by
  unfold State.newArea
  repeat' with_reducible first
      | assumption | intro _ | apply State.modTeam_canon | apply State.modLaunch_canon | apply State.framesOut_canon | apply foldl_canon

theorem State.withArea_some {s u : State} {t v : Team} {l : Launch} (e : State.withArea s t l = some (u, v)) (h : s.Canon) : u.Canon := by
  unfold State.withArea at e
  split at e
  · cases e; exact h
  · obtain ⟨a, -, e⟩ := Option.map_eq_some_iff.mp e
    have := State.newArea_canon s t l a ((s.teamImage t).saveSize t.arrays.length) h
    rwa [e] at this

theorem answerAll_canon (asid : Nat) (a0 : List Bytes) (a1 : State) (hc : a1.Canon) : (answerAll asid a0 a1).Canon := by
  induction a0 generalizing a1 asid with
  | nil =>
    unfold answerAll
    repeat' with_reducible first
        | assumption
  | cons x l ih =>
    unfold answerAll
    repeat' with_reducible first
        | assumption | apply ih | apply State.post_canon

theorem State.stopAnswered_canon (s : State) (asid : Nat) (hc : s.Canon) : (State.stopAnswered s asid).Canon := by
  unfold State.stopAnswered
  repeat' with_reducible first
      | assumption | apply State.modCtx_canon | apply answerAll_canon | split

theorem State.saveTeam_canon (s : State) (t : Team) (l : Launch) (kind : StopKind) (hc : s.Canon) : (State.saveTeam s t l kind).Canon := by
  unfold State.saveTeam
  repeat' with_reducible first
      | assumption | apply State.modTeam_canon | apply State.writeBackAll_canon | apply State.writeArea_canon | apply State.wantPlacement_canon
      | apply keepGroups_canon | apply State.leaveCore_canon | apply State.stopAnswered_canon | (simp only [State.canon_mk]; refine ⟨?_, ?_, ?_⟩)
      | apply State.Canon.mem | apply State.Canon.mbox | apply State.Canon.recWin

theorem execTeamSave_canon (team : Nat) (s : State) (hc : s.Canon) : OutCanon (execTeamSave team s) := by
  unfold execTeamSave
  repeat' with_reducible first
      | assumption | apply countParks_canon | apply State.closeStopped_canon | apply State.saveTeam_canon
      | refine State.withArea_some (by assumption) ?_ | apply OutCanon.next | dsimp only | split

theorem execSaveWatchdog_canon (team : Nat) (s : State) (hc : s.Canon) : OutCanon (execSaveWatchdog team s) := by
  unfold execSaveWatchdog
  repeat' with_reducible first
      | assumption | apply State.stopLaunch_canon | apply State.terminateCtx_canon | apply OutCanon.next | split

theorem execSavedCompletion_canon (id lane : Nat) (s : State) (hc : s.Canon) : OutCanon (execSavedCompletion id lane s) := by
  unfold execSavedCompletion
  repeat' with_reducible first
      | assumption | apply State.replyPart_canon | apply OutCanon.next | split

end Sys2Proof.Machine
end

