-- ==== Sys2Proof/Laws/CanonicalExec.lean ====
section
/-!
SUPPORT. Canonical form: every meaning keeps the canonical form of the device's memories, and so does `exec`.
`f_canon` says it of `f`, in the order of the model's files.
-/
namespace Sys2Proof.Machine
open Sys2Proof
set_option Elab.async false

/-! ## KvEvents -/

/-- The state that an outcome carries has the canonical form. -/
def KvPage.Canon : KvPage → Prop
  | .ok _ _ => True
  | .bad => True
  | .wait s => s.Canon
  | .halted s => s.Canon
theorem KvPage.ok_mk {x0} {x1} : (KvPage.ok x0 x1).Canon := trivial
theorem KvPage.bad_mk : (KvPage.bad).Canon := trivial
theorem KvPage.wait_mk {s : State} (h : s.Canon) : (KvPage.wait s).Canon := h
theorem KvPage.wait_canon {r : KvPage} {s : State} (e : r = .wait s) (h : r.Canon) : s.Canon := by subst e; exact h
theorem KvPage.halted_mk {s : State} (h : s.Canon) : (KvPage.halted s).Canon := h
theorem KvPage.halted_canon {r : KvPage} {s : State} (e : r = .halted s) (h : r.Canon) : s.Canon := by subst e; exact h

theorem appendFreed_canon (a0 : Nat) (a1 : State) (hc : a1.Canon) : (appendFreed a0 a1).Canon := by
  induction a0 generalizing a1 with
  | zero =>
    unfold appendFreed
    repeat' with_reducible first
        | assumption
  | succ n ih =>
    unfold appendFreed
    repeat' with_reducible first
        | assumption | apply ih | apply State.homeWrite_canon | dsimp only | (simp only [State.canon_mk]; refine ⟨?_, ?_, ?_⟩)
        | apply State.Canon.mem | apply State.Canon.mbox | apply State.Canon.recWin | split

theorem State.freeFrame_canon (s : State) (frame : Nat) (hc : s.Canon) : (State.freeFrame s frame).Canon := by
  unfold State.freeFrame
  repeat' with_reducible first
      | assumption | apply appendFreed_canon | (simp only [State.canon_mk]; refine ⟨?_, ?_, ?_⟩) | apply State.Canon.mem | apply State.Canon.mbox
      | apply State.Canon.recWin

theorem State.kvPage_canon (s : State) (o : Op) (writes : Bool) (hc : s.Canon) : (State.kvPage s o writes).Canon := by
  unfold State.kvPage
  repeat' with_reducible first
      | assumption | apply State.holdFor_canon | apply State.engineEnds_canon | apply KvPage.halted_mk | apply KvPage.wait_mk | exact KvPage.bad_mk
      | exact KvPage.ok_mk | dsimp only | split

theorem State.dropFrame_canon (s : State) (frame : Nat) (hc : s.Canon) : (State.dropFrame s frame).Canon := by
  unfold State.dropFrame
  repeat' with_reducible first
      | assumption | intro _ | apply State.writeBack_canon | apply foldl_canon | (simp only [State.canon_mk]; refine ⟨?_, ?_, ?_⟩)
      | apply State.Canon.mem | apply State.Canon.mbox | apply State.Canon.recWin

theorem State.runSeal_canon (s : State) (o : Op) (hc : s.Canon) : (State.runSeal s o).Canon := by
  unfold State.runSeal
  repeat' with_reducible first
      | assumption | apply State.relFor_canon | apply State.homeWrite_canon | apply State.finishOp_canon | apply State.shoot_canon
      | apply State.kvPage_canon | apply State.dropFrame_canon | refine KvPage.wait_canon (by assumption) ?_
      | refine KvPage.halted_canon (by assumption) ?_ | dsimp only | (simp only [State.canon_mk]; refine ⟨?_, ?_, ?_⟩) | apply State.Canon.mem
      | apply State.Canon.mbox | apply State.Canon.recWin | split

theorem State.openPage_canon (s : State) (o : Op) (t : Tlb) (hc : s.Canon) : (State.openPage s o t).Canon := by
  unfold State.openPage
  repeat' with_reducible first
      | assumption | apply State.relFor_canon | apply State.homeWrite_canon | apply State.finishOp_canon | apply State.shoot_canon
      | apply State.dropFrame_canon | (simp only [State.canon_mk]; refine ⟨?_, ?_, ?_⟩) | apply State.Canon.mem | apply State.Canon.mbox
      | apply State.Canon.recWin | dsimp only | split

theorem State.runHdr_canon (s : State) (o : Op) (hc : s.Canon) : (State.runHdr s o).Canon := by
  unfold State.runHdr
  repeat' with_reducible first
      | assumption | apply State.modOp_canon | apply State.finishOp_canon | apply State.kvPage_canon | apply State.openPage_canon
      | refine KvPage.wait_canon (by assumption) ?_ | refine KvPage.halted_canon (by assumption) ?_ | dsimp only | split

theorem movePins_canon (base new span : Nat) (s : State) (hc : s.Canon) : (movePins base new span s).Canon := by
  unfold movePins
  repeat' with_reducible first
      | assumption | (simp only [State.canon_mk]; refine ⟨?_, ?_, ?_⟩) | apply State.Canon.mem | apply State.Canon.mbox | apply State.Canon.recWin

theorem State.unpair_canon (s : State) (asid : Nat) (t : Tlb) (place new : Nat) (hc : s.Canon) : (State.unpair s asid t place new).Canon := by
  unfold State.unpair
  repeat' with_reducible first
      | assumption | apply retireFrames_canon | apply State.homeWrite_canon | apply State.shoot_canon | apply clearRange_wf | apply copyRange_wf
      | apply State.putEntry_canon | apply State.acquireAll_canon | apply moveMarks_canon | apply releaseWaiting_canon | apply State.freeFrame_canon
      | apply movePins_canon | dsimp only | (simp only [State.canon_mk]; refine ⟨?_, ?_, ?_⟩) | apply State.Canon.mem | apply State.Canon.mbox
      | apply State.Canon.recWin | split

theorem execKvhdrRefill_canon (id : Nat) (s : State) (hc : s.Canon) : OutCanon (execKvhdrRefill id s) := by
  unfold execKvhdrRefill
  repeat' with_reducible first
      | assumption | apply State.modOp_canon | apply State.migBegin_canon | apply State.unpair_canon | apply OutCanon.next | dsimp only
      | (simp only [State.canon_mk]; refine ⟨?_, ?_, ?_⟩) | apply State.Canon.mem | apply State.Canon.mbox | apply State.Canon.recWin | split

theorem State.kvldRead_canon (s : State) (o : Op) (hc : s.Canon) : (State.kvldRead s o).Canon := by
  unfold State.kvldRead
  repeat' with_reducible first
      | assumption | apply State.engineEnds_canon | apply State.modOp_canon | apply State.finishOp_canon | apply State.putBuf_canon
      | apply State.kvPage_canon | refine KvPage.wait_canon (by assumption) ?_ | refine KvPage.halted_canon (by assumption) ?_ | dsimp only
      | (simp only [State.canon_mk]; refine ⟨?_, ?_, ?_⟩) | apply State.Canon.mem | apply State.Canon.mbox | apply State.Canon.recWin | split

theorem kvldWindow_canon (o : Op) (a0 : Nat) (a1 : Nat) (a2 : Nat) (a3 : Bytes) (a4 : State) (hc : a4.Canon) : (kvldWindow o a0 a1 a2 a3 a4).1.Canon
    := by
  induction a0 generalizing a1 a2 a3 a4 o with
  | zero =>
    unfold kvldWindow
    repeat' with_reducible first
        | assumption | apply State.failOp_canon | apply State.putWindow_canon | refine Put.ok_canon (by assumption) ?_ | apply Put.ok_mk
  | succ n ih =>
    unfold kvldWindow
    repeat' with_reducible first
        | assumption | apply ih | apply State.failOp_canon | apply State.putWindow_canon | refine Put.ok_canon (by assumption) ?_ | apply Put.ok_mk
        | split

theorem State.kvldDone_canon (s : State) (o : Op) (core landed all : Nat) (hc : s.Canon) : (State.kvldDone s o core landed all).Canon := by
  unfold State.kvldDone
  repeat' with_reducible first
      | assumption | apply State.modOp_canon | apply State.putToken_canon | apply countBytes_canon | apply State.count_canon | split

theorem State.kvldAccept_canon (s : State) (o : Op) (bs : Bytes) (hc : s.Canon) : (State.kvldAccept s o bs).Canon := by
  unfold State.kvldAccept
  repeat' with_reducible first
      | assumption | apply kvldWindow_canon | apply State.kvldDone_canon | refine Put.ok_fst (by assumption) ?_
      | refine Put.wait_fst (by assumption) ?_ | refine Put.halted_fst (by assumption) ?_ | dsimp only
      | (simp only [State.canon_mk]; refine ⟨?_, ?_, ?_⟩) | apply putBytes_wf | apply State.Canon.mem | apply State.Canon.mbox
      | apply State.Canon.recWin | split

theorem State.kvldLand_canon (s : State) (o : Op) (hc : s.Canon) : (State.kvldLand s o).Canon := by
  unfold State.kvldLand
  repeat' with_reducible first
      | assumption | apply State.modOp_canon | apply State.finishOp_canon | apply State.kvPage_canon | apply State.kvldAccept_canon
      | refine KvPage.wait_canon (by assumption) ?_ | refine KvPage.halted_canon (by assumption) ?_ | split

theorem execKvldRetry_canon (id : Nat) (s : State) (hc : s.Canon) : OutCanon (execKvldRetry id s) := by
  fun_cases execKvldRetry id s
  all_goals first
    | exact hc
    | exact State.kvldRead_canon _ _ hc
    | exact KvPage.halted_canon (by assumption) (State.kvPage_canon _ _ _ hc)

theorem execKvConversion_canon (frame half : Nat) (s : State) (hc : s.Canon) : OutCanon (execKvConversion frame half s) := by
  unfold execKvConversion
  repeat' with_reducible first
      | assumption | apply State.homeWrite_canon | apply OutCanon.next | dsimp only | (simp only [State.canon_mk]; refine ⟨?_, ?_, ?_⟩)
      | apply State.Canon.mem | apply State.Canon.mbox | apply State.Canon.recWin | split

theorem State.pairEnd_canon (s : State) (asid : Nat) (p q : Tlb) (place : Nat) (hc : s.Canon) : (State.pairEnd s asid p q place).Canon := by
  unfold State.pairEnd
  repeat' with_reducible first
      | assumption | apply retireFrames_canon | apply State.homeWrite_canon | apply State.shoot_canon | apply copyRange_wf
      | apply State.putEntry_canon | apply State.acquireAll_canon | apply moveMarks_canon | apply releaseWaiting_canon | apply State.freeFrame_canon
      | apply State.dropFrame_canon | apply movePins_canon | (simp only [State.canon_mk]; refine ⟨?_, ?_, ?_⟩) | apply State.Canon.mem
      | apply State.Canon.mbox | apply State.Canon.recWin | dsimp only

theorem State.pairDrop_canon (s : State) (asid : Nat) (q : Tlb) (place : Nat) (hc : s.Canon) : (State.pairDrop s asid q place).Canon := by
  unfold State.pairDrop
  repeat' with_reducible first
      | assumption | apply State.shoot_canon | apply State.putEntry_canon | apply releaseWaiting_canon
      | (simp only [State.canon_mk]; refine ⟨?_, ?_, ?_⟩) | apply State.Canon.mem | apply State.Canon.mbox | apply State.Canon.recWin

theorem execKvPairing_canon (asid vp vq : Nat) (s : State) (hc : s.Canon) : OutCanon (execKvPairing asid vp vq s) := by
  unfold execKvPairing
  repeat' with_reducible first
      | assumption | apply State.migBegin_canon | apply State.pairEnd_canon | apply State.pairDrop_canon | apply OutCanon.next | split

/-! ## RetireEvents -/

theorem State.dropHeld_canon (s : State) (team : Nat) (hc : s.Canon) : (State.dropHeld s team).Canon := by
  unfold State.dropHeld
  repeat' with_reducible first
      | assumption | intro _ | apply State.finishOp_canon | apply foldl_canon

theorem State.freeTeam_canon (s : State) (t : Team) (hc : s.Canon) : (State.freeTeam s t).Canon := by
  unfold State.freeTeam
  repeat' with_reducible first
      | assumption | apply State.wantPlacement_canon | apply State.leaveCore_canon | apply State.stopAnswered_canon
      | (simp only [State.canon_mk]; refine ⟨?_, ?_, ?_⟩) | apply State.Canon.mem | apply State.Canon.mbox | apply State.Canon.recWin

theorem execTeamRetire_canon (team : Nat) (s : State) (hc : s.Canon) : OutCanon (execTeamRetire team s) := by
  unfold execTeamRetire
  repeat' with_reducible first
      | assumption | apply State.dropHeld_canon | apply State.freeTeam_canon | apply OutCanon.next | dsimp only | split

theorem State.completeLaunch_canon (s : State) (l : Launch) (hc : s.Canon) : (State.completeLaunch s l).Canon := by
  unfold State.completeLaunch
  repeat' with_reducible first
      | assumption | apply State.modLaunch_canon | apply State.sendUpdate_canon | apply State.releaseAll_canon | apply State.tellToken_canon | split

theorem State.endLease_canon (s : State) (l : Launch) (hc : s.Canon) : (State.endLease s l).Canon := by
  unfold State.endLease
  repeat' with_reducible first
      | assumption | apply State.dropLaunch_canon | apply State.releasePins_canon | apply State.wantPlacement_canon | apply retireFrames_canon
      | (simp only [State.canon_mk]; refine ⟨?_, ?_, ?_⟩) | apply State.Canon.mem | apply State.Canon.mbox | apply State.Canon.recWin | dsimp only

theorem execLaunchRetire_canon (l : Nat) (s : State) (hc : s.Canon) : OutCanon (execLaunchRetire l s) := by
  unfold execLaunchRetire
  repeat' with_reducible first
      | assumption | apply State.completeLaunch_canon | apply State.endLease_canon | apply OutCanon.next | split

theorem State.dropSeals_canon (s : State) (asid : Nat) (hc : s.Canon) : (State.dropSeals s asid).Canon := by
  unfold State.dropSeals
  repeat' with_reducible first
      | assumption | (simp only [State.canon_mk]; refine ⟨?_, ?_, ?_⟩) | apply State.Canon.mem | apply State.Canon.mbox | apply State.Canon.recWin
      | dsimp only

theorem endLeases_canon (a0 : List Launch) (a1 : State) (hc : a1.Canon) : (endLeases a0 a1).Canon := by
  induction a0 generalizing a1 with
  | nil =>
    unfold endLeases
    repeat' with_reducible first
        | assumption | apply State.endLease_canon
  | cons x l ih =>
    unfold endLeases
    repeat' with_reducible first
        | assumption | apply ih | apply State.endLease_canon

theorem execTeardownRelease_canon (asid : Nat) (s : State) (hc : s.Canon) : OutCanon (execTeardownRelease asid s) := by
  unfold execTeardownRelease
  repeat' with_reducible first
      | assumption | apply endLeases_canon | apply State.post_canon | apply State.answer_canon | apply answerAll_canon | apply retireFrames_canon
      | apply State.dropSeals_canon | apply OutCanon.next | dsimp only | (simp only [State.canon_mk]; refine ⟨?_, ?_, ?_⟩) | apply State.Canon.mem
      | apply State.Canon.mbox | apply State.Canon.recWin | split

/-! ## AnswerEvents -/

theorem State.failPart_canon (s : State) (o : Op) (p : Part) (c : BitVec 8) (hc : s.Canon) : (State.failPart s o p c).Canon := by
  unfold State.failPart
  repeat' with_reducible first
      | assumption | apply State.finishPart_canon | apply State.opEnds_canon | apply State.endTile_canon | dsimp only
      | (simp only [State.canon_mk]; refine ⟨?_, ?_, ?_⟩) | apply State.Canon.mem | apply State.Canon.mbox | apply State.Canon.recWin | split

theorem State.failCommand_canon (s : State) (o : Op) (c : BitVec 8) (hc : s.Canon) : (State.failCommand s o c).Canon := by
  unfold State.failCommand
  repeat' with_reducible first
      | assumption | apply State.opEnds_canon | apply State.engineEnds_canon | apply State.failOp_canon | apply State.failPod_canon | dsimp only
      | (simp only [State.canon_mk]; refine ⟨?_, ?_, ?_⟩) | apply State.Canon.mem | apply State.Canon.mbox | apply State.Canon.recWin | split

theorem State.gotRead_canon (s : State) (u key : Nat) (data : Option Bytes) (cause : BitVec 8) (hc : s.Canon) : (State.gotRead s u key data cause).Canon := by
  unfold State.gotRead
  repeat' with_reducible first
      | assumption | apply State.wantPlacement_canon | dsimp only | (simp only [State.canon_mk]; refine ⟨?_, ?_, ?_⟩) | apply State.Canon.mem
      | apply State.Canon.mbox | apply State.Canon.recWin | split

theorem State.reqFails_canon (s : State) (r : Req) (c : BitVec 8) (hc : s.Canon) : (State.reqFails s r c).Canon := by
  unfold State.reqFails
  repeat' with_reducible first
      | assumption | apply State.gotRead_canon | apply State.answered_canon | apply State.finishOp_canon | apply State.opEnds_canon
      | apply State.failPod_canon | apply State.exportEnds_canon | apply State.failPart_canon | apply State.failCommand_canon | dsimp only
      | (simp only [State.canon_mk]; refine ⟨?_, ?_, ?_⟩) | apply State.Canon.mem | apply State.Canon.mbox | apply State.Canon.recWin | split

theorem execRetransmitTimeout_canon (txid : Nat) (s : State) (hc : s.Canon) : OutCanon (execRetransmitTimeout txid s) := by
  unfold execRetransmitTimeout
  repeat' with_reducible first
      | assumption | apply State.count_canon | apply State.sendReq_canon | apply State.injectCopies_canon | apply State.reqFails_canon
      | apply OutCanon.next | dsimp only | (simp only [State.canon_mk]; refine ⟨?_, ?_, ?_⟩) | apply State.Canon.mem | apply State.Canon.mbox
      | apply State.Canon.recWin | split

theorem onAnswer_canon {s : State} {ty : Nat} {f : Req → Packet → State → State} (hf : ∀ r p s, s.Canon → (f r p s).Canon) (h : s.Canon) :
    OutCanon (onAnswer s ty f) := by
  unfold onAnswer
  repeat' with_reducible first | assumption | apply onPacket_canon | intro _ | apply hf | apply State.learnEpoch_canon | dsimp only | split

theorem State.givePart_canon (s : State) (op lane : Nat) (bs : Bytes) (hc : s.Canon) : (State.givePart s op lane bs).Canon := by
  unfold State.givePart
  repeat' with_reducible first
      | assumption | apply State.modPart_canon | apply State.acquire_canon | apply State.finishPart_canon | split

theorem State.giveTile_canon (s : State) (op lane off : Nat) (bs : Bytes) (hc : s.Canon) : (State.giveTile s op lane off bs).Canon := by
  unfold State.giveTile
  repeat' with_reducible first
      | assumption | apply State.ldtEnd_canon | apply State.ldtFirst_canon | apply State.sttTake_canon
      | (simp only [State.canon_mk]; refine ⟨?_, ?_, ?_⟩) | apply putBytes_wf | apply State.Canon.mem | apply State.Canon.mbox
      | apply State.Canon.recWin | split

theorem execKaricRdrsp_canon (s : State) (hc : s.Canon) : OutCanon (execKaricRdrsp s) := by
  unfold execKaricRdrsp
  repeat' with_reducible first
      | assumption | apply State.gotRead_canon | intro _ | apply State.answered_canon | apply State.putBuf_canon | apply onAnswer_canon
      | apply State.givePart_canon | apply State.giveTile_canon | (simp only [State.canon_mk]; refine ⟨?_, ?_, ?_⟩) | apply State.Canon.mem
      | apply State.Canon.mbox | apply State.Canon.recWin | split

theorem State.sttDone_canon (s : State) (op lane : Nat) (hc : s.Canon) : (State.sttDone s op lane).Canon := by
  unfold State.sttDone
  repeat' with_reducible first
      | assumption | apply State.acquire_canon | apply State.endTile_canon | split

theorem execKaricWrack_canon (s : State) (hc : s.Canon) : OutCanon (execKaricWrack s) := by
  unfold execKaricWrack
  repeat' with_reducible first
      | assumption | intro _ | apply State.answered_canon | apply State.finishOp_canon | apply State.finishPart_canon | apply onAnswer_canon
      | apply State.sttDone_canon | split

theorem execKaricAtrsp_canon (s : State) (hc : s.Canon) : OutCanon (execKaricAtrsp s) := by
  unfold execKaricAtrsp
  repeat' with_reducible first
      | assumption | intro _ | apply State.modPart_canon | apply State.answered_canon | apply State.putBuf_canon | apply onAnswer_canon
      | apply State.givePart_canon | split

theorem execKaricChack_canon (s : State) (hc : s.Canon) : OutCanon (execKaricChack s) := by
  unfold execKaricChack
  repeat' with_reducible first
      | assumption | intro _ | apply State.modOp_canon | apply State.answered_canon | apply State.mcReply_canon | apply onAnswer_canon | dsimp only
      | split

theorem renumber_canon (dev : Nat) (epoch : Word) (a0 : Nat) (a1 : List Req) (a2 : State) (hc : a2.Canon) : (renumber dev epoch a0 a1 a2).2.Canon :=
    by
  induction a1 generalizing a0 a2 dev epoch with
  | nil =>
    unfold renumber
    repeat' with_reducible first
        | assumption | apply State.count_canon | apply State.sendReq_canon | dsimp only | (simp only [State.canon_mk]; refine ⟨?_, ?_, ?_⟩)
        | apply State.Canon.mem | apply State.Canon.mbox | apply State.Canon.recWin | split
  | cons x l ih =>
    unfold renumber
    repeat' with_reducible first
        | assumption | apply State.count_canon | apply ih | apply State.sendReq_canon | (simp only [State.canon_mk]; refine ⟨?_, ?_, ?_⟩)
        | apply State.Canon.mem | apply State.Canon.mbox | apply State.Canon.recWin | dsimp only | split

theorem State.retry_canon (s : State) (r : Req) (p : Packet) (hc : s.Canon) : (State.retry s r p).Canon := by
  unfold State.retry
  repeat' with_reducible first
      | assumption | apply renumber_canon | (simp only [State.canon_mk]; refine ⟨?_, ?_, ?_⟩) | apply State.Canon.mem | apply State.Canon.mbox
      | apply State.Canon.recWin | split

theorem failAll_canon (c : BitVec 8) (a0 : List Req) (a1 : State) (hc : a1.Canon) : (failAll c a0 a1).Canon := by
  induction a0 generalizing a1 c with
  | nil =>
    unfold failAll
    repeat' with_reducible first
        | assumption
  | cons x l ih =>
    unfold failAll
    repeat' with_reducible first
        | assumption | apply ih | apply State.reqFails_canon

theorem State.destReset_canon (s : State) (r : Req) (p : Packet) (hc : s.Canon) : (State.destReset s r p).Canon := by
  unfold State.destReset
  repeat' with_reducible first
      | assumption | apply failAll_canon | (simp only [State.canon_mk]; refine ⟨?_, ?_, ?_⟩) | apply State.Canon.mem | apply State.Canon.mbox
      | apply State.Canon.recWin

theorem State.gatherNack_canon (s : State) (p : Packet) (hc : s.Canon) : (State.gatherNack s p).Canon := by
  unfold State.gatherNack
  repeat' with_reducible first
      | assumption | apply State.failCommand_canon | split

theorem execKaricNack_canon (s : State) (hc : s.Canon) : OutCanon (execKaricNack s) := by
  unfold execKaricNack
  repeat' with_reducible first
      | assumption | intro _ | apply onPacket_canon | apply State.learnEpoch_canon | apply State.reqFails_canon | apply State.retry_canon
      | apply State.destReset_canon | apply State.gatherNack_canon | dsimp only | split

theorem State.takeChunk_canon (s : State) (p : Packet) (hc : s.Canon) : (State.takeChunk s p).Canon := by
  unfold State.takeChunk
  repeat' with_reducible first
      | assumption | intro _ | apply State.homeWrite_canon | apply State.answerKept_canon | apply State.admitted_canon | apply State.rowNear_canon
      | apply State.rowLanded_canon | split

theorem State.takeSource_canon (s : State) (r : Req) (p : Packet) (hc : s.Canon) : (State.takeSource s r p).Canon := by
  unfold State.takeSource
  repeat' with_reducible first
      | assumption | apply State.answered_canon | apply State.putBuf_canon | apply State.logError_canon | dsimp only | split

theorem State.arriveChunk_canon (s : State) (p : Packet) (hc : s.Canon) : (State.arriveChunk s p).Canon := by
  unfold State.arriveChunk
  repeat' with_reducible first
      | assumption | apply State.egress_canon | apply State.answerAgain_canon | apply State.takeColl_canon | apply State.takeGather_canon
      | apply State.takeChunk_canon | apply State.takeSource_canon | dsimp only | split

theorem execKaricChunk_canon (s : State) (hc : s.Canon) : OutCanon (execKaricChunk s) := by
  unfold execKaricChunk
  repeat' with_reducible first
      | assumption | intro _ | apply onPacket_canon | apply State.takeMc_canon | apply State.arriveChunk_canon | split

theorem execKaricDisp_canon (s : State) (hc : s.Canon) : OutCanon (execKaricDisp s) := by
  unfold execKaricDisp
  repeat' with_reducible first
      | assumption | intro _ | apply State.modOp_canon | apply onPacket_canon | apply State.answerKept_canon | apply State.answerAgain_canon
      | dsimp only | (simp only [State.canon_mk]; refine ⟨?_, ?_, ?_⟩) | apply State.Canon.mem | apply State.Canon.mbox | apply State.Canon.recWin
      | split

theorem State.keepDesc_canon (s : State) (p : Packet) (kind : Nat) (hc : s.Canon) : (State.keepDesc s p kind).Canon := by
  unfold State.keepDesc
  repeat' with_reducible first
      | assumption | dsimp only | (simp only [State.canon_mk]; refine ⟨?_, ?_, ?_⟩) | apply State.Canon.mem | apply State.Canon.mbox
      | apply State.Canon.recWin | split

theorem execMgmtCdesc_canon (s : State) (hc : s.Canon) : OutCanon (execMgmtCdesc s) := by
  unfold execMgmtCdesc
  repeat' with_reducible first
      | assumption | intro _ | apply onPacket_canon | apply State.keepDesc_canon

theorem execMgmtDdesc_canon (s : State) (hc : s.Canon) : OutCanon (execMgmtDdesc s) := by
  unfold execMgmtDdesc
  repeat' with_reducible first
      | assumption | intro _ | apply onPacket_canon | apply State.keepDesc_canon

theorem execMgmtCancel_canon (s : State) (hc : s.Canon) : OutCanon (execMgmtCancel s) := by
  unfold execMgmtCancel
  repeat' with_reducible first
      | assumption | intro _ | apply State.finishOp_canon | apply onPacket_canon | dsimp only | (simp only [State.canon_mk]; refine ⟨?_, ?_, ?_⟩)
      | apply State.Canon.mem | apply State.Canon.mbox | apply State.Canon.recWin | split

theorem execMgmtUnpin_canon (s : State) (hc : s.Canon) : OutCanon (execMgmtUnpin s) := by
  unfold execMgmtUnpin
  repeat' with_reducible first
      | assumption | intro _ | apply onPacket_canon | apply retireFrames_canon | (simp only [State.canon_mk]; refine ⟨?_, ?_, ?_⟩)
      | apply State.Canon.mem | apply State.Canon.mbox | apply State.Canon.recWin

/-! ## Control -/

theorem execNop_canon (st : Bool) (s : State) (hc : s.Canon) : OutCanon (execNop st s) := by
  unfold execNop
  repeat' with_reducible first
      | assumption | intro _ | apply State.commit_canon | apply runWord_canon

theorem execTrap_canon (st : Bool) (c : BitVec 16) (s : State) (hc : s.Canon) : OutCanon (execTrap st c s) := by
  unfold execTrap
  repeat' with_reducible first
      | assumption | intro _ | apply State.commit_canon | apply runWord_canon

theorem branchWord_canon (s : State) (op : Nat) (st : Bool) (o : BitVec 23) (cond : Issue → Thread → Bool) (hc : s.Canon) : OutCanon (branchWord s
    op st o cond) := by
  unfold branchWord
  repeat' with_reducible first
      | assumption | intro _ | apply State.commit_canon | apply runWord_canon

theorem execBra_canon (st : Bool) (o : BitVec 23) (s : State) (hc : s.Canon) : OutCanon (execBra st o s) := by
  unfold execBra
  repeat' with_reducible first
      | assumption | apply branchWord_canon

theorem execBraQ0_canon (st : Bool) (o : BitVec 23) (s : State) (hc : s.Canon) : OutCanon (execBraQ0 st o s) := by
  unfold execBraQ0
  repeat' with_reducible first
      | assumption | apply branchWord_canon

theorem execBraNotQ0_canon (st : Bool) (o : BitVec 23) (s : State) (hc : s.Canon) : OutCanon (execBraNotQ0 st o s) := by
  unfold execBraNotQ0
  repeat' with_reducible first
      | assumption | apply branchWord_canon

theorem execBraQ1_canon (st : Bool) (o : BitVec 23) (s : State) (hc : s.Canon) : OutCanon (execBraQ1 st o s) := by
  unfold execBraQ1
  repeat' with_reducible first
      | assumption | apply branchWord_canon

theorem execBraNotQ1_canon (st : Bool) (o : BitVec 23) (s : State) (hc : s.Canon) : OutCanon (execBraNotQ1 st o s) := by
  unfold execBraNotQ1
  repeat' with_reducible first
      | assumption | apply branchWord_canon

theorem execBraQ2_canon (st : Bool) (o : BitVec 23) (s : State) (hc : s.Canon) : OutCanon (execBraQ2 st o s) := by
  unfold execBraQ2
  repeat' with_reducible first
      | assumption | apply branchWord_canon

theorem execBraNotQ2_canon (st : Bool) (o : BitVec 23) (s : State) (hc : s.Canon) : OutCanon (execBraNotQ2 st o s) := by
  unfold execBraNotQ2
  repeat' with_reducible first
      | assumption | apply branchWord_canon

theorem execBraQ3_canon (st : Bool) (o : BitVec 23) (s : State) (hc : s.Canon) : OutCanon (execBraQ3 st o s) := by
  unfold execBraQ3
  repeat' with_reducible first
      | assumption | apply branchWord_canon

theorem execBraNotQ3_canon (st : Bool) (o : BitVec 23) (s : State) (hc : s.Canon) : OutCanon (execBraNotQ3 st o s) := by
  unfold execBraNotQ3
  repeat' with_reducible first
      | assumption | apply branchWord_canon

theorem execBraP0_canon (st : Bool) (o : BitVec 23) (s : State) (hc : s.Canon) : OutCanon (execBraP0 st o s) := by
  unfold execBraP0
  repeat' with_reducible first
      | assumption | apply branchWord_canon

theorem execBraNotP0_canon (st : Bool) (o : BitVec 23) (s : State) (hc : s.Canon) : OutCanon (execBraNotP0 st o s) := by
  unfold execBraNotP0
  repeat' with_reducible first
      | assumption | apply branchWord_canon

theorem execBraP1_canon (st : Bool) (o : BitVec 23) (s : State) (hc : s.Canon) : OutCanon (execBraP1 st o s) := by
  unfold execBraP1
  repeat' with_reducible first
      | assumption | apply branchWord_canon

theorem execCall_canon (st : Bool) (o : BitVec 23) (s : State) (hc : s.Canon) : OutCanon (execCall st o s) := by
  unfold execCall
  repeat' with_reducible first
      | assumption | intro _ | apply State.commit_canon | apply runWord_canon

theorem execRet_canon (st : Bool) (s : State) (hc : s.Canon) : OutCanon (execRet st s) := by
  unfold execRet
  repeat' with_reducible first
      | assumption | intro _ | apply State.commit_canon | apply runWord_canon

theorem execLoop_canon (st : Bool) (a : BitVec 7) (i : BitVec 9) (s : State) (hc : s.Canon) : OutCanon (execLoop st a i s) := by
  unfold execLoop
  repeat' with_reducible first
      | assumption | intro _ | apply State.commit_canon | apply runWord_canon

theorem execBrk_canon (st : Bool) (g : BitVec 2) (s : State) (hc : s.Canon) : OutCanon (execBrk st g s) := by
  unfold execBrk
  repeat' with_reducible first
      | assumption | intro _ | apply State.commit_canon | apply runWord_canon

theorem execBrx_canon (st : Bool) (a : BitVec 7) (g : BitVec 2) (s : State) (hc : s.Canon) : OutCanon (execBrx st a g s) := by
  unfold execBrx
  repeat' with_reducible first
      | assumption | intro _ | apply State.commit_canon | apply State.illegal_canon | apply runWord_canon | split

theorem execRcv_canon (st : Bool) (s : State) (hc : s.Canon) : OutCanon (execRcv st s) := by
  unfold execRcv
  repeat' with_reducible first
      | assumption | intro _ | apply State.commit_canon | apply runWord_canon

theorem execYield_canon (st : Bool) (s : State) (hc : s.Canon) : OutCanon (execYield st s) := by
  unfold execYield
  repeat' with_reducible first
      | assumption | intro _ | apply State.modGroup_canon | apply State.commit_canon | apply runWord_canon

theorem execExit_canon (st : Bool) (g : BitVec 2) (s : State) (hc : s.Canon) : OutCanon (execExit st g s) := by
  unfold execExit
  repeat' with_reducible first
      | assumption | intro _ | apply State.commit_canon | apply runWord_canon

/-! ## Convert -/

theorem execCvt_canon (st : Bool) (d a : BitVec 7) (e f : BitVec 4) (s : State) (hc : s.Canon) : OutCanon (execCvt st d a e f s) := by
  unfold execCvt
  repeat' with_reducible first
      | assumption | intro _ | apply runWord_canon | apply longWord_canon

theorem execPack_canon (st : Bool) (d a : BitVec 7) (f : BitVec 4) (n : BitVec 5) (s : State) (hc : s.Canon) : OutCanon (execPack st d a f n s) := by
  unfold execPack
  repeat' with_reducible first
      | assumption | intro _ | apply runWord_canon | apply longWord_canon

theorem execUnpk_canon (st : Bool) (d a : BitVec 7) (f : BitVec 4) (n : BitVec 5) (s : State) (hc : s.Canon) : OutCanon (execUnpk st d a f n s) := by
  unfold execUnpk
  repeat' with_reducible first
      | assumption | intro _ | apply runWord_canon | apply longWord_canon

theorem execQnt_canon (st : Bool) (d a : BitVec 7) (f : BitVec 4) (b : BitVec 2) (s : State) (hc : s.Canon) : OutCanon (execQnt st d a f b s) := by
  unfold execQnt
  repeat' with_reducible first
      | assumption | intro _ | apply runWord_canon | apply longWord_canon

theorem dqntExec_canon (s : State) (op : Nat) (st : Bool) (f : Nat) (d a b : BitVec 7) (c : BitVec 2) (hc : s.Canon) : OutCanon (dqntExec s op st f
    d a b c) := by
  unfold dqntExec
  repeat' with_reducible first
      | assumption | intro _ | apply State.bump_canon | apply runWord_canon | apply vectorWord_canon

theorem execDqntE4m3_canon (st : Bool) (d a b : BitVec 7) (c : BitVec 2) (s : State) (hc : s.Canon) : OutCanon (execDqntE4m3 st d a b c s) := by
  unfold execDqntE4m3
  repeat' with_reducible first
      | assumption | apply dqntExec_canon

theorem execDqntE5m2_canon (st : Bool) (d a b : BitVec 7) (c : BitVec 2) (s : State) (hc : s.Canon) : OutCanon (execDqntE5m2 st d a b c s) := by
  unfold execDqntE5m2
  repeat' with_reducible first
      | assumption | apply dqntExec_canon

theorem execDqntE2m3_canon (st : Bool) (d a b : BitVec 7) (c : BitVec 2) (s : State) (hc : s.Canon) : OutCanon (execDqntE2m3 st d a b c s) := by
  unfold execDqntE2m3
  repeat' with_reducible first
      | assumption | apply dqntExec_canon

theorem execDqntE3m2_canon (st : Bool) (d a b : BitVec 7) (c : BitVec 2) (s : State) (hc : s.Canon) : OutCanon (execDqntE3m2 st d a b c s) := by
  unfold execDqntE3m2
  repeat' with_reducible first
      | assumption | apply dqntExec_canon

theorem execDqntE2m1_canon (st : Bool) (d a b : BitVec 7) (c : BitVec 2) (s : State) (hc : s.Canon) : OutCanon (execDqntE2m1 st d a b c s) := by
  unfold execDqntE2m1
  repeat' with_reducible first
      | assumption | apply dqntExec_canon

theorem execDqntSx4_canon (st : Bool) (d a b : BitVec 7) (c : BitVec 2) (s : State) (hc : s.Canon) : OutCanon (execDqntSx4 st d a b c s) := by
  unfold execDqntSx4
  repeat' with_reducible first
      | assumption | apply dqntExec_canon

theorem execDqntI8_canon (st : Bool) (d a b : BitVec 7) (c : BitVec 2) (s : State) (hc : s.Canon) : OutCanon (execDqntI8 st d a b c s) := by
  unfold execDqntI8
  repeat' with_reducible first
      | assumption | apply dqntExec_canon

/-! ## Crossbar -/

theorem crossWord_canon (s : State) (x : Issue) (guard a d : Nat) (own : List Nat) (sources : List Nat) (f : Nat → Word × FFlags) (hc : s.Canon) :
    (crossWord s x guard a d own sources f).Canon := by
  unfold crossWord
  repeat' with_reducible first
      | assumption | apply State.commit_canon | apply longWord_canon | split

theorem execXpat_canon (st : Bool) (d a : BitVec 7) (n : BitVec 4) (s : State) (hc : s.Canon) : OutCanon (execXpat st d a n s) := by
  unfold execXpat
  repeat' with_reducible first
      | assumption | intro _ | apply runWord_canon | apply crossWord_canon

theorem execXperm_canon (st : Bool) (d a b : BitVec 7) (g : BitVec 2) (s : State) (hc : s.Canon) : OutCanon (execXperm st d a b g s) := by
  unfold execXperm
  repeat' with_reducible first
      | assumption | intro _ | apply runWord_canon | apply crossWord_canon

theorem execShfl_canon (st : Bool) (d a : BitVec 7) (m : BitVec 2) (n : BitVec 5) (s : State) (hc : s.Canon) : OutCanon (execShfl st d a m n s) := by
  unfold execShfl
  repeat' with_reducible first
      | assumption | intro _ | apply runWord_canon | apply crossWord_canon

theorem execScan_canon (st : Bool) (d a : BitVec 7) (o f : BitVec 4) (e : BitVec 1) (s : State) (hc : s.Canon) : OutCanon (execScan st d a o f e s)
    := by
  unfold execScan
  repeat' with_reducible first
      | assumption | intro _ | apply runWord_canon | apply crossWord_canon

theorem execRdx_canon (st : Bool) (d a : BitVec 7) (o f : BitVec 4) (s : State) (hc : s.Canon) : OutCanon (execRdx st d a o f s) := by
  unfold execRdx
  repeat' with_reducible first
      | assumption | intro _ | apply runWord_canon | apply crossWord_canon

/-! ## EngineEvents -/

theorem State.skipPod_canon (s : State) (o : Op) (c : BitVec 8) (hc : s.Canon) : (State.skipPod s o c).Canon := by
  unfold State.skipPod
  repeat' with_reducible first
      | assumption | apply State.engineGet_canon | apply State.failPod_canon | apply State.knowPeers_canon | refine Got.wait_canon (by assumption) ?_
      | refine Got.halted_canon (by assumption) ?_ | dsimp only | split

theorem State.skipCommand_canon (s : State) (o : Op) (c : BitVec 8) (hc : s.Canon) : (State.skipCommand s o c).Canon := by
  unfold State.skipCommand
  repeat' with_reducible first
      | assumption | apply State.finishOp_canon | apply State.dropLaunch_canon | apply State.skipPod_canon | split

theorem State.runKv_canon (s : State) (o : Op) (hc : s.Canon) : (State.runKv s o).Canon := by
  unfold State.runKv
  repeat' with_reducible first
      | assumption | apply State.runSeal_canon | apply State.runHdr_canon | apply State.kvldRead_canon | split

theorem State.beginCommand_canon (s : State) (o : Op) (hc : s.Canon) : (State.beginCommand s o).Canon := by
  unfold State.beginCommand
  repeat' with_reducible first
      | assumption | apply State.leaveQueue_canon | apply State.markStarted_canon | apply State.acqFor_canon | apply State.runKv_canon | split

theorem State.startCommand_canon (s : State) (o : Op) (hc : s.Canon) : (State.startCommand s o).Canon := by
  unfold State.startCommand
  repeat' with_reducible first
      | assumption | apply State.startCopy_canon | apply State.startLaunch_canon | apply State.skipCommand_canon | apply State.beginCommand_canon
      | split

theorem execEngineCommandStart_canon (op : Nat) (s : State) (hc : s.Canon) : OutCanon (execEngineCommandStart op s) := by
  unfold execEngineCommandStart
  repeat' with_reducible first
      | assumption | apply State.runKv_canon | apply State.startCommand_canon | apply OutCanon.next | split

theorem execChunkLand_canon (op i : Nat) (s : State) (hc : s.Canon) : OutCanon (execChunkLand op i s) := by
  unfold execChunkLand
  repeat' with_reducible first
      | assumption | apply State.landCopy_canon | apply State.landColl_canon | apply State.landMcst_canon | apply State.kvldLand_canon
      | apply OutCanon.next | split

theorem State.finishKvld_canon (s : State) (o : Op) (hc : s.Canon) : (State.finishKvld s o).Canon := by
  unfold State.finishKvld
  repeat' with_reducible first
      | assumption | apply State.finishOp_canon | apply State.relFor_canon | split

theorem execCopyFinish_canon (op : Nat) (s : State) (hc : s.Canon) : OutCanon (execCopyFinish op s) := by
  unfold execCopyFinish
  repeat' with_reducible first
      | assumption | apply State.finishCopy_canon | apply State.finishKvld_canon | apply OutCanon.next | split

theorem execReductionStep_canon (op slot : Nat) (s : State) (hc : s.Canon) : OutCanon (execReductionStep op slot s) := by
  unfold execReductionStep
  repeat' with_reducible first
      | assumption | apply State.reduce_canon | apply OutCanon.next | split

theorem execCombineStep_canon (op i : Nat) (s : State) (hc : s.Canon) : OutCanon (execCombineStep op i s) := by
  unfold execCombineStep
  repeat' with_reducible first
      | assumption | apply State.runRtc_canon | apply OutCanon.next | split

theorem execGatherServe_canon (op n : Nat) (s : State) (hc : s.Canon) : OutCanon (execGatherServe op n s) := by
  unfold execGatherServe
  repeat' with_reducible first
      | assumption | apply State.serveGather_canon | apply OutCanon.next | dsimp only | split

theorem execDispatchPlacement_canon (op : Nat) (s : State) (hc : s.Canon) : OutCanon (execDispatchPlacement op s) := by
  unfold execDispatchPlacement
  repeat' with_reducible first
      | assumption | apply State.runRte_canon | apply OutCanon.next | split

theorem execCollectiveFinish_canon (op : Nat) (s : State) (hc : s.Canon) : OutCanon (execCollectiveFinish op s) := by
  unfold execCollectiveFinish
  repeat' with_reducible first
      | assumption | apply State.finishColl_canon | apply State.finishMcst_canon | apply OutCanon.next | split

theorem execDispatchFinish_canon (op : Nat) (s : State) (hc : s.Canon) : OutCanon (execDispatchFinish op s) := by
  unfold execDispatchFinish
  repeat' with_reducible first
      | assumption | apply State.finishRte_canon | apply State.finishRtc_canon | apply OutCanon.next | split

/-! ## ErrorEvents -/

theorem State.loseLine_canon (s : State) (line : Nat) (hc : s.Canon) : (State.loseLine s line).Canon := by
  unfold State.loseLine
  repeat' with_reducible first
      | assumption | apply clearRange_wf | apply retireFrames_canon | (simp only [State.canon_mk]; refine ⟨?_, ?_, ?_⟩) | apply State.Canon.mem
      | apply State.Canon.mbox | apply State.Canon.recWin | dsimp only | split

theorem State.deviceError_canon (s : State) (line kind : Nat) (hc : s.Canon) : (State.deviceError s line kind).Canon := by
  unfold State.deviceError
  repeat' with_reducible first
      | assumption | apply State.post_canon

theorem State.blameLine_canon (s : State) (line tag : Nat) (hc : s.Canon) : (State.blameLine s line tag).Canon := by
  unfold State.blameLine
  repeat' with_reducible first
      | assumption | intro _ | apply State.ringAppend_canon | apply State.stopLaunch_canon | apply State.terminateCtx_canon
      | apply State.deviceError_canon | apply foldl_canon | split

theorem State.quarantine_canon (s : State) (line way : Nat) (hc : s.Canon) : (State.quarantine s line way).Canon := by
  unfold State.quarantine
  repeat' with_reducible first
      | assumption | apply State.logEvent_canon | dsimp only | (simp only [State.canon_mk]; refine ⟨?_, ?_, ?_⟩) | apply State.Canon.mem
      | apply State.Canon.mbox | apply State.Canon.recWin | split

theorem execL2UncorrectableError_canon (line : Nat) (s : State) (hc : s.Canon) : OutCanon (execL2UncorrectableError line s) := by
  unfold execL2UncorrectableError
  repeat' with_reducible first
      | assumption | apply State.loseLine_canon | apply State.blameLine_canon | apply State.quarantine_canon | apply OutCanon.next | split

theorem execCleanLineError_canon (line : Nat) (s : State) (hc : s.Canon) : OutCanon (execCleanLineError line s) := by
  unfold execCleanLineError
  repeat' with_reducible first
      | assumption | apply State.count_canon | apply OutCanon.next | split

theorem execHbmUncorrectableError_canon (line : Nat) (s : State) (hc : s.Canon) : OutCanon (execHbmUncorrectableError line s) := by
  unfold execHbmUncorrectableError
  repeat' with_reducible first
      | assumption | apply State.loseLine_canon | apply State.deviceError_canon | apply OutCanon.next | split

theorem execCorrectedSoftError_canon (unit : Nat) (s : State) (hc : s.Canon) : OutCanon (execCorrectedSoftError unit s) := by
  unfold execCorrectedSoftError
  repeat' with_reducible first
      | assumption | apply State.count_canon | apply OutCanon.next | split

/-! ## Float -/

theorem floatWord3_canon (s : State) (op : Nat) (st : Bool) (d a b : BitVec 7) (g : BitVec 2) (f : Issue → Word → Word → Word → Word × FFlags) (hc :
    s.Canon) : OutCanon (floatWord3 s op st d a b g f) := by
  unfold floatWord3
  repeat' with_reducible first
      | assumption | intro _ | apply runWord_canon | apply longWord_canon

theorem floatWord1_canon (s : State) (op : Nat) (st : Bool) (d a : BitVec 7) (g : BitVec 2) (f : Issue → Word → Word × FFlags) (hc : s.Canon) :
    OutCanon (floatWord1 s op st d a g f) := by
  unfold floatWord1
  repeat' with_reducible first
      | assumption | intro _ | apply runWord_canon | apply longWord_canon

theorem execFadd_canon (st : Bool) (d a b : BitVec 7) (g : BitVec 2) (s : State) (hc : s.Canon) : OutCanon (execFadd st d a b g s) := by
  unfold execFadd
  repeat' with_reducible first
      | assumption | apply floatWord3_canon

theorem execFsub_canon (st : Bool) (d a b : BitVec 7) (g : BitVec 2) (s : State) (hc : s.Canon) : OutCanon (execFsub st d a b g s) := by
  unfold execFsub
  repeat' with_reducible first
      | assumption | apply floatWord3_canon

theorem execFmul_canon (st : Bool) (d a b : BitVec 7) (g : BitVec 2) (s : State) (hc : s.Canon) : OutCanon (execFmul st d a b g s) := by
  unfold execFmul
  repeat' with_reducible first
      | assumption | apply floatWord3_canon

theorem execFfma_canon (st : Bool) (d a b : BitVec 7) (g : BitVec 2) (s : State) (hc : s.Canon) : OutCanon (execFfma st d a b g s) := by
  unfold execFfma
  repeat' with_reducible first
      | assumption | apply floatWord3_canon

theorem execFmin_canon (st : Bool) (d a b : BitVec 7) (g : BitVec 2) (s : State) (hc : s.Canon) : OutCanon (execFmin st d a b g s) := by
  unfold execFmin
  repeat' with_reducible first
      | assumption | apply floatWord3_canon

theorem execFmax_canon (st : Bool) (d a b : BitVec 7) (g : BitVec 2) (s : State) (hc : s.Canon) : OutCanon (execFmax st d a b g s) := by
  unfold execFmax
  repeat' with_reducible first
      | assumption | apply floatWord3_canon

theorem execFcmp_canon (st : Bool) (c : BitVec 4) (p : BitVec 3) (a b : BitVec 7) (g : BitVec 2) (s : State) (hc : s.Canon) : OutCanon (execFcmp st
    c p a b g s) := by
  unfold execFcmp
  repeat' with_reducible first
      | assumption | intro _ | apply State.bump_canon | apply runWord_canon | apply vectorWord_canon

theorem execFrcp_canon (st : Bool) (d a : BitVec 7) (g : BitVec 2) (s : State) (hc : s.Canon) : OutCanon (execFrcp st d a g s) := by
  unfold execFrcp
  repeat' with_reducible first
      | assumption | apply floatWord1_canon

theorem execFrsq_canon (st : Bool) (d a : BitVec 7) (g : BitVec 2) (s : State) (hc : s.Canon) : OutCanon (execFrsq st d a g s) := by
  unfold execFrsq
  repeat' with_reducible first
      | assumption | apply floatWord1_canon

theorem execFex2_canon (st : Bool) (d a : BitVec 7) (g : BitVec 2) (s : State) (hc : s.Canon) : OutCanon (execFex2 st d a g s) := by
  unfold execFex2
  repeat' with_reducible first
      | assumption | apply floatWord1_canon

theorem execFlg2_canon (st : Bool) (d a : BitVec 7) (g : BitVec 2) (s : State) (hc : s.Canon) : OutCanon (execFlg2 st d a g s) := by
  unfold execFlg2
  repeat' with_reducible first
      | assumption | apply floatWord1_canon

theorem execFcls_canon (st : Bool) (d a : BitVec 7) (g : BitVec 2) (s : State) (hc : s.Canon) : OutCanon (execFcls st d a g s) := by
  unfold execFcls
  repeat' with_reducible first
      | assumption | apply floatWord1_canon

theorem execFrnd_canon (st : Bool) (d a : BitVec 7) (g : BitVec 2) (s : State) (hc : s.Canon) : OutCanon (execFrnd st d a g s) := by
  unfold execFrnd
  repeat' with_reducible first
      | assumption | apply floatWord1_canon

theorem execHadd2_canon (st : Bool) (d a b : BitVec 7) (g : BitVec 2) (s : State) (hc : s.Canon) : OutCanon (execHadd2 st d a b g s) := by
  unfold execHadd2
  repeat' with_reducible first
      | assumption | apply floatWord3_canon

theorem execHmul2_canon (st : Bool) (d a b : BitVec 7) (g : BitVec 2) (s : State) (hc : s.Canon) : OutCanon (execHmul2 st d a b g s) := by
  unfold execHmul2
  repeat' with_reducible first
      | assumption | apply floatWord3_canon

theorem execHfma2_canon (st : Bool) (d a b : BitVec 7) (g : BitVec 2) (s : State) (hc : s.Canon) : OutCanon (execHfma2 st d a b g s) := by
  unfold execHfma2
  repeat' with_reducible first
      | assumption | apply floatWord3_canon

theorem execSclx_canon (st : Bool) (d a b : BitVec 7) (g : BitVec 2) (s : State) (hc : s.Canon) : OutCanon (execSclx st d a b g s) := by
  unfold execSclx
  repeat' with_reducible first
      | assumption | apply floatWord3_canon

/-! ## Hint -/

theorem hintWord_canon (s : State) (op : Nat) (codeOk : Bool) (f : Hints → Hints) (hc : s.Canon) : OutCanon (hintWord s op codeOk f) := by
  unfold hintWord
  repeat' with_reducible first
      | assumption | apply State.commit_canon | apply State.illegal_canon | apply OutCanon.next | exact OutCanon.fault | split

theorem execHimm_canon (i : BitVec 23) (s : State) (hc : s.Canon) : OutCanon (execHimm i s) := by
  unfold execHimm
  repeat' with_reducible first
      | assumption | apply hintWord_canon

theorem execHdep_canon (k : BitVec 16) (p : BitVec 2) (b : BitVec 1) (s : State) (hc : s.Canon) : OutCanon (execHdep k p b s) := by
  unfold execHdep
  repeat' with_reducible first
      | assumption | apply hintWord_canon

theorem execHmod_canon (r : BitVec 3) (o : BitVec 1) (c : BitVec 3) (e : BitVec 3) (m : BitVec 2) (g : BitVec 1) (n : BitVec 1) (p : BitVec 3) (s :
    State) (hc : s.Canon) : OutCanon (execHmod r o c e m g n p s) := by
  unfold execHmod
  repeat' with_reducible first
      | assumption | apply hintWord_canon

theorem execHsch_canon (p : BitVec 3) (y : BitVec 1) (s : State) (hc : s.Canon) : OutCanon (execHsch p y s) := by
  unfold execHsch
  repeat' with_reducible first
      | assumption | apply hintWord_canon

/-! ## HostEvents -/

theorem State.dropDoorbell_canon (s : State) (asid slot reason : Nat) (hc : s.Canon) : (State.dropDoorbell s asid slot reason).Canon := by
  unfold State.dropDoorbell
  repeat' with_reducible first
      | assumption | apply State.count_canon | apply State.logEvent_canon

theorem execDoorbell_canon (page off : Nat) (data : Bytes) (s : State) (hc : s.Canon) : OutCanon (execDoorbell page off data s) := by
  unfold execDoorbell
  repeat' with_reducible first
      | assumption | apply State.dropDoorbell_canon | apply OutCanon.next | (simp only [State.canon_mk]; refine ⟨?_, ?_, ?_⟩)
      | apply State.Canon.mem | apply State.Canon.mbox | apply State.Canon.recWin | split

theorem execDoorbellApply_canon (n : Nat) (s : State) (hc : s.Canon) : OutCanon (execDoorbellApply n s) := by
  unfold execDoorbellApply
  repeat' with_reducible first
      | assumption | apply State.count_canon | apply State.applyUpdate_canon | apply State.dropDoorbell_canon | apply OutCanon.next | dsimp only
      | (simp only [State.canon_mk]; refine ⟨?_, ?_, ?_⟩) | apply State.Canon.mem | apply State.Canon.mbox | apply State.Canon.recWin | split

theorem execBar2Write_canon (off : Nat) (data : Bytes) (s : State) (hc : s.Canon) : OutCanon (execBar2Write off data s) := by
  unfold execBar2Write
  repeat' with_reducible first
      | assumption | apply State.homeWrite_canon | apply appendFreed_canon | apply OutCanon.next | dsimp only | split

theorem execBar2Read_canon (off len : Nat) (s : State) (hc : s.Canon) : OutCanon (execBar2Read off len s) := by
  unfold execBar2Read
  repeat' with_reducible first
      | assumption | apply OutCanon.next | dsimp only | (simp only [State.canon_mk]; refine ⟨?_, ?_, ?_⟩) | apply State.Canon.mem
      | apply State.Canon.mbox | apply State.Canon.recWin | split

theorem State.unmask_canon (s : State) (vec : Nat) (hc : s.Canon) : (State.unmask s vec).Canon := by
  unfold State.unmask
  repeat' with_reducible first
      | assumption | apply State.msix_canon | dsimp only | (simp only [State.canon_mk]; refine ⟨?_, ?_, ?_⟩) | apply State.Canon.mem
      | apply State.Canon.mbox | apply State.Canon.recWin | split

theorem execMsixUnmask_canon (vec : Nat) (s : State) (hc : s.Canon) : OutCanon (execMsixUnmask vec s) := by
  unfold execMsixUnmask
  repeat' with_reducible first
      | assumption | apply State.unmask_canon | apply OutCanon.next | split

theorem State.hostGives_canon (s : State) (r : HostRead) (data : Bytes) (hc : s.Canon) : (State.hostGives s r data).Canon := by
  unfold State.hostGives
  repeat' with_reducible first
      | assumption | apply State.gotRead_canon | apply State.putBuf_canon | apply State.givePart_canon
      | (simp only [State.canon_mk]; refine ⟨?_, ?_, ?_⟩) | apply State.Canon.mem | apply State.Canon.mbox | apply State.Canon.recWin | dsimp only
      | split

theorem State.hostFails_canon (s : State) (r : HostRead) (status : Nat) (hc : s.Canon) : (State.hostFails s r status).Canon := by
  unfold State.hostFails
  repeat' with_reducible first
      | assumption | apply State.gotRead_canon | apply State.logEvent_canon | apply State.finishPart_canon | apply State.failOp_canon | dsimp only
      | (simp only [State.canon_mk]; refine ⟨?_, ?_, ?_⟩) | apply State.Canon.mem | apply State.Canon.mbox | apply State.Canon.recWin | split

theorem execHostReadCompletion_canon (rid status : Nat) (data : Bytes) (s : State) (hc : s.Canon) : OutCanon (execHostReadCompletion rid status data
    s) := by
  unfold execHostReadCompletion
  repeat' with_reducible first
      | assumption | apply State.hostGives_canon | apply State.hostFails_canon | apply OutCanon.next
      | (simp only [State.canon_mk]; refine ⟨?_, ?_, ?_⟩) | apply State.Canon.mem | apply State.Canon.mbox | apply State.Canon.recWin | split

theorem execHostReadTimeout_canon (rid : Nat) (s : State) (hc : s.Canon) : OutCanon (execHostReadTimeout rid s) := by
  unfold execHostReadTimeout
  repeat' with_reducible first
      | assumption | apply State.hostFails_canon | apply OutCanon.next | (simp only [State.canon_mk]; refine ⟨?_, ?_, ?_⟩) | apply State.Canon.mem
      | apply State.Canon.mbox | apply State.Canon.recWin | split

theorem State.consume_canon (s : State) (hc : s.Canon) : (State.consume s).Canon := by
  unfold State.consume
  repeat' with_reducible first
      | assumption | apply State.putBox_canon

theorem State.reply_canon (s : State) (q : Bytes) (status : Nat) (payload : Bytes) (hc : s.Canon) : (State.reply s q status payload).Canon := by
  unfold State.reply
  repeat' with_reducible first
      | assumption | apply State.post_canon

theorem answerUnknown_canon (a0 : Nat) (a1 : State) (hc : a1.Canon) : (answerUnknown a0 a1).Canon := by
  induction a0 generalizing a1 with
  | zero =>
    unfold answerUnknown
    repeat' with_reducible first
        | assumption
  | succ n ih =>
    unfold answerUnknown
    repeat' with_reducible first
        | assumption | apply ih | apply State.consume_canon | apply State.reply_canon | dsimp only | split

theorem State.hostByte_canon (s : State) (a : Nat) (b : Byte) (hc : s.Canon) : (State.hostByte s a b).Canon := by
  unfold State.hostByte
  repeat' with_reducible first
      | assumption | apply State.unmask_canon | (simp only [State.canon_mk]; refine ⟨?_, ?_, ?_⟩) | apply memPut_wf | apply State.Canon.mem
      | apply State.Canon.mbox | apply State.Canon.recWin | split

theorem State.readBar0_canon (s : State) (off n : Nat) (hc : s.Canon) : (State.readBar0 s off n).Canon := by
  unfold State.readBar0
  repeat' with_reducible first
      | assumption | (simp only [State.canon_mk]; refine ⟨?_, ?_, ?_⟩) | apply State.Canon.mem | apply State.Canon.mbox | apply State.Canon.recWin
      | split

theorem State.sizeBar2_canon (s : State) (bits : Nat) (hc : s.Canon) : (State.sizeBar2 s bits).Canon := by
  unfold State.sizeBar2
  repeat' with_reducible first
      | assumption | (simp only [State.canon_mk]; refine ⟨?_, ?_, ?_⟩) | apply State.Canon.mem | apply State.Canon.mbox | apply State.Canon.recWin
      | split

theorem State.hostBytes_canon (s : State) (a : Nat) (a0 : Bytes) (hc : s.Canon) : (State.hostBytes s a a0).Canon := by
  induction a0 generalizing s a with
  | nil =>
    unfold State.hostBytes
    repeat' with_reducible first
        | assumption
  | cons x l ih =>
    unfold State.hostBytes
    repeat' with_reducible first
        | assumption | apply ih | apply State.hostByte_canon

theorem execRegisterWrite_canon (off : Nat) (data : Bytes) (s : State) (hc : s.Canon) : OutCanon (execRegisterWrite off data s) := by
  unfold execRegisterWrite
  repeat' with_reducible first
      | assumption | apply postReplies_canon | apply answerUnknown_canon | apply State.hostBytes_canon | apply OutCanon.next | split

/-! ## IntOps -/

theorem intWord3_canon (s : State) (op : Nat) (st : Bool) (d a b : BitVec 7) (g : BitVec 2) (f : Word → Word → Word → Word) (hc : s.Canon) :
    OutCanon (intWord3 s op st d a b g f) := by
  unfold intWord3
  repeat' with_reducible first
      | assumption | intro _ | apply runWord_canon | apply vectorWord_canon

theorem intWord1_canon (s : State) (op : Nat) (st : Bool) (d a : BitVec 7) (g : BitVec 2) (f : Word → Word) (hc : s.Canon) : OutCanon (intWord1 s op
    st d a g f) := by
  unfold intWord1
  repeat' with_reducible first
      | assumption | intro _ | apply runWord_canon | apply vectorWord_canon

theorem intLong3_canon (s : State) (op : Nat) (st : Bool) (d a b : BitVec 7) (g : BitVec 2) (f : Word → Word → Word → Word) (hc : s.Canon) :
    OutCanon (intLong3 s op st d a b g f) := by
  unfold intLong3
  repeat' with_reducible first
      | assumption | intro _ | apply runWord_canon | apply longWord_canon

theorem execIadd_canon (st : Bool) (d a b : BitVec 7) (g : BitVec 2) (s : State) (hc : s.Canon) : OutCanon (execIadd st d a b g s) := by
  unfold execIadd
  repeat' with_reducible first
      | assumption | apply intWord3_canon

theorem execIsub_canon (st : Bool) (d a b : BitVec 7) (g : BitVec 2) (s : State) (hc : s.Canon) : OutCanon (execIsub st d a b g s) := by
  unfold execIsub
  repeat' with_reducible first
      | assumption | apply intWord3_canon

theorem execImul_canon (st : Bool) (d a b : BitVec 7) (g : BitVec 2) (s : State) (hc : s.Canon) : OutCanon (execImul st d a b g s) := by
  unfold execImul
  repeat' with_reducible first
      | assumption | apply intLong3_canon

theorem execImulh_canon (st : Bool) (d a b : BitVec 7) (g : BitVec 2) (s : State) (hc : s.Canon) : OutCanon (execImulh st d a b g s) := by
  unfold execImulh
  repeat' with_reducible first
      | assumption | apply intLong3_canon

theorem execImad_canon (st : Bool) (d a b : BitVec 7) (g : BitVec 2) (s : State) (hc : s.Canon) : OutCanon (execImad st d a b g s) := by
  unfold execImad
  repeat' with_reducible first
      | assumption | apply intLong3_canon

theorem execImin_canon (st : Bool) (d a b : BitVec 7) (g : BitVec 2) (s : State) (hc : s.Canon) : OutCanon (execImin st d a b g s) := by
  unfold execImin
  repeat' with_reducible first
      | assumption | apply intWord3_canon

theorem execImax_canon (st : Bool) (d a b : BitVec 7) (g : BitVec 2) (s : State) (hc : s.Canon) : OutCanon (execImax st d a b g s) := by
  unfold execImax
  repeat' with_reducible first
      | assumption | apply intWord3_canon

theorem execIabs_canon (st : Bool) (d a : BitVec 7) (g : BitVec 2) (s : State) (hc : s.Canon) : OutCanon (execIabs st d a g s) := by
  unfold execIabs
  repeat' with_reducible first
      | assumption | apply intWord1_canon

theorem execIneg_canon (st : Bool) (d a : BitVec 7) (g : BitVec 2) (s : State) (hc : s.Canon) : OutCanon (execIneg st d a g s) := by
  unfold execIneg
  repeat' with_reducible first
      | assumption | apply intWord1_canon

theorem execAnd_canon (st : Bool) (d a b : BitVec 7) (g : BitVec 2) (s : State) (hc : s.Canon) : OutCanon (execAnd st d a b g s) := by
  unfold execAnd
  repeat' with_reducible first
      | assumption | apply intWord3_canon

theorem execOr_canon (st : Bool) (d a b : BitVec 7) (g : BitVec 2) (s : State) (hc : s.Canon) : OutCanon (execOr st d a b g s) := by
  unfold execOr
  repeat' with_reducible first
      | assumption | apply intWord3_canon

theorem execXor_canon (st : Bool) (d a b : BitVec 7) (g : BitVec 2) (s : State) (hc : s.Canon) : OutCanon (execXor st d a b g s) := by
  unfold execXor
  repeat' with_reducible first
      | assumption | apply intWord3_canon

theorem execNot_canon (st : Bool) (d a : BitVec 7) (g : BitVec 2) (s : State) (hc : s.Canon) : OutCanon (execNot st d a g s) := by
  unfold execNot
  repeat' with_reducible first
      | assumption | apply intWord1_canon

theorem execShl_canon (st : Bool) (d a b : BitVec 7) (g : BitVec 2) (s : State) (hc : s.Canon) : OutCanon (execShl st d a b g s) := by
  unfold execShl
  repeat' with_reducible first
      | assumption | apply intWord3_canon

theorem execShr_canon (st : Bool) (d a b : BitVec 7) (g : BitVec 2) (s : State) (hc : s.Canon) : OutCanon (execShr st d a b g s) := by
  unfold execShr
  repeat' with_reducible first
      | assumption | apply intWord3_canon

theorem execSar_canon (st : Bool) (d a b : BitVec 7) (g : BitVec 2) (s : State) (hc : s.Canon) : OutCanon (execSar st d a b g s) := by
  unfold execSar
  repeat' with_reducible first
      | assumption | apply intWord3_canon

theorem execPopc_canon (st : Bool) (d a : BitVec 7) (g : BitVec 2) (s : State) (hc : s.Canon) : OutCanon (execPopc st d a g s) := by
  unfold execPopc
  repeat' with_reducible first
      | assumption | apply intWord1_canon

theorem execClz_canon (st : Bool) (d a : BitVec 7) (g : BitVec 2) (s : State) (hc : s.Canon) : OutCanon (execClz st d a g s) := by
  unfold execClz
  repeat' with_reducible first
      | assumption | apply intWord1_canon

theorem execBrev_canon (st : Bool) (d a : BitVec 7) (g : BitVec 2) (s : State) (hc : s.Canon) : OutCanon (execBrev st d a g s) := by
  unfold execBrev
  repeat' with_reducible first
      | assumption | apply intWord1_canon

theorem execBfe_canon (st : Bool) (d a b : BitVec 7) (g : BitVec 2) (s : State) (hc : s.Canon) : OutCanon (execBfe st d a b g s) := by
  unfold execBfe
  repeat' with_reducible first
      | assumption | apply intWord3_canon

theorem execBfi_canon (st : Bool) (d a b : BitVec 7) (g : BitVec 2) (s : State) (hc : s.Canon) : OutCanon (execBfi st d a b g s) := by
  unfold execBfi
  repeat' with_reducible first
      | assumption | apply intWord3_canon

theorem execMov_canon (st : Bool) (d a : BitVec 7) (g : BitVec 2) (s : State) (hc : s.Canon) : OutCanon (execMov st d a g s) := by
  unfold execMov
  repeat' with_reducible first
      | assumption | apply intWord1_canon

theorem execSel_canon (st : Bool) (d a b : BitVec 7) (p : BitVec 2) (s : State) (hc : s.Canon) : OutCanon (execSel st d a b p s) := by
  unfold execSel
  repeat' with_reducible first
      | assumption | intro _ | apply State.commit_canon | apply runWord_canon

theorem execIcmp_canon (st : Bool) (c : BitVec 4) (p : BitVec 3) (a b : BitVec 7) (g : BitVec 2) (s : State) (hc : s.Canon) : OutCanon (execIcmp st
    c p a b g s) := by
  unfold execIcmp
  repeat' with_reducible first
      | assumption | intro _ | apply runWord_canon | apply vectorWord_canon

theorem execLea_canon (st : Bool) (d a b : BitVec 7) (g : BitVec 2) (s : State) (hc : s.Canon) : OutCanon (execLea st d a b g s) := by
  unfold execLea
  repeat' with_reducible first
      | assumption | intro _ | apply runWord_canon | apply vectorWord_canon

theorem execIaddImm_canon (st : Bool) (d a : BitVec 7) (i : BitVec 9) (s : State) (hc : s.Canon) : OutCanon (execIaddImm st d a i s) := by
  unfold execIaddImm
  repeat' with_reducible first
      | assumption | intro _ | apply runWord_canon | apply vectorWord_canon

theorem execShlImm_canon (st : Bool) (d a : BitVec 7) (n : BitVec 5) (s : State) (hc : s.Canon) : OutCanon (execShlImm st d a n s) := by
  unfold execShlImm
  repeat' with_reducible first
      | assumption | intro _ | apply runWord_canon | apply vectorWord_canon

theorem execIcmpImm_canon (st : Bool) (c : BitVec 4) (p : BitVec 3) (a : BitVec 7) (i : BitVec 9) (s : State) (hc : s.Canon) : OutCanon (execIcmpImm
    st c p a i s) := by
  unfold execIcmpImm
  repeat' with_reducible first
      | assumption | intro _ | apply runWord_canon | apply vectorWord_canon

theorem execMovi_canon (st : Bool) (d : BitVec 7) (i : BitVec 16) (s : State) (hc : s.Canon) : OutCanon (execMovi st d i s) := by
  unfold execMovi
  repeat' with_reducible first
      | assumption | intro _ | apply runWord_canon | apply vectorWord_canon

theorem execIaddScalar_canon (st : Bool) (d a : BitVec 7) (b : BitVec 8) (g : BitVec 1) (s : State) (hc : s.Canon) : OutCanon (execIaddScalar st d a
    b g s) := by
  unfold execIaddScalar
  repeat' with_reducible first
      | assumption | intro _ | apply runWord_canon | apply vectorWord_canon

theorem execMovScalar_canon (st : Bool) (d : BitVec 7) (b : BitVec 8) (g : BitVec 1) (s : State) (hc : s.Canon) : OutCanon (execMovScalar st d b g
    s) := by
  unfold execMovScalar
  repeat' with_reducible first
      | assumption | intro _ | apply runWord_canon | apply vectorWord_canon

theorem execPlop_canon (st : Bool) (f : BitVec 4) (p : BitVec 3) (q : BitVec 1) (a b : BitVec 3) (g : BitVec 2) (s : State) (hc : s.Canon) :
    OutCanon (execPlop st f p q a b g s) := by
  unfold execPlop
  repeat' with_reducible first
      | assumption | intro _ | apply runWord_canon | apply vectorWord_canon | apply scalarWord_canon | split

theorem execVote_canon (st : Bool) (d : BitVec 7) (m : BitVec 2) (p : BitVec 3) (g : BitVec 2) (s : State) (hc : s.Canon) : OutCanon (execVote st d
    m p g s) := by
  unfold execVote
  repeat' with_reducible first
      | assumption | intro _ | apply runWord_canon | apply vectorWord_canon | apply scalarWord_canon | split

theorem execVtos_canon (st : Bool) (l : BitVec 5) (a : BitVec 7) (d : BitVec 8) (s : State) (hc : s.Canon) : OutCanon (execVtos st l a d s) := by
  unfold execVtos
  repeat' with_reducible first
      | assumption | intro _ | apply State.commit_canon | apply runWord_canon | apply scalarWord_canon | split

/-! ## IssueEvents -/

theorem State.closeSettle_canon (s : State) (g : Group) (lane : Nat) (hc : s.Canon) : (State.closeSettle s g lane).Canon := by
  unfold State.closeSettle
  repeat' with_reducible first
      | assumption | apply State.setGroup_canon | apply State.applyRes_canon | apply State.bind_canon | split

theorem closeSettled_canon (u : Nat) (a0 : List Nat) (a1 : State) (hc : a1.Canon) : (closeSettled u a0 a1).Canon := by
  induction a0 generalizing a1 u with
  | nil =>
    unfold closeSettled
    repeat' with_reducible first
        | assumption
  | cons x l ih =>
    unfold closeSettled
    repeat' with_reducible first
        | assumption | apply ih | apply State.closeSettle_canon | split

theorem execLongResultLand_canon (u lane : Nat) (s : State) (hc : s.Canon) : OutCanon (execLongResultLand u lane s) := by
  unfold execLongResultLand
  repeat' with_reducible first
      | assumption | apply countParks_canon | apply State.setGroup_canon | apply State.closeSettle_canon | apply closeSettled_canon
      | apply OutCanon.next | dsimp only | (simp only [State.canon_mk]; refine ⟨?_, ?_, ?_⟩) | apply State.Canon.mem | apply State.Canon.mbox
      | apply State.Canon.recWin | split

theorem execThreadStarved_canon (u lane : Nat) (s : State) (hc : s.Canon) : OutCanon (execThreadStarved u lane s) := by
  unfold execThreadStarved
  repeat' with_reducible first
      | assumption | apply State.modGroup_canon | apply OutCanon.next

theorem execGroupStarvationGuard_canon (u : Nat) (s : State) (hc : s.Canon) : OutCanon (execGroupStarvationGuard u s) := by
  unfold execGroupStarvationGuard
  repeat' with_reducible first
      | assumption | apply State.modGroup_canon | apply OutCanon.next

theorem execTrapEntry_canon (u lane : Nat) (s : State) (hc : s.Canon) : OutCanon (execTrapEntry u lane s) := by
  unfold execTrapEntry
  repeat' with_reducible first
      | assumption | apply State.enter_canon | apply OutCanon.next | split

theorem execIllegalInstruction_canon (detail : Nat) (s : State) (hc : s.Canon) : OutCanon (execIllegalInstruction detail s) := by
  unfold execIllegalInstruction
  repeat' with_reducible first
      | assumption | apply State.illegal_canon | apply OutCanon.next | exact OutCanon.fault | split

theorem execRunAheadFetch_canon (u n : Nat) (s : State) (hc : s.Canon) : OutCanon (execRunAheadFetch u n s) := by
  unfold execRunAheadFetch
  repeat' with_reducible first
      | assumption | apply State.modGroup_canon | apply State.count_canon | apply State.fillTlb_canon | apply OutCanon.next | dsimp only | split

/-! ## PowerEvents -/

theorem State.configure_canon (s : State) (hc : s.Canon) : (State.configure s).Canon := by
  unfold State.configure
  repeat' with_reducible first
      | assumption | (simp only [State.canon_mk]; refine ⟨?_, ?_, ?_⟩) | apply State.Canon.mem | apply State.Canon.mbox | apply State.Canon.recWin
      | split

theorem State.identity_canon (s : State) (hc : s.Canon) : (State.identity s).Canon := by
  unfold State.identity
  repeat' with_reducible first
      | assumption | (simp only [State.canon_mk]; refine ⟨?_, ?_, ?_⟩) | apply putBytes_wf | apply State.Canon.mem | apply State.Canon.mbox
      | apply State.Canon.recWin

theorem State.startFirmware_canon (s : State) (i : Config.BootImage) (recovered : Bool) (hc : s.Canon) : (State.startFirmware s i recovered).Canon
    := by
  unfold State.startFirmware
  repeat' with_reducible first
      | assumption | apply State.configure_canon | apply State.identity_canon | (simp only [State.canon_mk]; refine ⟨?_, ?_, ?_⟩)
      | apply State.Canon.mem | apply State.Canon.mbox | apply State.Canon.recWin | dsimp only

theorem State.putStatus_canon (s : State) (code : Nat) (hc : s.Canon) : (State.putStatus s code).Canon := by
  unfold State.putStatus
  repeat' with_reducible first
      | assumption | dsimp only | (simp only [State.canon_mk]; refine ⟨?_, ?_, ?_⟩) | apply State.Canon.mem | apply State.Canon.mbox
      | apply State.Canon.recWin | apply putBytes_wf

theorem State.tryImage_canon (s : State) (region : Bytes) (recovered : Bool) (hc : s.Canon) : (State.tryImage s region recovered).Canon := by
  unfold State.tryImage
  repeat' with_reducible first
      | assumption | apply State.putStatus_canon | apply State.startFirmware_canon | (simp only [State.canon_mk]; refine ⟨?_, ?_, ?_⟩)
      | apply State.Canon.mem | apply State.Canon.mbox | apply State.Canon.recWin | dsimp only | split

theorem State.afterReset_canon (s : State) (_hc : s.Canon) : (State.afterReset s).Canon := by
  unfold State.afterReset
  repeat' with_reducible first
      | assumption | apply State.reset_canon | (simp only [State.canon_mk]; refine ⟨?_, ?_, ?_⟩) | apply State.Canon.mem | apply State.Canon.mbox
      | apply State.Canon.recWin

theorem execDeviceReset_canon (s : State) (hc : s.Canon) : OutCanon (execDeviceReset s) := by
  unfold execDeviceReset
  repeat' with_reducible first
      | assumption | apply State.tryImage_canon | apply State.afterReset_canon | apply OutCanon.next
      | (simp only [State.canon_mk]; refine ⟨?_, ?_, ?_⟩) | apply State.Canon.mem | apply State.Canon.mbox | apply State.Canon.recWin

theorem execRecoveryGo_canon (s : State) (hc : s.Canon) : OutCanon (execRecoveryGo s) := by
  unfold execRecoveryGo
  repeat' with_reducible first
      | assumption | apply State.tryImage_canon | apply OutCanon.next | split

theorem State.modDie_canon (s : State) (d : Nat) (f : Die → Die) (hc : s.Canon) : (State.modDie s d f).Canon := by
  unfold State.modDie
  repeat' with_reducible first
      | assumption | (simp only [State.canon_mk]; refine ⟨?_, ?_, ?_⟩) | apply State.Canon.mem | apply State.Canon.mbox | apply State.Canon.recWin
      | split

theorem execClockStepDown_canon (die : Nat) (s : State) (hc : s.Canon) : OutCanon (execClockStepDown die s) := by
  unfold execClockStepDown
  repeat' with_reducible first
      | assumption | apply State.modDie_canon | apply OutCanon.next | dsimp only | split

theorem execClockStepUp_canon (die : Nat) (s : State) (hc : s.Canon) : OutCanon (execClockStepUp die s) := by
  unfold execClockStepUp
  repeat' with_reducible first
      | assumption | apply State.modDie_canon | apply OutCanon.next | dsimp only | split

theorem execThermalLimit_canon (die : Nat) (s : State) (hc : s.Canon) : OutCanon (execThermalLimit die s) := by
  unfold execThermalLimit
  repeat' with_reducible first
      | assumption | apply State.modDie_canon | apply OutCanon.next | dsimp only | split

theorem execThermalLimitClear_canon (die : Nat) (s : State) (hc : s.Canon) : OutCanon (execThermalLimitClear die s) := by
  unfold execThermalLimitClear
  repeat' with_reducible first
      | assumption | apply State.modDie_canon | apply OutCanon.next | dsimp only | split

theorem execThermalShutdown_canon (s : State) (hc : s.Canon) : OutCanon (execThermalShutdown s) := by
  unfold execThermalShutdown
  repeat' with_reducible first
      | assumption | apply State.afterReset_canon | apply OutCanon.next | split

/-! ## MailEvents -/

/-- The state that an outcome carries has the canonical form. -/
def Served.Canon : Served → Prop
  | .done s _ => s.Canon
  | .no _ _ => True
  | .later s => s.Canon
  | .hold => True
theorem Served.done_mk {s : State} {b : Bytes} (h : s.Canon) : (Served.done s b).Canon := h
theorem Served.done_canon {r : Served} {s : State} {b : Bytes} (e : r = .done s b) (h : r.Canon) : s.Canon := by subst e; exact h
theorem Served.no_mk {x0} {x1} : (Served.no x0 x1).Canon := trivial
theorem Served.later_mk {s : State} (h : s.Canon) : (Served.later s).Canon := h
theorem Served.later_canon {r : Served} {s : State} (e : r = .later s) (h : r.Canon) : s.Canon := by subst e; exact h
theorem Served.hold_mk : (Served.hold).Canon := trivial

theorem serve_canon {s : State} {opc : Nat} {needs : Bool} {used : List (Nat × Nat)} {f : Bytes → State → Served} (hf : ∀ b s, s.Canon → (f b
    s).Canon)
    (h : s.Canon) : OutCanon (serve s opc needs used f) := by
  have hq := hf s.headRequest _ (State.consume_canon _ h)
  unfold serve
  repeat' with_reducible first
    | assumption | apply answerUnknown_canon | apply State.reply_canon | apply State.consume_canon | apply OutCanon.next
    | refine Served.done_canon (by assumption) ?_ | refine Served.later_canon (by assumption) ?_ | dsimp only | split

theorem State.newContext_canon (s : State) (q b : Bytes) (asid fring : Nat) (hc : s.Canon) : (State.newContext s q b asid fring).Canon := by
  unfold State.newContext
  repeat' with_reducible first
      | assumption | apply clearRange_wf | (simp only [State.canon_mk]; refine ⟨?_, ?_, ?_⟩) | apply State.Canon.mem | apply State.Canon.mbox
      | apply State.Canon.recWin

theorem State.usedRotation_canon (s : State) (c : Context) (core : Nat) (used : Bool) (hc : s.Canon) : (State.usedRotation s c core used).Canon := by
  unfold State.usedRotation
  repeat' with_reducible first
      | assumption | apply State.modDist_canon | split

theorem State.placeControl_canon (s : State) (c : Context) (q : Bytes) (hc : s.Canon) : (State.placeControl s c q).Canon := by
  unfold State.placeControl
  repeat' with_reducible first
      | assumption | apply State.askImage_canon | apply State.modCtx_canon | apply State.refuseCreate_canon | apply State.placeNext_canon
      | apply State.restStarved_canon | apply State.reply_canon | apply State.usedRotation_canon | dsimp only
      | (simp only [State.canon_mk]; refine ⟨?_, ?_, ?_⟩) | apply State.Canon.mem | apply State.Canon.mbox | apply State.Canon.recWin | split

theorem execCreate_canon (asid fring : Nat) (s : State) (hc : s.Canon) : OutCanon (execCreate asid fring s) := by
  unfold execCreate
  repeat' with_reducible first
      | assumption | intro _ | apply State.bind_canon | apply serve_canon | apply State.newContext_canon | apply State.placeControl_canon
      | apply OutCanon.next | apply Served.later_mk | exact Served.hold_mk | exact Served.no_mk | dsimp only | split

theorem dropFailed_canon (a0 : List Launch) (a1 : State) (hc : a1.Canon) : (dropFailed a0 a1).Canon := by
  induction a0 generalizing a1 with
  | nil =>
    unfold dropFailed
    repeat' with_reducible first
        | assumption | apply State.pinFails_canon | dsimp only | (simp only [State.canon_mk]; refine ⟨?_, ?_, ?_⟩) | apply State.Canon.mem
        | apply State.Canon.mbox | apply State.Canon.recWin
  | cons x l ih =>
    unfold dropFailed
    repeat' with_reducible first
        | assumption | apply ih | apply State.pinFails_canon | dsimp only | (simp only [State.canon_mk]; refine ⟨?_, ?_, ?_⟩) | apply State.Canon.mem
        | apply State.Canon.mbox | apply State.Canon.recWin

theorem execTeardown_canon (s : State) (hc : s.Canon) : OutCanon (execTeardown s) := by
  unfold execTeardown
  repeat' with_reducible first
      | assumption | apply dropFailed_canon | intro _ | apply State.modCtx_canon | apply State.stopLaunch_canon | apply State.answer_canon
      | apply serve_canon | apply foldl_canon | apply Served.later_mk | dsimp only | (simp only [State.canon_mk]; refine ⟨?_, ?_, ?_⟩)
      | apply State.Canon.mem | apply State.Canon.mbox | apply State.Canon.recWin

theorem execDeschedule_canon (s : State) (hc : s.Canon) : OutCanon (execDeschedule s) := by
  unfold execDeschedule
  repeat' with_reducible first
      | assumption | intro _ | apply State.modCtx_canon | apply State.restStarved_canon | apply State.orderStop_canon
      | apply State.stopAnswered_canon | apply serve_canon | apply foldl_canon | apply Served.later_mk | exact Served.no_mk | dsimp only | split

theorem execReschedule_canon (s : State) (hc : s.Canon) : OutCanon (execReschedule s) := by
  unfold execReschedule
  repeat' with_reducible first
      | assumption | intro _ | apply State.modCtx_canon | apply State.placeNext_canon | apply State.wantPlacement_canon
      | apply State.restStarved_canon | apply serve_canon | apply State.usedRotation_canon | apply Served.done_mk | exact Served.hold_mk
      | exact Served.no_mk | split

theorem execPte_canon (s : State) (hc : s.Canon) : OutCanon (execPte s) := by
  unfold execPte
  refine serve_canon (fun q t ht => ?_) hc
  generalize reqField q 8 8 = old
  generalize reqField q 16 8 = new
  generalize reqField q 24 8 = va
  dsimp only
  split
  · rename_i pa c _ _
    generalize getLe s.mem pa 8 = found
    generalize entrySpan s va pa 4 (c.root % 2 ^ 46) = span
    repeat' with_reducible first
      | assumption | exact Served.no_mk | apply Served.done_mk | exact Served.hold_mk | apply State.shoot_canon | apply State.putEntry_canon | split
  · exact Served.no_mk

theorem execResidency_canon (s : State) (hc : s.Canon) : OutCanon (execResidency s) := by
  unfold execResidency
  repeat' with_reducible first
      | assumption | intro _ | apply State.residAnswer_canon | apply serve_canon | refine opt_canon (by assumption) ?_ | apply Served.done_mk
      | exact Served.no_mk | split

theorem execThresholds_canon (s : State) (hc : s.Canon) : OutCanon (execThresholds s) := by
  unfold execThresholds
  repeat' with_reducible first
      | assumption | intro _ | apply State.modCtx_canon | apply serve_canon | apply Served.done_mk | exact Served.no_mk | dsimp only
      | (simp only [State.canon_mk]; refine ⟨?_, ?_, ?_⟩) | apply State.Canon.mem | apply State.Canon.mbox | apply State.Canon.recWin | split

theorem execFfring_canon (s : State) (hc : s.Canon) : OutCanon (execFfring s) := by
  unfold execFfring
  repeat' with_reducible first
      | assumption | intro _ | apply appendFreed_canon | apply serve_canon | apply Served.done_mk | exact Served.no_mk | dsimp only
      | (simp only [State.canon_mk]; refine ⟨?_, ?_, ?_⟩) | apply State.Canon.mem | apply State.Canon.mbox | apply State.Canon.recWin | split

theorem execRefill_canon (s : State) (hc : s.Canon) : OutCanon (execRefill s) := by
  unfold execRefill
  repeat' with_reducible first
      | assumption | intro _ | apply serve_canon | apply Served.done_mk | exact Served.no_mk | dsimp only
      | (simp only [State.canon_mk]; refine ⟨?_, ?_, ?_⟩) | apply State.Canon.mem | apply State.Canon.mbox | apply State.Canon.recWin | split

theorem execSavepool_canon (s : State) (hc : s.Canon) : OutCanon (execSavepool s) := by
  unfold execSavepool
  repeat' with_reducible first
      | assumption | intro _ | apply State.modCtx_canon | apply State.wantPlacement_canon | apply serve_canon | apply Served.done_mk
      | exact Served.no_mk | dsimp only | split

theorem execRetired_canon (s : State) (hc : s.Canon) : OutCanon (execRetired s) := by
  unfold execRetired
  repeat' with_reducible first
      | assumption | intro _ | apply serve_canon | apply Served.done_mk

theorem execClearlost_canon (s : State) (hc : s.Canon) : OutCanon (execClearlost s) := by
  unfold execClearlost
  repeat' with_reducible first
      | assumption | intro _ | apply clearRange_wf | apply serve_canon | apply Served.done_mk | exact Served.no_mk
      | (simp only [State.canon_mk]; refine ⟨?_, ?_, ?_⟩) | apply State.Canon.mem | apply State.Canon.mbox | apply State.Canon.recWin | split

theorem execAperture_canon (s : State) (hc : s.Canon) : OutCanon (execAperture s) := by
  unfold execAperture
  repeat' with_reducible first
      | assumption | intro _ | apply serve_canon | apply Served.done_mk | exact Served.no_mk | dsimp only
      | (simp only [State.canon_mk]; refine ⟨?_, ?_, ?_⟩) | apply State.Canon.mem | apply State.Canon.mbox | apply State.Canon.recWin | split

theorem execFabric_canon (s : State) (hc : s.Canon) : OutCanon (execFabric s) := by
  unfold execFabric
  repeat' with_reducible first
      | assumption | intro _ | apply serve_canon | apply Served.done_mk | exact Served.no_mk | dsimp only
      | (simp only [State.canon_mk]; refine ⟨?_, ?_, ?_⟩) | apply State.Canon.mem | apply State.Canon.mbox | apply State.Canon.recWin | split

theorem execCounters_canon (s : State) (hc : s.Canon) : OutCanon (execCounters s) := by
  unfold execCounters
  repeat' with_reducible first
      | assumption | intro _ | apply State.putCounter_canon | apply serve_canon | apply Served.done_mk | exact Served.no_mk | dsimp only | split

theorem execPower_canon (s : State) (hc : s.Canon) : OutCanon (execPower s) := by
  unfold execPower
  repeat' with_reducible first
      | assumption | intro _ | apply serve_canon | apply Served.done_mk | exact Served.no_mk | dsimp only
      | (simp only [State.canon_mk]; refine ⟨?_, ?_, ?_⟩) | apply State.Canon.mem | apply State.Canon.mbox | apply State.Canon.recWin | split

theorem execAttest_canon (s : State) (hc : s.Canon) : OutCanon (execAttest s) := by
  unfold execAttest
  repeat' with_reducible first
      | assumption | intro _ | apply State.homeWrite_canon | apply serve_canon | apply Served.done_mk | exact Served.no_mk | dsimp only | split

theorem execFwupdate_canon (s : State) (hc : s.Canon) : OutCanon (execFwupdate s) := by
  unfold execFwupdate
  repeat' with_reducible first
      | assumption | intro _ | apply serve_canon | apply Served.done_mk | exact Served.no_mk | dsimp only
      | (simp only [State.canon_mk]; refine ⟨?_, ?_, ?_⟩) | apply State.Canon.mem | apply State.Canon.mbox | apply State.Canon.recWin | split

/-! ## Scalar -/

theorem scalar3_canon (s : State) (op : Nat) (st : Bool) (d a : BitVec 8) (b : BitVec 7) (f : Word → Word → Word) (hc : s.Canon) : OutCanon (scalar3
    s op st d a b f) := by
  unfold scalar3
  repeat' with_reducible first
      | assumption | intro _ | apply runWord_canon | apply scalarWord_canon

theorem execSadd_canon (st : Bool) (d a : BitVec 8) (b : BitVec 7) (s : State) (hc : s.Canon) : OutCanon (execSadd st d a b s) := by
  unfold execSadd
  repeat' with_reducible first
      | assumption | apply scalar3_canon

theorem execSaddImm_canon (st : Bool) (d a : BitVec 8) (i : BitVec 7) (s : State) (hc : s.Canon) : OutCanon (execSaddImm st d a i s) := by
  unfold execSaddImm
  repeat' with_reducible first
      | assumption | intro _ | apply runWord_canon | apply scalarWord_canon

theorem execSsub_canon (st : Bool) (d a : BitVec 8) (b : BitVec 7) (s : State) (hc : s.Canon) : OutCanon (execSsub st d a b s) := by
  unfold execSsub
  repeat' with_reducible first
      | assumption | apply scalar3_canon

theorem pendScalar_canon (s : State) (x : Issue) (d : Nat) (val : Word) (hc : s.Canon) : (pendScalar s x d val).Canon := by
  unfold pendScalar
  repeat' with_reducible first
      | assumption | apply State.modGroup_canon | apply State.bump_canon | apply State.commit_canon

theorem execSmul_canon (st : Bool) (d a : BitVec 8) (b : BitVec 7) (s : State) (hc : s.Canon) : OutCanon (execSmul st d a b s) := by
  unfold execSmul
  repeat' with_reducible first
      | assumption | intro _ | apply runWord_canon | apply pendScalar_canon

theorem execSlogAnd_canon (st : Bool) (d a : BitVec 8) (b : BitVec 7) (s : State) (hc : s.Canon) : OutCanon (execSlogAnd st d a b s) := by
  unfold execSlogAnd
  repeat' with_reducible first
      | assumption | apply scalar3_canon

theorem execSlogOr_canon (st : Bool) (d a : BitVec 8) (b : BitVec 7) (s : State) (hc : s.Canon) : OutCanon (execSlogOr st d a b s) := by
  unfold execSlogOr
  repeat' with_reducible first
      | assumption | apply scalar3_canon

theorem execSlogXor_canon (st : Bool) (d a : BitVec 8) (b : BitVec 7) (s : State) (hc : s.Canon) : OutCanon (execSlogXor st d a b s) := by
  unfold execSlogXor
  repeat' with_reducible first
      | assumption | apply scalar3_canon

theorem execSlogAndn_canon (st : Bool) (d a : BitVec 8) (b : BitVec 7) (s : State) (hc : s.Canon) : OutCanon (execSlogAndn st d a b s) := by
  unfold execSlogAndn
  repeat' with_reducible first
      | assumption | apply scalar3_canon

theorem execSshfShl_canon (st : Bool) (d a : BitVec 8) (b : BitVec 7) (s : State) (hc : s.Canon) : OutCanon (execSshfShl st d a b s) := by
  unfold execSshfShl
  repeat' with_reducible first
      | assumption | apply scalar3_canon

theorem execSshfShr_canon (st : Bool) (d a : BitVec 8) (b : BitVec 7) (s : State) (hc : s.Canon) : OutCanon (execSshfShr st d a b s) := by
  unfold execSshfShr
  repeat' with_reducible first
      | assumption | apply scalar3_canon

theorem execSshfSar_canon (st : Bool) (d a : BitVec 8) (b : BitVec 7) (s : State) (hc : s.Canon) : OutCanon (execSshfSar st d a b s) := by
  unfold execSshfSar
  repeat' with_reducible first
      | assumption | apply scalar3_canon

theorem execSshfImm_canon (st : Bool) (d a : BitVec 8) (f : BitVec 2) (n : BitVec 5) (s : State) (hc : s.Canon) : OutCanon (execSshfImm st d a f n
    s) := by
  unfold execSshfImm
  repeat' with_reducible first
      | assumption | intro _ | apply runWord_canon | apply scalarWord_canon

theorem execSmov_canon (st : Bool) (d a : BitVec 8) (s : State) (hc : s.Canon) : OutCanon (execSmov st d a s) := by
  unfold execSmov
  repeat' with_reducible first
      | assumption | intro _ | apply runWord_canon | apply scalarWord_canon

theorem execSmovi_canon (st : Bool) (d : BitVec 8) (i : BitVec 15) (s : State) (hc : s.Canon) : OutCanon (execSmovi st d i s) := by
  unfold execSmovi
  repeat' with_reducible first
      | assumption | intro _ | apply runWord_canon | apply scalarWord_canon

theorem execScmp_canon (st : Bool) (c : BitVec 4) (q : BitVec 2) (a : BitVec 8) (b : BitVec 7) (s : State) (hc : s.Canon) : OutCanon (execScmp st c
    q a b s) := by
  unfold execScmp
  repeat' with_reducible first
      | assumption | intro _ | apply runWord_canon | apply scalarWord_canon

theorem execScmpImm_canon (st : Bool) (c : BitVec 4) (q : BitVec 2) (a : BitVec 8) (i : BitVec 7) (s : State) (hc : s.Canon) : OutCanon (execScmpImm
    st c q a i s) := by
  unfold execScmpImm
  repeat' with_reducible first
      | assumption | intro _ | apply runWord_canon | apply scalarWord_canon

/-! ## Dispatch -/

theorem exec_canon (n : Instr) (s : State) (hc : s.Canon) : OutCanon (exec n s) := by
  cases n with
  | himm n => exact execHimm_canon n s hc
  | hdep k p b => exact execHdep_canon k p b s hc
  | hmod r o c e m g n p => exact execHmod_canon r o c e m g n p s hc
  | hsch p y => exact execHsch_canon p y s hc
  | nop st => exact execNop_canon st s hc
  | trap st c => exact execTrap_canon st c s hc
  | sysrd st d n => exact execSysrd_canon st d n s hc
  | syswr st d n => exact execSyswr_canon st d n s hc
  | perf st d a o n => exact execPerf_canon st d a o n s hc
  | drain st k m => exact execDrain_canon st k m s hc
  | bra st o => exact execBra_canon st o s hc
  | braQ0 st o => exact execBraQ0_canon st o s hc
  | braNotQ0 st o => exact execBraNotQ0_canon st o s hc
  | braQ1 st o => exact execBraQ1_canon st o s hc
  | braNotQ1 st o => exact execBraNotQ1_canon st o s hc
  | braQ2 st o => exact execBraQ2_canon st o s hc
  | braNotQ2 st o => exact execBraNotQ2_canon st o s hc
  | braQ3 st o => exact execBraQ3_canon st o s hc
  | braNotQ3 st o => exact execBraNotQ3_canon st o s hc
  | braP0 st o => exact execBraP0_canon st o s hc
  | braNotP0 st o => exact execBraNotP0_canon st o s hc
  | braP1 st o => exact execBraP1_canon st o s hc
  | call st o => exact execCall_canon st o s hc
  | ret st => exact execRet_canon st s hc
  | loop st a n => exact execLoop_canon st a n s hc
  | brk st g => exact execBrk_canon st g s hc
  | brx st a g => exact execBrx_canon st a g s hc
  | rcv st => exact execRcv_canon st s hc
  | yield st => exact execYield_canon st s hc
  | exit st g => exact execExit_canon st g s hc
  | plop st f p q a b g => exact execPlop_canon st f p q a b g s hc
  | vote st d m p g => exact execVote_canon st d m p g s hc
  | vtos st l a d => exact execVtos_canon st l a d s hc
  | iadd st d a b g => exact execIadd_canon st d a b g s hc
  | isub st d a b g => exact execIsub_canon st d a b g s hc
  | imul st d a b g => exact execImul_canon st d a b g s hc
  | imulh st d a b g => exact execImulh_canon st d a b g s hc
  | imad st d a b g => exact execImad_canon st d a b g s hc
  | imin st d a b g => exact execImin_canon st d a b g s hc
  | imax st d a b g => exact execImax_canon st d a b g s hc
  | iabs st d a g => exact execIabs_canon st d a g s hc
  | ineg st d a g => exact execIneg_canon st d a g s hc
  | and st d a b g => exact execAnd_canon st d a b g s hc
  | or st d a b g => exact execOr_canon st d a b g s hc
  | xor st d a b g => exact execXor_canon st d a b g s hc
  | not st d a g => exact execNot_canon st d a g s hc
  | shl st d a b g => exact execShl_canon st d a b g s hc
  | shr st d a b g => exact execShr_canon st d a b g s hc
  | sar st d a b g => exact execSar_canon st d a b g s hc
  | popc st d a g => exact execPopc_canon st d a g s hc
  | clz st d a g => exact execClz_canon st d a g s hc
  | brev st d a g => exact execBrev_canon st d a g s hc
  | bfe st d a b g => exact execBfe_canon st d a b g s hc
  | bfi st d a b g => exact execBfi_canon st d a b g s hc
  | sel st d a b p => exact execSel_canon st d a b p s hc
  | mov st d a g => exact execMov_canon st d a g s hc
  | icmp st c p a b g => exact execIcmp_canon st c p a b g s hc
  | lea st d a b g => exact execLea_canon st d a b g s hc
  | iaddImm st d a n => exact execIaddImm_canon st d a n s hc
  | shlImm st d a n => exact execShlImm_canon st d a n s hc
  | icmpImm st c p a n => exact execIcmpImm_canon st c p a n s hc
  | movi st d n => exact execMovi_canon st d n s hc
  | iaddScalar st d a b g => exact execIaddScalar_canon st d a b g s hc
  | movScalar st d b g => exact execMovScalar_canon st d b g s hc
  | sadd st d a b => exact execSadd_canon st d a b s hc
  | saddImm st d a n => exact execSaddImm_canon st d a n s hc
  | ssub st d a b => exact execSsub_canon st d a b s hc
  | smul st d a b => exact execSmul_canon st d a b s hc
  | slogAnd st d a b => exact execSlogAnd_canon st d a b s hc
  | slogOr st d a b => exact execSlogOr_canon st d a b s hc
  | slogXor st d a b => exact execSlogXor_canon st d a b s hc
  | slogAndn st d a b => exact execSlogAndn_canon st d a b s hc
  | sshfShl st d a b => exact execSshfShl_canon st d a b s hc
  | sshfShr st d a b => exact execSshfShr_canon st d a b s hc
  | sshfSar st d a b => exact execSshfSar_canon st d a b s hc
  | sshfImm st d a f n => exact execSshfImm_canon st d a f n s hc
  | smov st d a => exact execSmov_canon st d a s hc
  | smovi st d n => exact execSmovi_canon st d n s hc
  | scmp st c q a b => exact execScmp_canon st c q a b s hc
  | scmpImm st c q a n => exact execScmpImm_canon st c q a n s hc
  | fadd st d a b g => exact execFadd_canon st d a b g s hc
  | fsub st d a b g => exact execFsub_canon st d a b g s hc
  | fmul st d a b g => exact execFmul_canon st d a b g s hc
  | ffma st d a b g => exact execFfma_canon st d a b g s hc
  | fmin st d a b g => exact execFmin_canon st d a b g s hc
  | fmax st d a b g => exact execFmax_canon st d a b g s hc
  | fcmp st c p a b g => exact execFcmp_canon st c p a b g s hc
  | frcp st d a g => exact execFrcp_canon st d a g s hc
  | frsq st d a g => exact execFrsq_canon st d a g s hc
  | fex2 st d a g => exact execFex2_canon st d a g s hc
  | flg2 st d a g => exact execFlg2_canon st d a g s hc
  | fcls st d a g => exact execFcls_canon st d a g s hc
  | frnd st d a g => exact execFrnd_canon st d a g s hc
  | hadd2 st d a b g => exact execHadd2_canon st d a b g s hc
  | hmul2 st d a b g => exact execHmul2_canon st d a b g s hc
  | hfma2 st d a b g => exact execHfma2_canon st d a b g s hc
  | cvt st d a e f => exact execCvt_canon st d a e f s hc
  | pack st d a f n => exact execPack_canon st d a f n s hc
  | unpk st d a f n => exact execUnpk_canon st d a f n s hc
  | qnt st d a f b => exact execQnt_canon st d a f b s hc
  | sclx st d a b g => exact execSclx_canon st d a b g s hc
  | dqntE4m3 st d a b c => exact execDqntE4m3_canon st d a b c s hc
  | dqntE5m2 st d a b c => exact execDqntE5m2_canon st d a b c s hc
  | dqntE2m3 st d a b c => exact execDqntE2m3_canon st d a b c s hc
  | dqntE3m2 st d a b c => exact execDqntE3m2_canon st d a b c s hc
  | dqntE2m1 st d a b c => exact execDqntE2m1_canon st d a b c s hc
  | dqntSx4 st d a b c => exact execDqntSx4_canon st d a b c s hc
  | dqntI8 st d a b c => exact execDqntI8_canon st d a b c s hc
  | xpat st d a n => exact execXpat_canon st d a n s hc
  | xperm st d a b g => exact execXperm_canon st d a b g s hc
  | shfl st d a m n => exact execShfl_canon st d a m n s hc
  | scan st d a o f x => exact execScan_canon st d a o f x s hc
  | rdx st d a o f => exact execRdx_canon st d a o f s hc
  | ld st d a k z g => exact execLd_canon st d a k z g s hc
  | st st d a k z g => exact execSt_canon st d a k z g s hc
  | lds st d a z g => exact execLds_canon st d a z g s hc
  | sts st d a z g => exact execSts_canon st d a z g s hc
  | atom st d a k r w o => exact execAtom_canon st d a k r w o s hc
  | acas st d a k r w => exact execAcas_canon st d a k r w s hc
  | prf st l a z g => exact execPrf_canon st l a z g s hc
  | fence st p k g => exact execFence_canon st p k g s hc
  | cflush st o a k z g => exact execCflush_canon st o a k z g s hc
  | ptst st d a g => exact execPtst_canon st d a g s hc
  | ldt st d a k g => exact execLdt_canon st d a k g s hc
  | stt st d a k g => exact execStt_canon st d a k g s hc
  | wait st q e k y t b => exact execWait_canon st q e k y t b s hc
  | waitc st k a q e t b => exact execWaitc_canon st k a q e t b s hc
  | tst st k d b w => exact execTst_canon st k d b w s hc
  | tclr st k => exact execTclr_canon st k s hc
  | texp st k a b y r => exact execTexp_canon st k a b y r s hc
  | binit st k a b => exact execBinit_canon st k a b s hc
  | arv st k a b e p => exact execArv_canon st k a b e p s hc
  | bwait st q e a b t p => exact execBwait_canon st q e a b t p s hc
  | bpoll st q a b => exact execBpoll_canon st q a b s hc
  | cpy st k a b o d => exact execCpy_canon st k a b o d s hc
  | launch st k a => exact execLaunch_canon st k a s hc
  | sacq st d n => exact execSacq_canon st d n s hc
  | spop st d c n => exact execSpop_canon st d c n s hc
  | srel st a f n => exact execSrel_canon st a f n s hc
  | kvld st k a b o w => exact execKvld_canon st k a b o w s hc
  | kvseal st k a b => exact execKvseal_canon st k a b s hc
  | kvhdr st k a b => exact execKvhdr_canon st k a b s hc
  | coll st k a b => exact execColl_canon st k a b s hc
  | mcst st k a b => exact execMcst_canon st k a b s hc
  | rte st k a b => exact execRte_canon st k a b s hc
  | rtc st k a b => exact execRtc_canon st k a b s hc
  | mmaBf16 st k c a b => exact execMmaBf16_canon st k c a b s hc
  | mmaF16 st k c a b => exact execMmaF16_canon st k c a b s hc
  | mmaE4m3 st k c a b => exact execMmaE4m3_canon st k c a b s hc
  | mmaE5m2 st k c a b => exact execMmaE5m2_canon st k c a b s hc
  | mmaE2m3 st k c a b => exact execMmaE2m3_canon st k c a b s hc
  | mmaE3m2 st k c a b => exact execMmaE3m2_canon st k c a b s hc
  | mmaI8 st k c a b => exact execMmaI8_canon st k c a b s hc
  | mmaE2m1 st k c a b => exact execMmaE2m1_canon st k c a b s hc
  | mmaSx4 st k c a b => exact execMmaSx4_canon st k c a b s hc
  | acrel st c => exact execAcrel_canon st c s hc
  | acacq st k c => exact execAcacq_canon st k c s hc
  | acz st c => exact execAcz_canon st c s hc
  | acrd st c d b => exact execAcrd_canon st c d b s hc
  | acwr st c a b => exact execAcwr_canon st c a b s hc
  | longResultLand g lane => exact execLongResultLand_canon g lane s hc
  | threadStarved g lane => exact execThreadStarved_canon g lane s hc
  | groupStarvationGuard g => exact execGroupStarvationGuard_canon g s hc
  | trapEntry g lane => exact execTrapEntry_canon g lane s hc
  | storeQueueDrain g => exact execStoreQueueDrain_canon g s hc
  | memoryReply op lane => exact execMemoryReply_canon op lane s hc
  | tlbWalkReturn clu asid va => exact execTlbWalkReturn_canon clu asid va s hc
  | lightFaultService asid va => exact execLightFaultService_canon asid va s hc
  | migration asid va frame => exact execMigration_canon asid va frame s hc
  | migrationSwapOut team => exact execMigrationSwapOut_canon team s hc
  | engineCommandStart op => exact execEngineCommandStart_canon op s hc
  | chunkLand op n => exact execChunkLand_canon op n s hc
  | copyFinish op => exact execCopyFinish_canon op s hc
  | ldtRetry op lane => exact execLdtRetry_canon op lane s hc
  | sttProgress op lane => exact execSttProgress_canon op lane s hc
  | mmaStart op => exact execMmaStart_canon op s hc
  | mmaFinish op => exact execMmaFinish_canon op s hc
  | acacqFinish op => exact execAcacqFinish_canon op s hc
  | kvConversion frame half => exact execKvConversion_canon frame half s hc
  | kvPairing asid vp vq => exact execKvPairing_canon asid vp vq s hc
  | kvldRetry op => exact execKvldRetry_canon op s hc
  | kvhdrRefill op => exact execKvhdrRefill_canon op s hc
  | barrierUpdate n => exact execBarrierUpdate_canon n s hc
  | quiescenceTimer op => exact execQuiescenceTimer_canon op s hc
  | launchValidation l => exact execLaunchValidation_canon l s hc
  | launchPreconditionsHeld l => exact execLaunchPreconditionsHeld_canon l s hc
  | leasePin l => exact execLeasePin_canon l s hc
  | placementDecision die => exact execPlacementDecision_canon die s hc
  | reservation die => exact execReservation_canon die s hc
  | reservationAnswer die => exact execReservationAnswer_canon die s hc
  | preemption l => exact execPreemption_canon l s hc
  | unplaceableLog l => exact execUnplaceableLog_canon l s hc
  | forcedFullSave team => exact execForcedFullSave_canon team s hc
  | teamSave team => exact execTeamSave_canon team s hc
  | saveWatchdog team => exact execSaveWatchdog_canon team s hc
  | savedCompletion op lane => exact execSavedCompletion_canon op lane s hc
  | teamRetire team => exact execTeamRetire_canon team s hc
  | launchRetire l => exact execLaunchRetire_canon l s hc
  | teardownRelease asid => exact execTeardownRelease_canon asid s hc
  | pinTimeout gid => exact execPinTimeout_canon gid s hc
  | retransmitTimeout txid => exact execRetransmitTimeout_canon txid s hc
  | reductionStep op slot => exact execReductionStep_canon op slot s hc
  | combineStep op n => exact execCombineStep_canon op n s hc
  | gatherServe op n => exact execGatherServe_canon op n s hc
  | dispatchPlacement op => exact execDispatchPlacement_canon op s hc
  | collectiveFinish op => exact execCollectiveFinish_canon op s hc
  | dispatchFinish op => exact execDispatchFinish_canon op s hc
  | doorbell page off data => exact execDoorbell_canon page off data s hc
  | doorbellApply n => exact execDoorbellApply_canon n s hc
  | bar2Write off data => exact execBar2Write_canon off data s hc
  | bar2Read off len => exact execBar2Read_canon off len s hc
  | msixUnmask vec => exact execMsixUnmask_canon vec s hc
  | hostReadCompletion rid status data => exact execHostReadCompletion_canon rid status data s hc
  | hostReadTimeout rid => exact execHostReadTimeout_canon rid s hc
  | registerWrite off data => exact execRegisterWrite_canon off data s hc
  | create asid fring => exact execCreate_canon asid fring s hc
  | karicHello port width pkt => exact execKaricHello_canon port width pkt s hc
  | portDegraded port => exact execPortDegraded_canon port s hc
  | linkFail port => exact execLinkFail_canon port s hc
  | portRestored port => exact execPortRestored_canon port s hc
  | l2UncorrectableError line => exact execL2UncorrectableError_canon line s hc
  | cleanLineError line => exact execCleanLineError_canon line s hc
  | hbmUncorrectableError line => exact execHbmUncorrectableError_canon line s hc
  | clockStepDown die => exact execClockStepDown_canon die s hc
  | clockStepUp die => exact execClockStepUp_canon die s hc
  | thermalLimit die => exact execThermalLimit_canon die s hc
  | illegalInstruction detail => exact execIllegalInstruction_canon detail s hc
  | runAheadFetch g n => exact execRunAheadFetch_canon g n s hc
  | correctedSoftError unit => exact execCorrectedSoftError_canon unit s hc
  | thermalLimitClear die => exact execThermalLimitClear_canon die s hc
  | watchReread g => exact execWatchReread_canon g s hc
  | fabricStartDelay => exact execFabricStartDelay_canon s hc
  | teardown => exact execTeardown_canon s hc
  | deschedule => exact execDeschedule_canon s hc
  | reschedule => exact execReschedule_canon s hc
  | pte => exact execPte_canon s hc
  | residency => exact execResidency_canon s hc
  | thresholds => exact execThresholds_canon s hc
  | ffring => exact execFfring_canon s hc
  | refill => exact execRefill_canon s hc
  | savepool => exact execSavepool_canon s hc
  | retired => exact execRetired_canon s hc
  | clearlost => exact execClearlost_canon s hc
  | aperture => exact execAperture_canon s hc
  | fabric => exact execFabric_canon s hc
  | counters => exact execCounters_canon s hc
  | power => exact execPower_canon s hc
  | attest => exact execAttest_canon s hc
  | fwupdate => exact execFwupdate_canon s hc
  | recoveryGo => exact execRecoveryGo_canon s hc
  | deviceReset => exact execDeviceReset_canon s hc
  | karicForward => exact execKaricForward_canon s hc
  | karicRdreq => exact execKaricRdreq_canon s hc
  | karicWr => exact execKaricWr_canon s hc
  | karicAtom => exact execKaricAtom_canon s hc
  | karicRdrsp => exact execKaricRdrsp_canon s hc
  | karicWrack => exact execKaricWrack_canon s hc
  | karicAtrsp => exact execKaricAtrsp_canon s hc
  | karicChack => exact execKaricChack_canon s hc
  | karicNack => exact execKaricNack_canon s hc
  | karicChunk => exact execKaricChunk_canon s hc
  | karicDisp => exact execKaricDisp_canon s hc
  | karicFlag => exact execKaricFlag_canon s hc
  | mgmtPin => exact execMgmtPin_canon s hc
  | mgmtPinans => exact execMgmtPinans_canon s hc
  | mgmtUnpin => exact execMgmtUnpin_canon s hc
  | mgmtCdesc => exact execMgmtCdesc_canon s hc
  | mgmtDdesc => exact execMgmtDdesc_canon s hc
  | mgmtCancel => exact execMgmtCancel_canon s hc
  | mgmtGather => exact execMgmtGather_canon s hc
  | mgmtWatch => exact execMgmtWatch_canon s hc
  | mgmtAdvanced => exact execMgmtAdvanced_canon s hc
  | thermalShutdown => exact execThermalShutdown_canon s hc

/-! ## Schedule -/

theorem State.wakePart_canon (s : State) (core part : Nat) (hc : s.Canon) : (State.wakePart s core part).Canon := by
  unfold State.wakePart
  repeat' with_reducible first
      | assumption | (simp only [State.canon_mk]; refine ⟨?_, ?_, ?_⟩) | apply State.Canon.mem | apply State.Canon.mbox | apply State.Canon.recWin

theorem afterIssue_canon {x : Issue} {op : Nat} {o : Host.Outcome State Fault Refusal} (h : OutCanon o) : OutCanon (afterIssue x op o) := by
  cases o <;> first | exact State.endIssue_canon _ _ _ h | exact trivial

theorem runFetched_canon (s : State) (x : Issue) (hc : s.Canon) : OutCanon (runFetched s x) := by
  unfold runFetched
  repeat' with_reducible first
      | assumption | apply State.commit_canon | apply State.illegal_canon | apply noteParks_canon | apply State.askRecord_canon
      | apply State.endIssue_canon | apply exec_canon | apply afterIssue_canon | apply OutCanon.next | split

theorem issueGroup_canon (s : State) (g : Group) (hc : s.Canon) : OutCanon (issueGroup s g) := by
  unfold issueGroup
  repeat' with_reducible first
      | assumption | apply State.beginIssue_canon | apply runFetched_canon

theorem State.noteSlot_canon (s : State) (core part : Nat) (hc : s.Canon) : (State.noteSlot s core part).Canon := by
  unfold State.noteSlot
  repeat' with_reducible first
      | assumption | apply State.noteQuad_canon | (simp only [State.canon_mk]; refine ⟨?_, ?_, ?_⟩) | apply State.Canon.mem | apply State.Canon.mbox
      | apply State.Canon.recWin

theorem State.askPart_canon (s : State) (core part : Nat) (hc : s.Canon) : (State.askPart s core part).Canon := by
  unfold State.askPart
  repeat' with_reducible first
      | assumption | apply State.askRecord_canon | intro _ | apply foldl_canon | split

theorem slotStep_canon (s : State) (core part : Nat) (hc : s.Canon) : OutCanon (slotStep s core part) := by
  unfold slotStep
  repeat' with_reducible first
      | assumption | apply State.askPart_canon | apply State.wakePart_canon | apply issueGroup_canon | apply State.noteSlot_canon
      | apply OutCanon.next | dsimp only | split

theorem State.tick_canon (s : State) (cycles0 cycles1 ns : Nat) (hc : s.Canon) : (State.tick s cycles0 cycles1 ns).Canon := by
  unfold State.tick
  repeat' with_reducible first
      | assumption | (simp only [State.canon_mk]; refine ⟨?_, ?_, ?_⟩) | apply State.Canon.mem | apply State.Canon.mbox | apply State.Canon.recWin

theorem happen_canon (s : State) (a0 : Happening) (hc : s.Canon) : OutCanon (happen s a0) := by
  unfold happen
  repeat' with_reducible first
      | assumption | apply State.dropLine_canon | apply State.arrayReads_canon | apply State.arrayWrites_canon | apply State.readBar0_canon
      | apply State.sizeBar2_canon | apply exec_canon | apply slotStep_canon | apply State.tick_canon | apply OutCanon.next
      | (simp only [State.canon_mk]; refine ⟨?_, ?_, ?_⟩) | apply State.Canon.mem | apply State.Canon.mbox | apply State.Canon.recWin | split

theorem firstStep_canon (s : State) (a0 : List Instr) (hc : s.Canon) : OptCanon (firstStep s a0) := by
  induction a0 generalizing s with
  | nil =>
    unfold firstStep
    repeat' with_reducible first
        | assumption | apply exec_canon | refine out_canon (by assumption) ?_ | apply OptCanon.some | exact OptCanon.none
  | cons x l ih =>
    unfold firstStep
    repeat' with_reducible first
        | assumption | apply ih | apply exec_canon | refine out_canon (by assumption) ?_ | apply OptCanon.some | exact OptCanon.none | split

theorem takenOr_canon {o : Option State} {d : Host.Outcome State Fault Refusal} (ho : OptCanon o) (hd : OutCanon d) : OutCanon (takenOr o d) := by
  cases o <;> first | exact ho | exact hd

theorem slotOr_canon {s : State} {x : Option (Nat × Nat)} {d : Host.Outcome State Fault Refusal} (hd : OutCanon d) (hc : s.Canon) : OutCanon (slotOr
    s x d) := by
  unfold slotOr
  split
  · exact slotStep_canon _ _ _ hc
  · exact hd

theorem State.ownStep_canon (s : State) (hc : s.Canon) : OptCanon (State.ownStep s) := by
  unfold State.ownStep
  repeat' with_reducible first
      | assumption | apply firstStep_canon

end Sys2Proof.Machine
end

