-- ==== Sys2Proof/Laws/Exec.lean ====
section
/-!
SUPPORT. `exec` of each constructor is the constructor's meaning (written by a generator from the arms of Machine/Dispatch.lean).
-/
namespace Sys2Proof.Machine
open Sys2Proof

@[simp] theorem exec_himm (i : BitVec 23) (s : State) : exec (.himm n) s = execHimm n s := rfl
@[simp] theorem exec_hdep (k : BitVec 16) (p : BitVec 2) (b : BitVec 1) (s : State) : exec (.hdep k p b) s = execHdep k p b s := rfl
@[simp] theorem exec_hmod (r : BitVec 3) (o : BitVec 1) (c : BitVec 3) (e : BitVec 3) (m : BitVec 2) (g : BitVec 1) (n : BitVec 1) (p : BitVec 3) (s : State) : exec (.hmod r o c e m g n p) s = execHmod r o c e m g n p s := rfl
@[simp] theorem exec_hsch (p : BitVec 3) (y : BitVec 1) (s : State) : exec (.hsch p y) s = execHsch p y s := rfl
@[simp] theorem exec_nop (st : Bool) (s : State) : exec (.nop st) s = execNop st s := rfl
@[simp] theorem exec_trap (st : Bool) (c : BitVec 16) (s : State) : exec (.trap st c) s = execTrap st c s := rfl
@[simp] theorem exec_sysrd (st : Bool) (d : BitVec 8) (n : BitVec 15) (s : State) : exec (.sysrd st d n) s = execSysrd st d n s := rfl
@[simp] theorem exec_syswr (st : Bool) (d : BitVec 8) (n : BitVec 15) (s : State) : exec (.syswr st d n) s = execSyswr st d n s := rfl
@[simp] theorem exec_perf (st : Bool) (d : BitVec 8) (a : BitVec 8) (o : BitVec 3) (n : BitVec 4) (s : State) : exec (.perf st d a o n) s = execPerf st d a o n s := rfl
@[simp] theorem exec_drain (st : Bool) (k : BitVec 4) (m : BitVec 3) (s : State) : exec (.drain st k m) s = execDrain st k m s := rfl
@[simp] theorem exec_bra (st : Bool) (o : BitVec 23) (s : State) : exec (.bra st o) s = execBra st o s := rfl
@[simp] theorem exec_braQ0 (st : Bool) (o : BitVec 23) (s : State) : exec (.braQ0 st o) s = execBraQ0 st o s := rfl
@[simp] theorem exec_braNotQ0 (st : Bool) (o : BitVec 23) (s : State) : exec (.braNotQ0 st o) s = execBraNotQ0 st o s := rfl
@[simp] theorem exec_braQ1 (st : Bool) (o : BitVec 23) (s : State) : exec (.braQ1 st o) s = execBraQ1 st o s := rfl
@[simp] theorem exec_braNotQ1 (st : Bool) (o : BitVec 23) (s : State) : exec (.braNotQ1 st o) s = execBraNotQ1 st o s := rfl
@[simp] theorem exec_braQ2 (st : Bool) (o : BitVec 23) (s : State) : exec (.braQ2 st o) s = execBraQ2 st o s := rfl
@[simp] theorem exec_braNotQ2 (st : Bool) (o : BitVec 23) (s : State) : exec (.braNotQ2 st o) s = execBraNotQ2 st o s := rfl
@[simp] theorem exec_braQ3 (st : Bool) (o : BitVec 23) (s : State) : exec (.braQ3 st o) s = execBraQ3 st o s := rfl
@[simp] theorem exec_braNotQ3 (st : Bool) (o : BitVec 23) (s : State) : exec (.braNotQ3 st o) s = execBraNotQ3 st o s := rfl
@[simp] theorem exec_braP0 (st : Bool) (o : BitVec 23) (s : State) : exec (.braP0 st o) s = execBraP0 st o s := rfl
@[simp] theorem exec_braNotP0 (st : Bool) (o : BitVec 23) (s : State) : exec (.braNotP0 st o) s = execBraNotP0 st o s := rfl
@[simp] theorem exec_braP1 (st : Bool) (o : BitVec 23) (s : State) : exec (.braP1 st o) s = execBraP1 st o s := rfl
@[simp] theorem exec_call (st : Bool) (o : BitVec 23) (s : State) : exec (.call st o) s = execCall st o s := rfl
@[simp] theorem exec_ret (st : Bool) (s : State) : exec (.ret st) s = execRet st s := rfl
@[simp] theorem exec_loop (st : Bool) (a : BitVec 7) (i : BitVec 9) (s : State) : exec (.loop st a n) s = execLoop st a n s := rfl
@[simp] theorem exec_brk (st : Bool) (g : BitVec 2) (s : State) : exec (.brk st g) s = execBrk st g s := rfl
@[simp] theorem exec_brx (st : Bool) (a : BitVec 7) (g : BitVec 2) (s : State) : exec (.brx st a g) s = execBrx st a g s := rfl
@[simp] theorem exec_rcv (st : Bool) (s : State) : exec (.rcv st) s = execRcv st s := rfl
@[simp] theorem exec_yield (st : Bool) (s : State) : exec (.yield st) s = execYield st s := rfl
@[simp] theorem exec_exit (st : Bool) (g : BitVec 2) (s : State) : exec (.exit st g) s = execExit st g s := rfl
@[simp] theorem exec_plop (st : Bool) (f : BitVec 4) (p : BitVec 3) (q : BitVec 1) (a : BitVec 3) (b : BitVec 3) (g : BitVec 2) (s : State) : exec (.plop st f p q a b g) s = execPlop st f p q a b g s := rfl
@[simp] theorem exec_vote (st : Bool) (d : BitVec 7) (m : BitVec 2) (p : BitVec 3) (g : BitVec 2) (s : State) : exec (.vote st d m p g) s = execVote st d m p g s := rfl
@[simp] theorem exec_vtos (st : Bool) (l : BitVec 5) (a : BitVec 7) (d : BitVec 8) (s : State) : exec (.vtos st l a d) s = execVtos st l a d s := rfl
@[simp] theorem exec_iadd (st : Bool) (d : BitVec 7) (a : BitVec 7) (b : BitVec 7) (g : BitVec 2) (s : State) : exec (.iadd st d a b g) s = execIadd st d a b g s := rfl
@[simp] theorem exec_isub (st : Bool) (d : BitVec 7) (a : BitVec 7) (b : BitVec 7) (g : BitVec 2) (s : State) : exec (.isub st d a b g) s = execIsub st d a b g s := rfl
@[simp] theorem exec_imul (st : Bool) (d : BitVec 7) (a : BitVec 7) (b : BitVec 7) (g : BitVec 2) (s : State) : exec (.imul st d a b g) s = execImul st d a b g s := rfl
@[simp] theorem exec_imulh (st : Bool) (d : BitVec 7) (a : BitVec 7) (b : BitVec 7) (g : BitVec 2) (s : State) : exec (.imulh st d a b g) s = execImulh st d a b g s := rfl
@[simp] theorem exec_imad (st : Bool) (d : BitVec 7) (a : BitVec 7) (b : BitVec 7) (g : BitVec 2) (s : State) : exec (.imad st d a b g) s = execImad st d a b g s := rfl
@[simp] theorem exec_imin (st : Bool) (d : BitVec 7) (a : BitVec 7) (b : BitVec 7) (g : BitVec 2) (s : State) : exec (.imin st d a b g) s = execImin st d a b g s := rfl
@[simp] theorem exec_imax (st : Bool) (d : BitVec 7) (a : BitVec 7) (b : BitVec 7) (g : BitVec 2) (s : State) : exec (.imax st d a b g) s = execImax st d a b g s := rfl
@[simp] theorem exec_iabs (st : Bool) (d : BitVec 7) (a : BitVec 7) (g : BitVec 2) (s : State) : exec (.iabs st d a g) s = execIabs st d a g s := rfl
@[simp] theorem exec_ineg (st : Bool) (d : BitVec 7) (a : BitVec 7) (g : BitVec 2) (s : State) : exec (.ineg st d a g) s = execIneg st d a g s := rfl
@[simp] theorem exec_and (st : Bool) (d : BitVec 7) (a : BitVec 7) (b : BitVec 7) (g : BitVec 2) (s : State) : exec (.and st d a b g) s = execAnd st d a b g s := rfl
@[simp] theorem exec_or (st : Bool) (d : BitVec 7) (a : BitVec 7) (b : BitVec 7) (g : BitVec 2) (s : State) : exec (.or st d a b g) s = execOr st d a b g s := rfl
@[simp] theorem exec_xor (st : Bool) (d : BitVec 7) (a : BitVec 7) (b : BitVec 7) (g : BitVec 2) (s : State) : exec (.xor st d a b g) s = execXor st d a b g s := rfl
@[simp] theorem exec_not (st : Bool) (d : BitVec 7) (a : BitVec 7) (g : BitVec 2) (s : State) : exec (.not st d a g) s = execNot st d a g s := rfl
@[simp] theorem exec_shl (st : Bool) (d : BitVec 7) (a : BitVec 7) (b : BitVec 7) (g : BitVec 2) (s : State) : exec (.shl st d a b g) s = execShl st d a b g s := rfl
@[simp] theorem exec_shr (st : Bool) (d : BitVec 7) (a : BitVec 7) (b : BitVec 7) (g : BitVec 2) (s : State) : exec (.shr st d a b g) s = execShr st d a b g s := rfl
@[simp] theorem exec_sar (st : Bool) (d : BitVec 7) (a : BitVec 7) (b : BitVec 7) (g : BitVec 2) (s : State) : exec (.sar st d a b g) s = execSar st d a b g s := rfl
@[simp] theorem exec_popc (st : Bool) (d : BitVec 7) (a : BitVec 7) (g : BitVec 2) (s : State) : exec (.popc st d a g) s = execPopc st d a g s := rfl
@[simp] theorem exec_clz (st : Bool) (d : BitVec 7) (a : BitVec 7) (g : BitVec 2) (s : State) : exec (.clz st d a g) s = execClz st d a g s := rfl
@[simp] theorem exec_brev (st : Bool) (d : BitVec 7) (a : BitVec 7) (g : BitVec 2) (s : State) : exec (.brev st d a g) s = execBrev st d a g s := rfl
@[simp] theorem exec_bfe (st : Bool) (d : BitVec 7) (a : BitVec 7) (b : BitVec 7) (g : BitVec 2) (s : State) : exec (.bfe st d a b g) s = execBfe st d a b g s := rfl
@[simp] theorem exec_bfi (st : Bool) (d : BitVec 7) (a : BitVec 7) (b : BitVec 7) (g : BitVec 2) (s : State) : exec (.bfi st d a b g) s = execBfi st d a b g s := rfl
@[simp] theorem exec_sel (st : Bool) (d : BitVec 7) (a : BitVec 7) (b : BitVec 7) (p : BitVec 2) (s : State) : exec (.sel st d a b p) s = execSel st d a b p s := rfl
@[simp] theorem exec_mov (st : Bool) (d : BitVec 7) (a : BitVec 7) (g : BitVec 2) (s : State) : exec (.mov st d a g) s = execMov st d a g s := rfl
@[simp] theorem exec_icmp (st : Bool) (c : BitVec 4) (p : BitVec 3) (a : BitVec 7) (b : BitVec 7) (g : BitVec 2) (s : State) : exec (.icmp st c p a b g) s = execIcmp st c p a b g s := rfl
@[simp] theorem exec_lea (st : Bool) (d : BitVec 7) (a : BitVec 7) (b : BitVec 7) (g : BitVec 2) (s : State) : exec (.lea st d a b g) s = execLea st d a b g s := rfl
@[simp] theorem exec_iaddImm (st : Bool) (d : BitVec 7) (a : BitVec 7) (i : BitVec 9) (s : State) : exec (.iaddImm st d a n) s = execIaddImm st d a n s := rfl
@[simp] theorem exec_shlImm (st : Bool) (d : BitVec 7) (a : BitVec 7) (n : BitVec 5) (s : State) : exec (.shlImm st d a n) s = execShlImm st d a n s := rfl
@[simp] theorem exec_icmpImm (st : Bool) (c : BitVec 4) (p : BitVec 3) (a : BitVec 7) (i : BitVec 9) (s : State) : exec (.icmpImm st c p a n) s = execIcmpImm st c p a n s := rfl
@[simp] theorem exec_movi (st : Bool) (d : BitVec 7) (i : BitVec 16) (s : State) : exec (.movi st d n) s = execMovi st d n s := rfl
@[simp] theorem exec_iaddScalar (st : Bool) (d : BitVec 7) (a : BitVec 7) (b : BitVec 8) (g : BitVec 1) (s : State) : exec (.iaddScalar st d a b g) s = execIaddScalar st d a b g s := rfl
@[simp] theorem exec_movScalar (st : Bool) (d : BitVec 7) (b : BitVec 8) (g : BitVec 1) (s : State) : exec (.movScalar st d b g) s = execMovScalar st d b g s := rfl
@[simp] theorem exec_sadd (st : Bool) (d : BitVec 8) (a : BitVec 8) (b : BitVec 7) (s : State) : exec (.sadd st d a b) s = execSadd st d a b s := rfl
@[simp] theorem exec_saddImm (st : Bool) (d : BitVec 8) (a : BitVec 8) (i : BitVec 7) (s : State) : exec (.saddImm st d a n) s = execSaddImm st d a n s := rfl
@[simp] theorem exec_ssub (st : Bool) (d : BitVec 8) (a : BitVec 8) (b : BitVec 7) (s : State) : exec (.ssub st d a b) s = execSsub st d a b s := rfl
@[simp] theorem exec_smul (st : Bool) (d : BitVec 8) (a : BitVec 8) (b : BitVec 7) (s : State) : exec (.smul st d a b) s = execSmul st d a b s := rfl
@[simp] theorem exec_slogAnd (st : Bool) (d : BitVec 8) (a : BitVec 8) (b : BitVec 7) (s : State) : exec (.slogAnd st d a b) s = execSlogAnd st d a b s := rfl
@[simp] theorem exec_slogOr (st : Bool) (d : BitVec 8) (a : BitVec 8) (b : BitVec 7) (s : State) : exec (.slogOr st d a b) s = execSlogOr st d a b s := rfl
@[simp] theorem exec_slogXor (st : Bool) (d : BitVec 8) (a : BitVec 8) (b : BitVec 7) (s : State) : exec (.slogXor st d a b) s = execSlogXor st d a b s := rfl
@[simp] theorem exec_slogAndn (st : Bool) (d : BitVec 8) (a : BitVec 8) (b : BitVec 7) (s : State) : exec (.slogAndn st d a b) s = execSlogAndn st d a b s := rfl
@[simp] theorem exec_sshfShl (st : Bool) (d : BitVec 8) (a : BitVec 8) (b : BitVec 7) (s : State) : exec (.sshfShl st d a b) s = execSshfShl st d a b s := rfl
@[simp] theorem exec_sshfShr (st : Bool) (d : BitVec 8) (a : BitVec 8) (b : BitVec 7) (s : State) : exec (.sshfShr st d a b) s = execSshfShr st d a b s := rfl
@[simp] theorem exec_sshfSar (st : Bool) (d : BitVec 8) (a : BitVec 8) (b : BitVec 7) (s : State) : exec (.sshfSar st d a b) s = execSshfSar st d a b s := rfl
@[simp] theorem exec_sshfImm (st : Bool) (d : BitVec 8) (a : BitVec 8) (f : BitVec 2) (n : BitVec 5) (s : State) : exec (.sshfImm st d a f n) s = execSshfImm st d a f n s := rfl
@[simp] theorem exec_smov (st : Bool) (d : BitVec 8) (a : BitVec 8) (s : State) : exec (.smov st d a) s = execSmov st d a s := rfl
@[simp] theorem exec_smovi (st : Bool) (d : BitVec 8) (i : BitVec 15) (s : State) : exec (.smovi st d n) s = execSmovi st d n s := rfl
@[simp] theorem exec_scmp (st : Bool) (c : BitVec 4) (q : BitVec 2) (a : BitVec 8) (b : BitVec 7) (s : State) : exec (.scmp st c q a b) s = execScmp st c q a b s := rfl
@[simp] theorem exec_scmpImm (st : Bool) (c : BitVec 4) (q : BitVec 2) (a : BitVec 8) (i : BitVec 7) (s : State) : exec (.scmpImm st c q a n) s = execScmpImm st c q a n s := rfl
@[simp] theorem exec_fadd (st : Bool) (d : BitVec 7) (a : BitVec 7) (b : BitVec 7) (g : BitVec 2) (s : State) : exec (.fadd st d a b g) s = execFadd st d a b g s := rfl
@[simp] theorem exec_fsub (st : Bool) (d : BitVec 7) (a : BitVec 7) (b : BitVec 7) (g : BitVec 2) (s : State) : exec (.fsub st d a b g) s = execFsub st d a b g s := rfl
@[simp] theorem exec_fmul (st : Bool) (d : BitVec 7) (a : BitVec 7) (b : BitVec 7) (g : BitVec 2) (s : State) : exec (.fmul st d a b g) s = execFmul st d a b g s := rfl
@[simp] theorem exec_ffma (st : Bool) (d : BitVec 7) (a : BitVec 7) (b : BitVec 7) (g : BitVec 2) (s : State) : exec (.ffma st d a b g) s = execFfma st d a b g s := rfl
@[simp] theorem exec_fmin (st : Bool) (d : BitVec 7) (a : BitVec 7) (b : BitVec 7) (g : BitVec 2) (s : State) : exec (.fmin st d a b g) s = execFmin st d a b g s := rfl
@[simp] theorem exec_fmax (st : Bool) (d : BitVec 7) (a : BitVec 7) (b : BitVec 7) (g : BitVec 2) (s : State) : exec (.fmax st d a b g) s = execFmax st d a b g s := rfl
@[simp] theorem exec_fcmp (st : Bool) (c : BitVec 4) (p : BitVec 3) (a : BitVec 7) (b : BitVec 7) (g : BitVec 2) (s : State) : exec (.fcmp st c p a b g) s = execFcmp st c p a b g s := rfl
@[simp] theorem exec_frcp (st : Bool) (d : BitVec 7) (a : BitVec 7) (g : BitVec 2) (s : State) : exec (.frcp st d a g) s = execFrcp st d a g s := rfl
@[simp] theorem exec_frsq (st : Bool) (d : BitVec 7) (a : BitVec 7) (g : BitVec 2) (s : State) : exec (.frsq st d a g) s = execFrsq st d a g s := rfl
@[simp] theorem exec_fex2 (st : Bool) (d : BitVec 7) (a : BitVec 7) (g : BitVec 2) (s : State) : exec (.fex2 st d a g) s = execFex2 st d a g s := rfl
@[simp] theorem exec_flg2 (st : Bool) (d : BitVec 7) (a : BitVec 7) (g : BitVec 2) (s : State) : exec (.flg2 st d a g) s = execFlg2 st d a g s := rfl
@[simp] theorem exec_fcls (st : Bool) (d : BitVec 7) (a : BitVec 7) (g : BitVec 2) (s : State) : exec (.fcls st d a g) s = execFcls st d a g s := rfl
@[simp] theorem exec_frnd (st : Bool) (d : BitVec 7) (a : BitVec 7) (g : BitVec 2) (s : State) : exec (.frnd st d a g) s = execFrnd st d a g s := rfl
@[simp] theorem exec_hadd2 (st : Bool) (d : BitVec 7) (a : BitVec 7) (b : BitVec 7) (g : BitVec 2) (s : State) : exec (.hadd2 st d a b g) s = execHadd2 st d a b g s := rfl
@[simp] theorem exec_hmul2 (st : Bool) (d : BitVec 7) (a : BitVec 7) (b : BitVec 7) (g : BitVec 2) (s : State) : exec (.hmul2 st d a b g) s = execHmul2 st d a b g s := rfl
@[simp] theorem exec_hfma2 (st : Bool) (d : BitVec 7) (a : BitVec 7) (b : BitVec 7) (g : BitVec 2) (s : State) : exec (.hfma2 st d a b g) s = execHfma2 st d a b g s := rfl
@[simp] theorem exec_cvt (st : Bool) (d : BitVec 7) (a : BitVec 7) (e : BitVec 4) (f : BitVec 4) (s : State) : exec (.cvt st d a e f) s = execCvt st d a e f s := rfl
@[simp] theorem exec_pack (st : Bool) (d : BitVec 7) (a : BitVec 7) (f : BitVec 4) (n : BitVec 5) (s : State) : exec (.pack st d a f n) s = execPack st d a f n s := rfl
@[simp] theorem exec_unpk (st : Bool) (d : BitVec 7) (a : BitVec 7) (f : BitVec 4) (n : BitVec 5) (s : State) : exec (.unpk st d a f n) s = execUnpk st d a f n s := rfl
@[simp] theorem exec_qnt (st : Bool) (d : BitVec 7) (a : BitVec 7) (f : BitVec 4) (b : BitVec 2) (s : State) : exec (.qnt st d a f b) s = execQnt st d a f b s := rfl
@[simp] theorem exec_sclx (st : Bool) (d : BitVec 7) (a : BitVec 7) (b : BitVec 7) (g : BitVec 2) (s : State) : exec (.sclx st d a b g) s = execSclx st d a b g s := rfl
@[simp] theorem exec_dqntE4m3 (st : Bool) (d : BitVec 7) (a : BitVec 7) (b : BitVec 7) (c : BitVec 2) (s : State) : exec (.dqntE4m3 st d a b c) s = execDqntE4m3 st d a b c s := rfl
@[simp] theorem exec_dqntE5m2 (st : Bool) (d : BitVec 7) (a : BitVec 7) (b : BitVec 7) (c : BitVec 2) (s : State) : exec (.dqntE5m2 st d a b c) s = execDqntE5m2 st d a b c s := rfl
@[simp] theorem exec_dqntE2m3 (st : Bool) (d : BitVec 7) (a : BitVec 7) (b : BitVec 7) (c : BitVec 2) (s : State) : exec (.dqntE2m3 st d a b c) s = execDqntE2m3 st d a b c s := rfl
@[simp] theorem exec_dqntE3m2 (st : Bool) (d : BitVec 7) (a : BitVec 7) (b : BitVec 7) (c : BitVec 2) (s : State) : exec (.dqntE3m2 st d a b c) s = execDqntE3m2 st d a b c s := rfl
@[simp] theorem exec_dqntE2m1 (st : Bool) (d : BitVec 7) (a : BitVec 7) (b : BitVec 7) (c : BitVec 2) (s : State) : exec (.dqntE2m1 st d a b c) s = execDqntE2m1 st d a b c s := rfl
@[simp] theorem exec_dqntSx4 (st : Bool) (d : BitVec 7) (a : BitVec 7) (b : BitVec 7) (c : BitVec 2) (s : State) : exec (.dqntSx4 st d a b c) s = execDqntSx4 st d a b c s := rfl
@[simp] theorem exec_dqntI8 (st : Bool) (d : BitVec 7) (a : BitVec 7) (b : BitVec 7) (c : BitVec 2) (s : State) : exec (.dqntI8 st d a b c) s = execDqntI8 st d a b c s := rfl
@[simp] theorem exec_xpat (st : Bool) (d : BitVec 7) (a : BitVec 7) (n : BitVec 4) (s : State) : exec (.xpat st d a n) s = execXpat st d a n s := rfl
@[simp] theorem exec_xperm (st : Bool) (d : BitVec 7) (a : BitVec 7) (b : BitVec 7) (g : BitVec 2) (s : State) : exec (.xperm st d a b g) s = execXperm st d a b g s := rfl
@[simp] theorem exec_shfl (st : Bool) (d : BitVec 7) (a : BitVec 7) (m : BitVec 2) (n : BitVec 5) (s : State) : exec (.shfl st d a m n) s = execShfl st d a m n s := rfl
@[simp] theorem exec_scan (st : Bool) (d : BitVec 7) (a : BitVec 7) (o : BitVec 4) (f : BitVec 4) (x : BitVec 1) (s : State) : exec (.scan st d a o f x) s = execScan st d a o f x s := rfl
@[simp] theorem exec_rdx (st : Bool) (d : BitVec 7) (a : BitVec 7) (o : BitVec 4) (f : BitVec 4) (s : State) : exec (.rdx st d a o f) s = execRdx st d a o f s := rfl
@[simp] theorem exec_ld (st : Bool) (d : BitVec 7) (a : BitVec 7) (k : BitVec 4) (z : BitVec 3) (g : BitVec 2) (s : State) : exec (.ld st d a k z g) s = execLd st d a k z g s := rfl
@[simp] theorem exec_st (st : Bool) (d : BitVec 7) (a : BitVec 7) (k : BitVec 4) (z : BitVec 3) (g : BitVec 2) (s : State) : exec (.st st d a k z g) s = execSt st d a k z g s := rfl
@[simp] theorem exec_lds (st : Bool) (d : BitVec 7) (a : BitVec 7) (z : BitVec 3) (g : BitVec 2) (s : State) : exec (.lds st d a z g) s = execLds st d a z g s := rfl
@[simp] theorem exec_sts (st : Bool) (d : BitVec 7) (a : BitVec 7) (z : BitVec 3) (g : BitVec 2) (s : State) : exec (.sts st d a z g) s = execSts st d a z g s := rfl
@[simp] theorem exec_atom (st : Bool) (d : BitVec 7) (a : BitVec 7) (k : BitVec 4) (r : BitVec 1) (w : BitVec 1) (o : BitVec 3) (s : State) : exec (.atom st d a k r w o) s = execAtom st d a k r w o s := rfl
@[simp] theorem exec_acas (st : Bool) (d : BitVec 7) (a : BitVec 7) (k : BitVec 4) (r : BitVec 1) (w : BitVec 1) (s : State) : exec (.acas st d a k r w) s = execAcas st d a k r w s := rfl
@[simp] theorem exec_prf (st : Bool) (l : BitVec 2) (a : BitVec 7) (z : BitVec 3) (g : BitVec 2) (s : State) : exec (.prf st l a z g) s = execPrf st l a z g s := rfl
@[simp] theorem exec_fence (st : Bool) (p : BitVec 3) (k : BitVec 2) (g : BitVec 2) (s : State) : exec (.fence st p k g) s = execFence st p k g s := rfl
@[simp] theorem exec_cflush (st : Bool) (o : BitVec 2) (a : BitVec 7) (k : BitVec 4) (z : BitVec 3) (g : BitVec 2) (s : State) : exec (.cflush st o a k z g) s = execCflush st o a k z g s := rfl
@[simp] theorem exec_ptst (st : Bool) (d : BitVec 7) (a : BitVec 7) (g : BitVec 2) (s : State) : exec (.ptst st d a g) s = execPtst st d a g s := rfl
@[simp] theorem exec_ldt (st : Bool) (d : BitVec 7) (a : BitVec 7) (k : BitVec 4) (g : BitVec 2) (s : State) : exec (.ldt st d a k g) s = execLdt st d a k g s := rfl
@[simp] theorem exec_stt (st : Bool) (d : BitVec 7) (a : BitVec 7) (k : BitVec 4) (g : BitVec 2) (s : State) : exec (.stt st d a k g) s = execStt st d a k g s := rfl
@[simp] theorem exec_wait (st : Bool) (q : BitVec 2) (e : BitVec 1) (k : BitVec 16) (y : BitVec 1) (t : BitVec 1) (b : BitVec 1) (s : State) : exec (.wait st q e k y t b) s = execWait st q e k y t b s := rfl
@[simp] theorem exec_waitc (st : Bool) (k : BitVec 4) (a : BitVec 8) (q : BitVec 2) (e : BitVec 1) (t : BitVec 1) (b : BitVec 1) (s : State) : exec (.waitc st k a q e t b) s = execWaitc st k a q e t b s := rfl
@[simp] theorem exec_tst (st : Bool) (k : BitVec 4) (d : BitVec 8) (b : BitVec 8) (w : BitVec 1) (s : State) : exec (.tst st k d b w) s = execTst st k d b w s := rfl
@[simp] theorem exec_tclr (st : Bool) (k : BitVec 16) (s : State) : exec (.tclr st k) s = execTclr st k s := rfl
@[simp] theorem exec_texp (st : Bool) (k : BitVec 4) (a : BitVec 8) (b : BitVec 8) (y : BitVec 1) (r : BitVec 1) (s : State) : exec (.texp st k a b y r) s = execTexp st k a b y r s := rfl
@[simp] theorem exec_binit (st : Bool) (k : BitVec 4) (a : BitVec 8) (b : BitVec 8) (s : State) : exec (.binit st k a b) s = execBinit st k a b s := rfl
@[simp] theorem exec_arv (st : Bool) (k : BitVec 4) (a : BitVec 8) (b : BitVec 8) (e : BitVec 1) (p : BitVec 1) (s : State) : exec (.arv st k a b e p) s = execArv st k a b e p s := rfl
@[simp] theorem exec_bwait (st : Bool) (q : BitVec 2) (e : BitVec 1) (a : BitVec 8) (b : BitVec 8) (t : BitVec 1) (p : BitVec 1) (s : State) : exec (.bwait st q e a b t p) s = execBwait st q e a b t p s := rfl
@[simp] theorem exec_bpoll (st : Bool) (q : BitVec 2) (a : BitVec 8) (b : BitVec 8) (s : State) : exec (.bpoll st q a b) s = execBpoll st q a b s := rfl
@[simp] theorem exec_cpy (st : Bool) (k : BitVec 4) (a : BitVec 8) (b : BitVec 8) (o : BitVec 1) (d : BitVec 1) (s : State) : exec (.cpy st k a b o d) s = execCpy st k a b o d s := rfl
@[simp] theorem exec_launch (st : Bool) (k : BitVec 4) (a : BitVec 8) (s : State) : exec (.launch st k a) s = execLaunch st k a s := rfl
@[simp] theorem exec_sacq (st : Bool) (d : BitVec 8) (n : BitVec 3) (s : State) : exec (.sacq st d n) s = execSacq st d n s := rfl
@[simp] theorem exec_spop (st : Bool) (d : BitVec 8) (c : BitVec 8) (n : BitVec 3) (s : State) : exec (.spop st d c n) s = execSpop st d c n s := rfl
@[simp] theorem exec_srel (st : Bool) (a : BitVec 8) (f : BitVec 1) (n : BitVec 3) (s : State) : exec (.srel st a f n) s = execSrel st a f n s := rfl
@[simp] theorem exec_kvld (st : Bool) (k : BitVec 4) (a : BitVec 8) (b : BitVec 8) (o : BitVec 1) (w : BitVec 1) (s : State) : exec (.kvld st k a b o w) s = execKvld st k a b o w s := rfl
@[simp] theorem exec_kvseal (st : Bool) (k : BitVec 4) (a : BitVec 8) (b : BitVec 8) (s : State) : exec (.kvseal st k a b) s = execKvseal st k a b s := rfl
@[simp] theorem exec_kvhdr (st : Bool) (k : BitVec 4) (a : BitVec 8) (b : BitVec 8) (s : State) : exec (.kvhdr st k a b) s = execKvhdr st k a b s := rfl
@[simp] theorem exec_coll (st : Bool) (k : BitVec 4) (a : BitVec 8) (b : BitVec 8) (s : State) : exec (.coll st k a b) s = execColl st k a b s := rfl
@[simp] theorem exec_mcst (st : Bool) (k : BitVec 4) (a : BitVec 8) (b : BitVec 8) (s : State) : exec (.mcst st k a b) s = execMcst st k a b s := rfl
@[simp] theorem exec_rte (st : Bool) (k : BitVec 4) (a : BitVec 8) (b : BitVec 8) (s : State) : exec (.rte st k a b) s = execRte st k a b s := rfl
@[simp] theorem exec_rtc (st : Bool) (k : BitVec 4) (a : BitVec 8) (b : BitVec 8) (s : State) : exec (.rtc st k a b) s = execRtc st k a b s := rfl
@[simp] theorem exec_mmaBf16 (st : Bool) (k : BitVec 4) (c : BitVec 5) (a : BitVec 7) (b : BitVec 7) (s : State) : exec (.mmaBf16 st k c a b) s = execMmaBf16 st k c a b s := rfl
@[simp] theorem exec_mmaF16 (st : Bool) (k : BitVec 4) (c : BitVec 5) (a : BitVec 7) (b : BitVec 7) (s : State) : exec (.mmaF16 st k c a b) s = execMmaF16 st k c a b s := rfl
@[simp] theorem exec_mmaE4m3 (st : Bool) (k : BitVec 4) (c : BitVec 5) (a : BitVec 7) (b : BitVec 7) (s : State) : exec (.mmaE4m3 st k c a b) s = execMmaE4m3 st k c a b s := rfl
@[simp] theorem exec_mmaE5m2 (st : Bool) (k : BitVec 4) (c : BitVec 5) (a : BitVec 7) (b : BitVec 7) (s : State) : exec (.mmaE5m2 st k c a b) s = execMmaE5m2 st k c a b s := rfl
@[simp] theorem exec_mmaE2m3 (st : Bool) (k : BitVec 4) (c : BitVec 5) (a : BitVec 7) (b : BitVec 7) (s : State) : exec (.mmaE2m3 st k c a b) s = execMmaE2m3 st k c a b s := rfl
@[simp] theorem exec_mmaE3m2 (st : Bool) (k : BitVec 4) (c : BitVec 5) (a : BitVec 7) (b : BitVec 7) (s : State) : exec (.mmaE3m2 st k c a b) s = execMmaE3m2 st k c a b s := rfl
@[simp] theorem exec_mmaI8 (st : Bool) (k : BitVec 4) (c : BitVec 5) (a : BitVec 7) (b : BitVec 7) (s : State) : exec (.mmaI8 st k c a b) s = execMmaI8 st k c a b s := rfl
@[simp] theorem exec_mmaE2m1 (st : Bool) (k : BitVec 4) (c : BitVec 5) (a : BitVec 7) (b : BitVec 7) (s : State) : exec (.mmaE2m1 st k c a b) s = execMmaE2m1 st k c a b s := rfl
@[simp] theorem exec_mmaSx4 (st : Bool) (k : BitVec 4) (c : BitVec 5) (a : BitVec 7) (b : BitVec 7) (s : State) : exec (.mmaSx4 st k c a b) s = execMmaSx4 st k c a b s := rfl
@[simp] theorem exec_acrel (st : Bool) (c : BitVec 5) (s : State) : exec (.acrel st c) s = execAcrel st c s := rfl
@[simp] theorem exec_acacq (st : Bool) (k : BitVec 4) (c : BitVec 5) (s : State) : exec (.acacq st k c) s = execAcacq st k c s := rfl
@[simp] theorem exec_acz (st : Bool) (c : BitVec 5) (s : State) : exec (.acz st c) s = execAcz st c s := rfl
@[simp] theorem exec_acrd (st : Bool) (c : BitVec 5) (d : BitVec 7) (b : BitVec 7) (s : State) : exec (.acrd st c d b) s = execAcrd st c d b s := rfl
@[simp] theorem exec_acwr (st : Bool) (c : BitVec 5) (a : BitVec 7) (b : BitVec 7) (s : State) : exec (.acwr st c a b) s = execAcwr st c a b s := rfl
@[simp] theorem exec_longResultLand (g : Nat) (lane : Nat) (s : State) : exec (.longResultLand g lane) s = execLongResultLand g lane s := rfl
@[simp] theorem exec_threadStarved (g : Nat) (lane : Nat) (s : State) : exec (.threadStarved g lane) s = execThreadStarved g lane s := rfl
@[simp] theorem exec_groupStarvationGuard (g : Nat) (s : State) : exec (.groupStarvationGuard g) s = execGroupStarvationGuard g s := rfl
@[simp] theorem exec_trapEntry (g : Nat) (lane : Nat) (s : State) : exec (.trapEntry g lane) s = execTrapEntry g lane s := rfl
@[simp] theorem exec_storeQueueDrain (g : Nat) (s : State) : exec (.storeQueueDrain g) s = execStoreQueueDrain g s := rfl
@[simp] theorem exec_memoryReply (op : Nat) (lane : Nat) (s : State) : exec (.memoryReply op lane) s = execMemoryReply op lane s := rfl
@[simp] theorem exec_tlbWalkReturn (clu : Nat) (asid : Nat) (va : Nat) (s : State) : exec (.tlbWalkReturn clu asid va) s = execTlbWalkReturn clu asid va s := rfl
@[simp] theorem exec_lightFaultService (asid : Nat) (va : Nat) (s : State) : exec (.lightFaultService asid va) s = execLightFaultService asid va s := rfl
@[simp] theorem exec_migration (asid : Nat) (va : Nat) (frame : Nat) (s : State) : exec (.migration asid va frame) s = execMigration asid va frame s := rfl
@[simp] theorem exec_migrationSwapOut (team : Nat) (s : State) : exec (.migrationSwapOut team) s = execMigrationSwapOut team s := rfl
@[simp] theorem exec_engineCommandStart (op : Nat) (s : State) : exec (.engineCommandStart op) s = execEngineCommandStart op s := rfl
@[simp] theorem exec_chunkLand (op : Nat) (i : Nat) (s : State) : exec (.chunkLand op n) s = execChunkLand op n s := rfl
@[simp] theorem exec_copyFinish (op : Nat) (s : State) : exec (.copyFinish op) s = execCopyFinish op s := rfl
@[simp] theorem exec_ldtRetry (op : Nat) (lane : Nat) (s : State) : exec (.ldtRetry op lane) s = execLdtRetry op lane s := rfl
@[simp] theorem exec_sttProgress (op : Nat) (lane : Nat) (s : State) : exec (.sttProgress op lane) s = execSttProgress op lane s := rfl
@[simp] theorem exec_mmaStart (op : Nat) (s : State) : exec (.mmaStart op) s = execMmaStart op s := rfl
@[simp] theorem exec_mmaFinish (op : Nat) (s : State) : exec (.mmaFinish op) s = execMmaFinish op s := rfl
@[simp] theorem exec_acacqFinish (op : Nat) (s : State) : exec (.acacqFinish op) s = execAcacqFinish op s := rfl
@[simp] theorem exec_kvConversion (frame : Nat) (half : Nat) (s : State) : exec (.kvConversion frame half) s = execKvConversion frame half s := rfl
@[simp] theorem exec_kvPairing (asid : Nat) (vp : Nat) (vq : Nat) (s : State) : exec (.kvPairing asid vp vq) s = execKvPairing asid vp vq s := rfl
@[simp] theorem exec_kvldRetry (op : Nat) (s : State) : exec (.kvldRetry op) s = execKvldRetry op s := rfl
@[simp] theorem exec_kvhdrRefill (op : Nat) (s : State) : exec (.kvhdrRefill op) s = execKvhdrRefill op s := rfl
@[simp] theorem exec_barrierUpdate (n : Nat) (s : State) : exec (.barrierUpdate n) s = execBarrierUpdate n s := rfl
@[simp] theorem exec_quiescenceTimer (op : Nat) (s : State) : exec (.quiescenceTimer op) s = execQuiescenceTimer op s := rfl
@[simp] theorem exec_launchValidation (l : Nat) (s : State) : exec (.launchValidation l) s = execLaunchValidation l s := rfl
@[simp] theorem exec_launchPreconditionsHeld (l : Nat) (s : State) : exec (.launchPreconditionsHeld l) s = execLaunchPreconditionsHeld l s := rfl
@[simp] theorem exec_leasePin (l : Nat) (s : State) : exec (.leasePin l) s = execLeasePin l s := rfl
@[simp] theorem exec_placementDecision (die : Nat) (s : State) : exec (.placementDecision die) s = execPlacementDecision die s := rfl
@[simp] theorem exec_reservation (die : Nat) (s : State) : exec (.reservation die) s = execReservation die s := rfl
@[simp] theorem exec_reservationAnswer (die : Nat) (s : State) : exec (.reservationAnswer die) s = execReservationAnswer die s := rfl
@[simp] theorem exec_preemption (l : Nat) (s : State) : exec (.preemption l) s = execPreemption l s := rfl
@[simp] theorem exec_unplaceableLog (l : Nat) (s : State) : exec (.unplaceableLog l) s = execUnplaceableLog l s := rfl
@[simp] theorem exec_forcedFullSave (team : Nat) (s : State) : exec (.forcedFullSave team) s = execForcedFullSave team s := rfl
@[simp] theorem exec_teamSave (team : Nat) (s : State) : exec (.teamSave team) s = execTeamSave team s := rfl
@[simp] theorem exec_saveWatchdog (team : Nat) (s : State) : exec (.saveWatchdog team) s = execSaveWatchdog team s := rfl
@[simp] theorem exec_savedCompletion (op : Nat) (lane : Nat) (s : State) : exec (.savedCompletion op lane) s = execSavedCompletion op lane s := rfl
@[simp] theorem exec_teamRetire (team : Nat) (s : State) : exec (.teamRetire team) s = execTeamRetire team s := rfl
@[simp] theorem exec_launchRetire (l : Nat) (s : State) : exec (.launchRetire l) s = execLaunchRetire l s := rfl
@[simp] theorem exec_teardownRelease (asid : Nat) (s : State) : exec (.teardownRelease asid) s = execTeardownRelease asid s := rfl
@[simp] theorem exec_pinTimeout (gid : Nat) (s : State) : exec (.pinTimeout gid) s = execPinTimeout gid s := rfl
@[simp] theorem exec_retransmitTimeout (txid : Nat) (s : State) : exec (.retransmitTimeout txid) s = execRetransmitTimeout txid s := rfl
@[simp] theorem exec_reductionStep (op : Nat) (slot : Nat) (s : State) : exec (.reductionStep op slot) s = execReductionStep op slot s := rfl
@[simp] theorem exec_combineStep (op : Nat) (i : Nat) (s : State) : exec (.combineStep op n) s = execCombineStep op n s := rfl
@[simp] theorem exec_gatherServe (op : Nat) (n : Nat) (s : State) : exec (.gatherServe op n) s = execGatherServe op n s := rfl
@[simp] theorem exec_dispatchPlacement (op : Nat) (s : State) : exec (.dispatchPlacement op) s = execDispatchPlacement op s := rfl
@[simp] theorem exec_collectiveFinish (op : Nat) (s : State) : exec (.collectiveFinish op) s = execCollectiveFinish op s := rfl
@[simp] theorem exec_dispatchFinish (op : Nat) (s : State) : exec (.dispatchFinish op) s = execDispatchFinish op s := rfl
@[simp] theorem exec_doorbell (page : Nat) (off : Nat) (data : Bytes) (s : State) : exec (.doorbell page off data) s = execDoorbell page off data s := rfl
@[simp] theorem exec_doorbellApply (n : Nat) (s : State) : exec (.doorbellApply n) s = execDoorbellApply n s := rfl
@[simp] theorem exec_bar2Write (off : Nat) (data : Bytes) (s : State) : exec (.bar2Write off data) s = execBar2Write off data s := rfl
@[simp] theorem exec_bar2Read (off : Nat) (len : Nat) (s : State) : exec (.bar2Read off len) s = execBar2Read off len s := rfl
@[simp] theorem exec_msixUnmask (vec : Nat) (s : State) : exec (.msixUnmask vec) s = execMsixUnmask vec s := rfl
@[simp] theorem exec_hostReadCompletion (rid : Nat) (status : Nat) (data : Bytes) (s : State) : exec (.hostReadCompletion rid status data) s = execHostReadCompletion rid status data s := rfl
@[simp] theorem exec_hostReadTimeout (rid : Nat) (s : State) : exec (.hostReadTimeout rid) s = execHostReadTimeout rid s := rfl
@[simp] theorem exec_registerWrite (off : Nat) (data : Bytes) (s : State) : exec (.registerWrite off data) s = execRegisterWrite off data s := rfl
@[simp] theorem exec_create (asid : Nat) (fring : Nat) (s : State) : exec (.create asid fring) s = execCreate asid fring s := rfl
@[simp] theorem exec_karicHello (port : Nat) (width : Nat) (pkt : Packet) (s : State) : exec (.karicHello port width pkt) s = execKaricHello port width pkt s := rfl
@[simp] theorem exec_portDegraded (port : Nat) (s : State) : exec (.portDegraded port) s = execPortDegraded port s := rfl
@[simp] theorem exec_linkFail (port : Nat) (s : State) : exec (.linkFail port) s = execLinkFail port s := rfl
@[simp] theorem exec_portRestored (port : Nat) (s : State) : exec (.portRestored port) s = execPortRestored port s := rfl
@[simp] theorem exec_l2UncorrectableError (line : Nat) (s : State) : exec (.l2UncorrectableError line) s = execL2UncorrectableError line s := rfl
@[simp] theorem exec_cleanLineError (line : Nat) (s : State) : exec (.cleanLineError line) s = execCleanLineError line s := rfl
@[simp] theorem exec_hbmUncorrectableError (line : Nat) (s : State) : exec (.hbmUncorrectableError line) s = execHbmUncorrectableError line s := rfl
@[simp] theorem exec_clockStepDown (die : Nat) (s : State) : exec (.clockStepDown die) s = execClockStepDown die s := rfl
@[simp] theorem exec_clockStepUp (die : Nat) (s : State) : exec (.clockStepUp die) s = execClockStepUp die s := rfl
@[simp] theorem exec_thermalLimit (die : Nat) (s : State) : exec (.thermalLimit die) s = execThermalLimit die s := rfl
@[simp] theorem exec_illegalInstruction (detail : Nat) (s : State) : exec (.illegalInstruction detail) s = execIllegalInstruction detail s := rfl
@[simp] theorem exec_runAheadFetch (g : Nat) (n : Nat) (s : State) : exec (.runAheadFetch g n) s = execRunAheadFetch g n s := rfl
@[simp] theorem exec_correctedSoftError (unit : Nat) (s : State) : exec (.correctedSoftError unit) s = execCorrectedSoftError unit s := rfl
@[simp] theorem exec_thermalLimitClear (die : Nat) (s : State) : exec (.thermalLimitClear die) s = execThermalLimitClear die s := rfl
@[simp] theorem exec_watchReread (g : Nat) (s : State) : exec (.watchReread g) s = execWatchReread g s := rfl
@[simp] theorem exec_fabricStartDelay (s : State) : exec (.fabricStartDelay) s = execFabricStartDelay s := rfl
@[simp] theorem exec_teardown (s : State) : exec (.teardown) s = execTeardown s := rfl
@[simp] theorem exec_deschedule (s : State) : exec (.deschedule) s = execDeschedule s := rfl
@[simp] theorem exec_reschedule (s : State) : exec (.reschedule) s = execReschedule s := rfl
@[simp] theorem exec_pte (s : State) : exec (.pte) s = execPte s := rfl
@[simp] theorem exec_residency (s : State) : exec (.residency) s = execResidency s := rfl
@[simp] theorem exec_thresholds (s : State) : exec (.thresholds) s = execThresholds s := rfl
@[simp] theorem exec_ffring (s : State) : exec (.ffring) s = execFfring s := rfl
@[simp] theorem exec_refill (s : State) : exec (.refill) s = execRefill s := rfl
@[simp] theorem exec_savepool (s : State) : exec (.savepool) s = execSavepool s := rfl
@[simp] theorem exec_retired (s : State) : exec (.retired) s = execRetired s := rfl
@[simp] theorem exec_clearlost (s : State) : exec (.clearlost) s = execClearlost s := rfl
@[simp] theorem exec_aperture (s : State) : exec (.aperture) s = execAperture s := rfl
@[simp] theorem exec_fabric (s : State) : exec (.fabric) s = execFabric s := rfl
@[simp] theorem exec_counters (s : State) : exec (.counters) s = execCounters s := rfl
@[simp] theorem exec_power (s : State) : exec (.power) s = execPower s := rfl
@[simp] theorem exec_attest (s : State) : exec (.attest) s = execAttest s := rfl
@[simp] theorem exec_fwupdate (s : State) : exec (.fwupdate) s = execFwupdate s := rfl
@[simp] theorem exec_recoveryGo (s : State) : exec (.recoveryGo) s = execRecoveryGo s := rfl
@[simp] theorem exec_deviceReset (s : State) : exec (.deviceReset) s = execDeviceReset s := rfl
@[simp] theorem exec_karicForward (s : State) : exec (.karicForward) s = execKaricForward s := rfl
@[simp] theorem exec_karicRdreq (s : State) : exec (.karicRdreq) s = execKaricRdreq s := rfl
@[simp] theorem exec_karicWr (s : State) : exec (.karicWr) s = execKaricWr s := rfl
@[simp] theorem exec_karicAtom (s : State) : exec (.karicAtom) s = execKaricAtom s := rfl
@[simp] theorem exec_karicRdrsp (s : State) : exec (.karicRdrsp) s = execKaricRdrsp s := rfl
@[simp] theorem exec_karicWrack (s : State) : exec (.karicWrack) s = execKaricWrack s := rfl
@[simp] theorem exec_karicAtrsp (s : State) : exec (.karicAtrsp) s = execKaricAtrsp s := rfl
@[simp] theorem exec_karicChack (s : State) : exec (.karicChack) s = execKaricChack s := rfl
@[simp] theorem exec_karicNack (s : State) : exec (.karicNack) s = execKaricNack s := rfl
@[simp] theorem exec_karicChunk (s : State) : exec (.karicChunk) s = execKaricChunk s := rfl
@[simp] theorem exec_karicDisp (s : State) : exec (.karicDisp) s = execKaricDisp s := rfl
@[simp] theorem exec_karicFlag (s : State) : exec (.karicFlag) s = execKaricFlag s := rfl
@[simp] theorem exec_mgmtPin (s : State) : exec (.mgmtPin) s = execMgmtPin s := rfl
@[simp] theorem exec_mgmtPinans (s : State) : exec (.mgmtPinans) s = execMgmtPinans s := rfl
@[simp] theorem exec_mgmtUnpin (s : State) : exec (.mgmtUnpin) s = execMgmtUnpin s := rfl
@[simp] theorem exec_mgmtCdesc (s : State) : exec (.mgmtCdesc) s = execMgmtCdesc s := rfl
@[simp] theorem exec_mgmtDdesc (s : State) : exec (.mgmtDdesc) s = execMgmtDdesc s := rfl
@[simp] theorem exec_mgmtCancel (s : State) : exec (.mgmtCancel) s = execMgmtCancel s := rfl
@[simp] theorem exec_mgmtGather (s : State) : exec (.mgmtGather) s = execMgmtGather s := rfl
@[simp] theorem exec_mgmtWatch (s : State) : exec (.mgmtWatch) s = execMgmtWatch s := rfl
@[simp] theorem exec_mgmtAdvanced (s : State) : exec (.mgmtAdvanced) s = execMgmtAdvanced s := rfl
@[simp] theorem exec_thermalShutdown (s : State) : exec (.thermalShutdown) s = execThermalShutdown s := rfl

end Sys2Proof.Machine
end

