-- ==== Sys2Proof/Laws/PerInstr.lean ====
section
/-!
SUPPORT. The encoding of every instruction, constructor by constructor (R78 to R97): its word fits in 32 bits and decodes to it; a step of the device has no word.
-/
namespace Sys2Proof.Laws.Encoding
open Sys2Proof

/-- The word of the instruction, if it has one, fits in 32 bits and decodes to the instruction. -/
def Statement (i : Instr) : Prop := ∀ w, encode i = some w → w < 2 ^ 32 ∧ decodeWord w = .ok i

/-- What a word is made of is read back from it: its opcode, its settle bit and every field of its payload. -/
theorem word_split {op P w : Nat} {st : Bool} (h : op * 2 ^ 23 + (if st then 2 ^ 31 else 0) + P = w) (ho : op < 256) (hP : P < 2 ^ 23) :
    w < 2 ^ 32 ∧ opcodeOf w = op ∧ bitOf w 31 = st ∧ ∀ lo n, lo + n ≤ 23 → w / 2 ^ lo % 2 ^ n = P / 2 ^ lo % 2 ^ n := by
  refine ⟨?_, ?_, ?_, fun lo n hl => ?_⟩
  · split at h <;> omega
  · unfold opcodeOf; split at h <;> omega
  · subst h; cases st <;> simp [bitOf] <;> omega
  · obtain ⟨k, hk⟩ : ∃ k, w = 2 ^ 23 * k + P := ⟨op + if st then 256 else 0, by split at h <;> simp_all <;> omega⟩
    obtain ⟨m, hm⟩ : ∃ m, 23 = lo + n + m := ⟨23 - lo - n, by omega⟩
    rw [hk, hm, Nat.pow_add, Nat.pow_add, show 2 ^ lo * 2 ^ n * 2 ^ m * k + P = P + 2 ^ lo * (2 ^ n * (2 ^ m * k)) by rw [Nat.add_comm]; simp only [Nat.mul_assoc],
      Nat.add_mul_div_left _ _ (Nat.two_pow_pos lo), Nat.add_mul_mod_self_left]

/-- A field read back. -/
theorem fld_eq {n w lo P : Nat} {x : BitVec n} (h : w / 2 ^ lo % 2 ^ n = P / 2 ^ lo % 2 ^ n) (hx : P / 2 ^ lo % 2 ^ n = x.toNat) : fld w lo n = x := by
  apply BitVec.eq_of_toNat_eq
  simp [fld, h, hx]

theorem himm (i : BitVec 23) : Statement (.himm i) := by
  intro w h
  have hb := i.isLt
  obtain ⟨h1, h2, h3, h4⟩ := word_split (Option.some.inj h) (by decide) (by simp only [putFields]; omega)
  simp only [putFields] at h4
  refine ⟨h1, ?_⟩
  simp only [decodeWord, h2, Nat.reduceDiv, Nat.reduceMod, decodeRow0, guardHint, h3,
    fld_eq (h4 0 23 (by decide)) (x := i) (by omega)]; rfl

theorem hdep (k : BitVec 16) (p : BitVec 2) (b : BitVec 1) : Statement (.hdep k p b) := by
  intro w h
  have hb := And.intro k.isLt (And.intro p.isLt b.isLt)
  obtain ⟨h1, h2, h3, h4⟩ := word_split (Option.some.inj h) (by decide) (by simp only [putFields]; omega)
  simp only [putFields] at h4
  refine ⟨h1, ?_⟩
  simp only [decodeWord, h2, Nat.reduceDiv, Nat.reduceMod, decodeRow0, guardHint, h3,
    fld_eq (h4 7 16 (by decide)) (x := k) (by omega),
    fld_eq (h4 5 2 (by decide)) (x := p) (by omega),
    fld_eq (h4 4 1 (by decide)) (x := b) (by omega),
    show bitsOf w 0 4 = 0 from (h4 0 4 (by decide)).trans (by omega)]; rfl

theorem hmod (r : BitVec 3) (o : BitVec 1) (c : BitVec 3) (e : BitVec 3) (m : BitVec 2) (g : BitVec 1) (n : BitVec 1) (p : BitVec 3) : Statement (.hmod r o c e m g n p) := by
  intro w h
  have hb := And.intro r.isLt (And.intro o.isLt (And.intro c.isLt (And.intro e.isLt (And.intro m.isLt (And.intro g.isLt (And.intro n.isLt p.isLt))))))
  obtain ⟨h1, h2, h3, h4⟩ := word_split (Option.some.inj h) (by decide) (by simp only [putFields]; omega)
  simp only [putFields] at h4
  refine ⟨h1, ?_⟩
  simp only [decodeWord, h2, Nat.reduceDiv, Nat.reduceMod, decodeRow0, guardHint, h3,
    fld_eq (h4 20 3 (by decide)) (x := r) (by omega),
    fld_eq (h4 19 1 (by decide)) (x := o) (by omega),
    fld_eq (h4 16 3 (by decide)) (x := c) (by omega),
    fld_eq (h4 13 3 (by decide)) (x := e) (by omega),
    fld_eq (h4 11 2 (by decide)) (x := m) (by omega),
    fld_eq (h4 10 1 (by decide)) (x := g) (by omega),
    fld_eq (h4 9 1 (by decide)) (x := n) (by omega),
    fld_eq (h4 6 3 (by decide)) (x := p) (by omega),
    show bitsOf w 0 6 = 0 from (h4 0 6 (by decide)).trans (by omega)]; rfl

theorem hsch (p : BitVec 3) (y : BitVec 1) : Statement (.hsch p y) := by
  intro w h
  have hb := And.intro p.isLt y.isLt
  obtain ⟨h1, h2, h3, h4⟩ := word_split (Option.some.inj h) (by decide) (by simp only [putFields]; omega)
  simp only [putFields] at h4
  refine ⟨h1, ?_⟩
  simp only [decodeWord, h2, Nat.reduceDiv, Nat.reduceMod, decodeRow0, guardHint, h3,
    fld_eq (h4 20 3 (by decide)) (x := p) (by omega),
    fld_eq (h4 19 1 (by decide)) (x := y) (by omega),
    show bitsOf w 0 19 = 0 from (h4 0 19 (by decide)).trans (by omega)]; rfl

theorem nop (st : Bool) : Statement (.nop st) := by
  intro w h
  obtain ⟨h1, h2, h3, h4⟩ := word_split (Option.some.inj h) (by decide) (by simp only [putFields]; omega)
  simp only [putFields] at h4
  refine ⟨h1, ?_⟩
  simp only [decodeWord, h2, Nat.reduceDiv, Nat.reduceMod, decodeRow0, guardZero, h3,
    show bitsOf w 0 23 = 0 from (h4 0 23 (by decide)).trans (by omega)]; rfl

theorem trap (st : Bool) (c : BitVec 16) : Statement (.trap st c) := by
  intro w h
  have hb := c.isLt
  obtain ⟨h1, h2, h3, h4⟩ := word_split (Option.some.inj h) (by decide) (by simp only [putFields]; omega)
  simp only [putFields] at h4
  refine ⟨h1, ?_⟩
  simp only [decodeWord, h2, Nat.reduceDiv, Nat.reduceMod, decodeRow0, guardZero, h3,
    fld_eq (h4 0 16 (by decide)) (x := c) (by omega),
    show bitsOf w 16 7 = 0 from (h4 16 7 (by decide)).trans (by omega)]; rfl

theorem sysrd (st : Bool) (d : BitVec 8) (n : BitVec 15) : Statement (.sysrd st d n) := by
  intro w h
  have hb := And.intro d.isLt n.isLt
  obtain ⟨h1, h2, h3, h4⟩ := word_split (Option.some.inj h) (by decide) (by simp only [putFields]; omega)
  simp only [putFields] at h4
  refine ⟨h1, ?_⟩
  simp only [decodeWord, h2, Nat.reduceDiv, Nat.reduceMod, decodeRow0, guardZero, h3,
    fld_eq (h4 15 8 (by decide)) (x := d) (by omega),
    fld_eq (h4 0 15 (by decide)) (x := n) (by omega)]; rfl

theorem syswr (st : Bool) (d : BitVec 8) (n : BitVec 15) : Statement (.syswr st d n) := by
  intro w h
  have hb := And.intro d.isLt n.isLt
  obtain ⟨h1, h2, h3, h4⟩ := word_split (Option.some.inj h) (by decide) (by simp only [putFields]; omega)
  simp only [putFields] at h4
  refine ⟨h1, ?_⟩
  simp only [decodeWord, h2, Nat.reduceDiv, Nat.reduceMod, decodeRow0, guardZero, h3,
    fld_eq (h4 15 8 (by decide)) (x := d) (by omega),
    fld_eq (h4 0 15 (by decide)) (x := n) (by omega)]; rfl

theorem perf (st : Bool) (d : BitVec 8) (a : BitVec 8) (o : BitVec 3) (n : BitVec 4) : Statement (.perf st d a o n) := by
  intro w h
  have hb := And.intro d.isLt (And.intro a.isLt (And.intro o.isLt n.isLt))
  obtain ⟨h1, h2, h3, h4⟩ := word_split (Option.some.inj h) (by decide) (by simp only [putFields]; omega)
  simp only [putFields] at h4
  refine ⟨h1, ?_⟩
  simp only [decodeWord, h2, Nat.reduceDiv, Nat.reduceMod, decodeRow0, guardZero, h3,
    fld_eq (h4 15 8 (by decide)) (x := d) (by omega),
    fld_eq (h4 7 8 (by decide)) (x := a) (by omega),
    fld_eq (h4 4 3 (by decide)) (x := o) (by omega),
    fld_eq (h4 0 4 (by decide)) (x := n) (by omega)]; rfl

theorem drain (st : Bool) (k : BitVec 4) (m : BitVec 3) : Statement (.drain st k m) := by
  intro w h
  have hb := And.intro k.isLt m.isLt
  obtain ⟨h1, h2, h3, h4⟩ := word_split (Option.some.inj h) (by decide) (by simp only [putFields]; omega)
  simp only [putFields] at h4
  refine ⟨h1, ?_⟩
  simp only [decodeWord, h2, Nat.reduceDiv, Nat.reduceMod, decodeRow0, guardZero, h3,
    fld_eq (h4 19 4 (by decide)) (x := k) (by omega),
    fld_eq (h4 0 3 (by decide)) (x := m) (by omega),
    show bitsOf w 3 16 = 0 from (h4 3 16 (by decide)).trans (by omega)]; rfl

theorem bra (st : Bool) (o : BitVec 23) : Statement (.bra st o) := by
  intro w h
  have hb := o.isLt
  obtain ⟨h1, h2, h3, h4⟩ := word_split (Option.some.inj h) (by decide) (by simp only [putFields]; omega)
  simp only [putFields] at h4
  refine ⟨h1, ?_⟩
  simp only [decodeWord, h2, Nat.reduceDiv, Nat.reduceMod, decodeRow1, guardZero, h3,
    fld_eq (h4 0 23 (by decide)) (x := o) (by omega)]; rfl

theorem braQ0 (st : Bool) (o : BitVec 23) : Statement (.braQ0 st o) := by
  intro w h
  have hb := o.isLt
  obtain ⟨h1, h2, h3, h4⟩ := word_split (Option.some.inj h) (by decide) (by simp only [putFields]; omega)
  simp only [putFields] at h4
  refine ⟨h1, ?_⟩
  simp only [decodeWord, h2, Nat.reduceDiv, Nat.reduceMod, decodeRow1, guardZero, h3,
    fld_eq (h4 0 23 (by decide)) (x := o) (by omega)]; rfl

theorem braNotQ0 (st : Bool) (o : BitVec 23) : Statement (.braNotQ0 st o) := by
  intro w h
  have hb := o.isLt
  obtain ⟨h1, h2, h3, h4⟩ := word_split (Option.some.inj h) (by decide) (by simp only [putFields]; omega)
  simp only [putFields] at h4
  refine ⟨h1, ?_⟩
  simp only [decodeWord, h2, Nat.reduceDiv, Nat.reduceMod, decodeRow1, guardZero, h3,
    fld_eq (h4 0 23 (by decide)) (x := o) (by omega)]; rfl

theorem braQ1 (st : Bool) (o : BitVec 23) : Statement (.braQ1 st o) := by
  intro w h
  have hb := o.isLt
  obtain ⟨h1, h2, h3, h4⟩ := word_split (Option.some.inj h) (by decide) (by simp only [putFields]; omega)
  simp only [putFields] at h4
  refine ⟨h1, ?_⟩
  simp only [decodeWord, h2, Nat.reduceDiv, Nat.reduceMod, decodeRow1, guardZero, h3,
    fld_eq (h4 0 23 (by decide)) (x := o) (by omega)]; rfl

theorem braNotQ1 (st : Bool) (o : BitVec 23) : Statement (.braNotQ1 st o) := by
  intro w h
  have hb := o.isLt
  obtain ⟨h1, h2, h3, h4⟩ := word_split (Option.some.inj h) (by decide) (by simp only [putFields]; omega)
  simp only [putFields] at h4
  refine ⟨h1, ?_⟩
  simp only [decodeWord, h2, Nat.reduceDiv, Nat.reduceMod, decodeRow1, guardZero, h3,
    fld_eq (h4 0 23 (by decide)) (x := o) (by omega)]; rfl

theorem braQ2 (st : Bool) (o : BitVec 23) : Statement (.braQ2 st o) := by
  intro w h
  have hb := o.isLt
  obtain ⟨h1, h2, h3, h4⟩ := word_split (Option.some.inj h) (by decide) (by simp only [putFields]; omega)
  simp only [putFields] at h4
  refine ⟨h1, ?_⟩
  simp only [decodeWord, h2, Nat.reduceDiv, Nat.reduceMod, decodeRow1, guardZero, h3,
    fld_eq (h4 0 23 (by decide)) (x := o) (by omega)]; rfl

theorem braNotQ2 (st : Bool) (o : BitVec 23) : Statement (.braNotQ2 st o) := by
  intro w h
  have hb := o.isLt
  obtain ⟨h1, h2, h3, h4⟩ := word_split (Option.some.inj h) (by decide) (by simp only [putFields]; omega)
  simp only [putFields] at h4
  refine ⟨h1, ?_⟩
  simp only [decodeWord, h2, Nat.reduceDiv, Nat.reduceMod, decodeRow1, guardZero, h3,
    fld_eq (h4 0 23 (by decide)) (x := o) (by omega)]; rfl

theorem braQ3 (st : Bool) (o : BitVec 23) : Statement (.braQ3 st o) := by
  intro w h
  have hb := o.isLt
  obtain ⟨h1, h2, h3, h4⟩ := word_split (Option.some.inj h) (by decide) (by simp only [putFields]; omega)
  simp only [putFields] at h4
  refine ⟨h1, ?_⟩
  simp only [decodeWord, h2, Nat.reduceDiv, Nat.reduceMod, decodeRow1, guardZero, h3,
    fld_eq (h4 0 23 (by decide)) (x := o) (by omega)]; rfl

theorem braNotQ3 (st : Bool) (o : BitVec 23) : Statement (.braNotQ3 st o) := by
  intro w h
  have hb := o.isLt
  obtain ⟨h1, h2, h3, h4⟩ := word_split (Option.some.inj h) (by decide) (by simp only [putFields]; omega)
  simp only [putFields] at h4
  refine ⟨h1, ?_⟩
  simp only [decodeWord, h2, Nat.reduceDiv, Nat.reduceMod, decodeRow1, guardZero, h3,
    fld_eq (h4 0 23 (by decide)) (x := o) (by omega)]; rfl

theorem braP0 (st : Bool) (o : BitVec 23) : Statement (.braP0 st o) := by
  intro w h
  have hb := o.isLt
  obtain ⟨h1, h2, h3, h4⟩ := word_split (Option.some.inj h) (by decide) (by simp only [putFields]; omega)
  simp only [putFields] at h4
  refine ⟨h1, ?_⟩
  simp only [decodeWord, h2, Nat.reduceDiv, Nat.reduceMod, decodeRow1, guardZero, h3,
    fld_eq (h4 0 23 (by decide)) (x := o) (by omega)]; rfl

theorem braNotP0 (st : Bool) (o : BitVec 23) : Statement (.braNotP0 st o) := by
  intro w h
  have hb := o.isLt
  obtain ⟨h1, h2, h3, h4⟩ := word_split (Option.some.inj h) (by decide) (by simp only [putFields]; omega)
  simp only [putFields] at h4
  refine ⟨h1, ?_⟩
  simp only [decodeWord, h2, Nat.reduceDiv, Nat.reduceMod, decodeRow1, guardZero, h3,
    fld_eq (h4 0 23 (by decide)) (x := o) (by omega)]; rfl

theorem braP1 (st : Bool) (o : BitVec 23) : Statement (.braP1 st o) := by
  intro w h
  have hb := o.isLt
  obtain ⟨h1, h2, h3, h4⟩ := word_split (Option.some.inj h) (by decide) (by simp only [putFields]; omega)
  simp only [putFields] at h4
  refine ⟨h1, ?_⟩
  simp only [decodeWord, h2, Nat.reduceDiv, Nat.reduceMod, decodeRow1, guardZero, h3,
    fld_eq (h4 0 23 (by decide)) (x := o) (by omega)]; rfl

theorem call (st : Bool) (o : BitVec 23) : Statement (.call st o) := by
  intro w h
  have hb := o.isLt
  obtain ⟨h1, h2, h3, h4⟩ := word_split (Option.some.inj h) (by decide) (by simp only [putFields]; omega)
  simp only [putFields] at h4
  refine ⟨h1, ?_⟩
  simp only [decodeWord, h2, Nat.reduceDiv, Nat.reduceMod, decodeRow1, guardZero, h3,
    fld_eq (h4 0 23 (by decide)) (x := o) (by omega)]; rfl

theorem ret (st : Bool) : Statement (.ret st) := by
  intro w h
  obtain ⟨h1, h2, h3, h4⟩ := word_split (Option.some.inj h) (by decide) (by simp only [putFields]; omega)
  simp only [putFields] at h4
  refine ⟨h1, ?_⟩
  simp only [decodeWord, h2, Nat.reduceDiv, Nat.reduceMod, decodeRow1, guardZero, h3,
    show bitsOf w 0 23 = 0 from (h4 0 23 (by decide)).trans (by omega)]; rfl

theorem loop (st : Bool) (a : BitVec 7) (i : BitVec 9) : Statement (.loop st a i) := by
  intro w h
  have hb := And.intro a.isLt i.isLt
  obtain ⟨h1, h2, h3, h4⟩ := word_split (Option.some.inj h) (by decide) (by simp only [putFields]; omega)
  simp only [putFields] at h4
  refine ⟨h1, ?_⟩
  simp only [decodeWord, h2, Nat.reduceDiv, Nat.reduceMod, decodeRow1, guardZero, h3,
    fld_eq (h4 9 7 (by decide)) (x := a) (by omega),
    fld_eq (h4 0 9 (by decide)) (x := i) (by omega),
    show bitsOf w 16 7 = 0 from (h4 16 7 (by decide)).trans (by omega)]; rfl

theorem brk (st : Bool) (g : BitVec 2) : Statement (.brk st g) := by
  intro w h
  have hb := g.isLt
  obtain ⟨h1, h2, h3, h4⟩ := word_split (Option.some.inj h) (by decide) (by simp only [putFields]; omega)
  simp only [putFields] at h4
  refine ⟨h1, ?_⟩
  simp only [decodeWord, h2, Nat.reduceDiv, Nat.reduceMod, decodeRow1, guardZero, h3,
    fld_eq (h4 0 2 (by decide)) (x := g) (by omega),
    show bitsOf w 2 21 = 0 from (h4 2 21 (by decide)).trans (by omega)]; rfl

theorem brx (st : Bool) (a : BitVec 7) (g : BitVec 2) : Statement (.brx st a g) := by
  intro w h
  have hb := And.intro a.isLt g.isLt
  obtain ⟨h1, h2, h3, h4⟩ := word_split (Option.some.inj h) (by decide) (by simp only [putFields]; omega)
  simp only [putFields] at h4
  refine ⟨h1, ?_⟩
  simp only [decodeWord, h2, Nat.reduceDiv, Nat.reduceMod, decodeRow2, guardZero, h3,
    fld_eq (h4 9 7 (by decide)) (x := a) (by omega),
    fld_eq (h4 0 2 (by decide)) (x := g) (by omega),
    show bitsOf w 2 7 = 0 from (h4 2 7 (by decide)).trans (by omega),
    show bitsOf w 16 7 = 0 from (h4 16 7 (by decide)).trans (by omega)]; rfl

theorem rcv (st : Bool) : Statement (.rcv st) := by
  intro w h
  obtain ⟨h1, h2, h3, h4⟩ := word_split (Option.some.inj h) (by decide) (by simp only [putFields]; omega)
  simp only [putFields] at h4
  refine ⟨h1, ?_⟩
  simp only [decodeWord, h2, Nat.reduceDiv, Nat.reduceMod, decodeRow2, guardZero, h3,
    show bitsOf w 0 23 = 0 from (h4 0 23 (by decide)).trans (by omega)]; rfl

theorem yield (st : Bool) : Statement (.yield st) := by
  intro w h
  obtain ⟨h1, h2, h3, h4⟩ := word_split (Option.some.inj h) (by decide) (by simp only [putFields]; omega)
  simp only [putFields] at h4
  refine ⟨h1, ?_⟩
  simp only [decodeWord, h2, Nat.reduceDiv, Nat.reduceMod, decodeRow2, guardZero, h3,
    show bitsOf w 0 23 = 0 from (h4 0 23 (by decide)).trans (by omega)]; rfl

theorem exit (st : Bool) (g : BitVec 2) : Statement (.exit st g) := by
  intro w h
  have hb := g.isLt
  obtain ⟨h1, h2, h3, h4⟩ := word_split (Option.some.inj h) (by decide) (by simp only [putFields]; omega)
  simp only [putFields] at h4
  refine ⟨h1, ?_⟩
  simp only [decodeWord, h2, Nat.reduceDiv, Nat.reduceMod, decodeRow2, guardZero, h3,
    fld_eq (h4 0 2 (by decide)) (x := g) (by omega),
    show bitsOf w 2 21 = 0 from (h4 2 21 (by decide)).trans (by omega)]; rfl

theorem plop (st : Bool) (f : BitVec 4) (p : BitVec 3) (q : BitVec 1) (a : BitVec 3) (b : BitVec 3) (g : BitVec 2) : Statement (.plop st f p q a b g) := by
  intro w h
  have hb := And.intro f.isLt (And.intro p.isLt (And.intro q.isLt (And.intro a.isLt (And.intro b.isLt g.isLt))))
  obtain ⟨h1, h2, h3, h4⟩ := word_split (Option.some.inj h) (by decide) (by simp only [putFields]; omega)
  simp only [putFields] at h4
  refine ⟨h1, ?_⟩
  simp only [decodeWord, h2, Nat.reduceDiv, Nat.reduceMod, decodeRow2, guardZero, h3,
    fld_eq (h4 19 4 (by decide)) (x := f) (by omega),
    fld_eq (h4 16 3 (by decide)) (x := p) (by omega),
    fld_eq (h4 15 1 (by decide)) (x := q) (by omega),
    fld_eq (h4 9 3 (by decide)) (x := a) (by omega),
    fld_eq (h4 2 3 (by decide)) (x := b) (by omega),
    fld_eq (h4 0 2 (by decide)) (x := g) (by omega),
    show bitsOf w 5 4 = 0 from (h4 5 4 (by decide)).trans (by omega),
    show bitsOf w 12 3 = 0 from (h4 12 3 (by decide)).trans (by omega)]; rfl

theorem vote (st : Bool) (d : BitVec 7) (m : BitVec 2) (p : BitVec 3) (g : BitVec 2) : Statement (.vote st d m p g) := by
  intro w h
  have hb := And.intro d.isLt (And.intro m.isLt (And.intro p.isLt g.isLt))
  obtain ⟨h1, h2, h3, h4⟩ := word_split (Option.some.inj h) (by decide) (by simp only [putFields]; omega)
  simp only [putFields] at h4
  refine ⟨h1, ?_⟩
  simp only [decodeWord, h2, Nat.reduceDiv, Nat.reduceMod, decodeRow2, guardZero, h3,
    fld_eq (h4 16 7 (by decide)) (x := d) (by omega),
    fld_eq (h4 7 2 (by decide)) (x := m) (by omega),
    fld_eq (h4 2 3 (by decide)) (x := p) (by omega),
    fld_eq (h4 0 2 (by decide)) (x := g) (by omega),
    show bitsOf w 5 2 = 0 from (h4 5 2 (by decide)).trans (by omega),
    show bitsOf w 9 7 = 0 from (h4 9 7 (by decide)).trans (by omega)]; rfl

theorem vtos (st : Bool) (l : BitVec 5) (a : BitVec 7) (d : BitVec 8) : Statement (.vtos st l a d) := by
  intro w h
  have hb := And.intro l.isLt (And.intro a.isLt d.isLt)
  obtain ⟨h1, h2, h3, h4⟩ := word_split (Option.some.inj h) (by decide) (by simp only [putFields]; omega)
  simp only [putFields] at h4
  refine ⟨h1, ?_⟩
  simp only [decodeWord, h2, Nat.reduceDiv, Nat.reduceMod, decodeRow2, guardZero, h3,
    fld_eq (h4 16 5 (by decide)) (x := l) (by omega),
    fld_eq (h4 9 7 (by decide)) (x := a) (by omega),
    fld_eq (h4 1 8 (by decide)) (x := d) (by omega),
    show bitsOf w 0 1 = 0 from (h4 0 1 (by decide)).trans (by omega),
    show bitsOf w 21 2 = 0 from (h4 21 2 (by decide)).trans (by omega)]; rfl

theorem iadd (st : Bool) (d : BitVec 7) (a : BitVec 7) (b : BitVec 7) (g : BitVec 2) : Statement (.iadd st d a b g) := by
  intro w h
  have hb := And.intro d.isLt (And.intro a.isLt (And.intro b.isLt g.isLt))
  obtain ⟨h1, h2, h3, h4⟩ := word_split (Option.some.inj h) (by decide) (by simp only [putFields]; omega)
  simp only [putFields] at h4
  refine ⟨h1, ?_⟩
  simp only [decodeWord, h2, Nat.reduceDiv, Nat.reduceMod, decodeRow3, guardZero, h3,
    fld_eq (h4 16 7 (by decide)) (x := d) (by omega),
    fld_eq (h4 9 7 (by decide)) (x := a) (by omega),
    fld_eq (h4 2 7 (by decide)) (x := b) (by omega),
    fld_eq (h4 0 2 (by decide)) (x := g) (by omega)]; rfl

theorem isub (st : Bool) (d : BitVec 7) (a : BitVec 7) (b : BitVec 7) (g : BitVec 2) : Statement (.isub st d a b g) := by
  intro w h
  have hb := And.intro d.isLt (And.intro a.isLt (And.intro b.isLt g.isLt))
  obtain ⟨h1, h2, h3, h4⟩ := word_split (Option.some.inj h) (by decide) (by simp only [putFields]; omega)
  simp only [putFields] at h4
  refine ⟨h1, ?_⟩
  simp only [decodeWord, h2, Nat.reduceDiv, Nat.reduceMod, decodeRow3, guardZero, h3,
    fld_eq (h4 16 7 (by decide)) (x := d) (by omega),
    fld_eq (h4 9 7 (by decide)) (x := a) (by omega),
    fld_eq (h4 2 7 (by decide)) (x := b) (by omega),
    fld_eq (h4 0 2 (by decide)) (x := g) (by omega)]; rfl

theorem imul (st : Bool) (d : BitVec 7) (a : BitVec 7) (b : BitVec 7) (g : BitVec 2) : Statement (.imul st d a b g) := by
  intro w h
  have hb := And.intro d.isLt (And.intro a.isLt (And.intro b.isLt g.isLt))
  obtain ⟨h1, h2, h3, h4⟩ := word_split (Option.some.inj h) (by decide) (by simp only [putFields]; omega)
  simp only [putFields] at h4
  refine ⟨h1, ?_⟩
  simp only [decodeWord, h2, Nat.reduceDiv, Nat.reduceMod, decodeRow3, guardZero, h3,
    fld_eq (h4 16 7 (by decide)) (x := d) (by omega),
    fld_eq (h4 9 7 (by decide)) (x := a) (by omega),
    fld_eq (h4 2 7 (by decide)) (x := b) (by omega),
    fld_eq (h4 0 2 (by decide)) (x := g) (by omega)]; rfl

theorem imulh (st : Bool) (d : BitVec 7) (a : BitVec 7) (b : BitVec 7) (g : BitVec 2) : Statement (.imulh st d a b g) := by
  intro w h
  have hb := And.intro d.isLt (And.intro a.isLt (And.intro b.isLt g.isLt))
  obtain ⟨h1, h2, h3, h4⟩ := word_split (Option.some.inj h) (by decide) (by simp only [putFields]; omega)
  simp only [putFields] at h4
  refine ⟨h1, ?_⟩
  simp only [decodeWord, h2, Nat.reduceDiv, Nat.reduceMod, decodeRow3, guardZero, h3,
    fld_eq (h4 16 7 (by decide)) (x := d) (by omega),
    fld_eq (h4 9 7 (by decide)) (x := a) (by omega),
    fld_eq (h4 2 7 (by decide)) (x := b) (by omega),
    fld_eq (h4 0 2 (by decide)) (x := g) (by omega)]; rfl

theorem imad (st : Bool) (d : BitVec 7) (a : BitVec 7) (b : BitVec 7) (g : BitVec 2) : Statement (.imad st d a b g) := by
  intro w h
  have hb := And.intro d.isLt (And.intro a.isLt (And.intro b.isLt g.isLt))
  obtain ⟨h1, h2, h3, h4⟩ := word_split (Option.some.inj h) (by decide) (by simp only [putFields]; omega)
  simp only [putFields] at h4
  refine ⟨h1, ?_⟩
  simp only [decodeWord, h2, Nat.reduceDiv, Nat.reduceMod, decodeRow3, guardZero, h3,
    fld_eq (h4 16 7 (by decide)) (x := d) (by omega),
    fld_eq (h4 9 7 (by decide)) (x := a) (by omega),
    fld_eq (h4 2 7 (by decide)) (x := b) (by omega),
    fld_eq (h4 0 2 (by decide)) (x := g) (by omega)]; rfl

theorem imin (st : Bool) (d : BitVec 7) (a : BitVec 7) (b : BitVec 7) (g : BitVec 2) : Statement (.imin st d a b g) := by
  intro w h
  have hb := And.intro d.isLt (And.intro a.isLt (And.intro b.isLt g.isLt))
  obtain ⟨h1, h2, h3, h4⟩ := word_split (Option.some.inj h) (by decide) (by simp only [putFields]; omega)
  simp only [putFields] at h4
  refine ⟨h1, ?_⟩
  simp only [decodeWord, h2, Nat.reduceDiv, Nat.reduceMod, decodeRow3, guardZero, h3,
    fld_eq (h4 16 7 (by decide)) (x := d) (by omega),
    fld_eq (h4 9 7 (by decide)) (x := a) (by omega),
    fld_eq (h4 2 7 (by decide)) (x := b) (by omega),
    fld_eq (h4 0 2 (by decide)) (x := g) (by omega)]; rfl

theorem imax (st : Bool) (d : BitVec 7) (a : BitVec 7) (b : BitVec 7) (g : BitVec 2) : Statement (.imax st d a b g) := by
  intro w h
  have hb := And.intro d.isLt (And.intro a.isLt (And.intro b.isLt g.isLt))
  obtain ⟨h1, h2, h3, h4⟩ := word_split (Option.some.inj h) (by decide) (by simp only [putFields]; omega)
  simp only [putFields] at h4
  refine ⟨h1, ?_⟩
  simp only [decodeWord, h2, Nat.reduceDiv, Nat.reduceMod, decodeRow3, guardZero, h3,
    fld_eq (h4 16 7 (by decide)) (x := d) (by omega),
    fld_eq (h4 9 7 (by decide)) (x := a) (by omega),
    fld_eq (h4 2 7 (by decide)) (x := b) (by omega),
    fld_eq (h4 0 2 (by decide)) (x := g) (by omega)]; rfl

theorem iabs (st : Bool) (d : BitVec 7) (a : BitVec 7) (g : BitVec 2) : Statement (.iabs st d a g) := by
  intro w h
  have hb := And.intro d.isLt (And.intro a.isLt g.isLt)
  obtain ⟨h1, h2, h3, h4⟩ := word_split (Option.some.inj h) (by decide) (by simp only [putFields]; omega)
  simp only [putFields] at h4
  refine ⟨h1, ?_⟩
  simp only [decodeWord, h2, Nat.reduceDiv, Nat.reduceMod, decodeRow3, guardZero, h3,
    fld_eq (h4 16 7 (by decide)) (x := d) (by omega),
    fld_eq (h4 9 7 (by decide)) (x := a) (by omega),
    fld_eq (h4 0 2 (by decide)) (x := g) (by omega),
    show bitsOf w 2 7 = 0 from (h4 2 7 (by decide)).trans (by omega)]; rfl

theorem ineg (st : Bool) (d : BitVec 7) (a : BitVec 7) (g : BitVec 2) : Statement (.ineg st d a g) := by
  intro w h
  have hb := And.intro d.isLt (And.intro a.isLt g.isLt)
  obtain ⟨h1, h2, h3, h4⟩ := word_split (Option.some.inj h) (by decide) (by simp only [putFields]; omega)
  simp only [putFields] at h4
  refine ⟨h1, ?_⟩
  simp only [decodeWord, h2, Nat.reduceDiv, Nat.reduceMod, decodeRow3, guardZero, h3,
    fld_eq (h4 16 7 (by decide)) (x := d) (by omega),
    fld_eq (h4 9 7 (by decide)) (x := a) (by omega),
    fld_eq (h4 0 2 (by decide)) (x := g) (by omega),
    show bitsOf w 2 7 = 0 from (h4 2 7 (by decide)).trans (by omega)]; rfl

theorem and (st : Bool) (d : BitVec 7) (a : BitVec 7) (b : BitVec 7) (g : BitVec 2) : Statement (.and st d a b g) := by
  intro w h
  have hb := And.intro d.isLt (And.intro a.isLt (And.intro b.isLt g.isLt))
  obtain ⟨h1, h2, h3, h4⟩ := word_split (Option.some.inj h) (by decide) (by simp only [putFields]; omega)
  simp only [putFields] at h4
  refine ⟨h1, ?_⟩
  simp only [decodeWord, h2, Nat.reduceDiv, Nat.reduceMod, decodeRow3, guardZero, h3,
    fld_eq (h4 16 7 (by decide)) (x := d) (by omega),
    fld_eq (h4 9 7 (by decide)) (x := a) (by omega),
    fld_eq (h4 2 7 (by decide)) (x := b) (by omega),
    fld_eq (h4 0 2 (by decide)) (x := g) (by omega)]; rfl

theorem or (st : Bool) (d : BitVec 7) (a : BitVec 7) (b : BitVec 7) (g : BitVec 2) : Statement (.or st d a b g) := by
  intro w h
  have hb := And.intro d.isLt (And.intro a.isLt (And.intro b.isLt g.isLt))
  obtain ⟨h1, h2, h3, h4⟩ := word_split (Option.some.inj h) (by decide) (by simp only [putFields]; omega)
  simp only [putFields] at h4
  refine ⟨h1, ?_⟩
  simp only [decodeWord, h2, Nat.reduceDiv, Nat.reduceMod, decodeRow3, guardZero, h3,
    fld_eq (h4 16 7 (by decide)) (x := d) (by omega),
    fld_eq (h4 9 7 (by decide)) (x := a) (by omega),
    fld_eq (h4 2 7 (by decide)) (x := b) (by omega),
    fld_eq (h4 0 2 (by decide)) (x := g) (by omega)]; rfl

theorem xor (st : Bool) (d : BitVec 7) (a : BitVec 7) (b : BitVec 7) (g : BitVec 2) : Statement (.xor st d a b g) := by
  intro w h
  have hb := And.intro d.isLt (And.intro a.isLt (And.intro b.isLt g.isLt))
  obtain ⟨h1, h2, h3, h4⟩ := word_split (Option.some.inj h) (by decide) (by simp only [putFields]; omega)
  simp only [putFields] at h4
  refine ⟨h1, ?_⟩
  simp only [decodeWord, h2, Nat.reduceDiv, Nat.reduceMod, decodeRow3, guardZero, h3,
    fld_eq (h4 16 7 (by decide)) (x := d) (by omega),
    fld_eq (h4 9 7 (by decide)) (x := a) (by omega),
    fld_eq (h4 2 7 (by decide)) (x := b) (by omega),
    fld_eq (h4 0 2 (by decide)) (x := g) (by omega)]; rfl

theorem not (st : Bool) (d : BitVec 7) (a : BitVec 7) (g : BitVec 2) : Statement (.not st d a g) := by
  intro w h
  have hb := And.intro d.isLt (And.intro a.isLt g.isLt)
  obtain ⟨h1, h2, h3, h4⟩ := word_split (Option.some.inj h) (by decide) (by simp only [putFields]; omega)
  simp only [putFields] at h4
  refine ⟨h1, ?_⟩
  simp only [decodeWord, h2, Nat.reduceDiv, Nat.reduceMod, decodeRow3, guardZero, h3,
    fld_eq (h4 16 7 (by decide)) (x := d) (by omega),
    fld_eq (h4 9 7 (by decide)) (x := a) (by omega),
    fld_eq (h4 0 2 (by decide)) (x := g) (by omega),
    show bitsOf w 2 7 = 0 from (h4 2 7 (by decide)).trans (by omega)]; rfl

theorem shl (st : Bool) (d : BitVec 7) (a : BitVec 7) (b : BitVec 7) (g : BitVec 2) : Statement (.shl st d a b g) := by
  intro w h
  have hb := And.intro d.isLt (And.intro a.isLt (And.intro b.isLt g.isLt))
  obtain ⟨h1, h2, h3, h4⟩ := word_split (Option.some.inj h) (by decide) (by simp only [putFields]; omega)
  simp only [putFields] at h4
  refine ⟨h1, ?_⟩
  simp only [decodeWord, h2, Nat.reduceDiv, Nat.reduceMod, decodeRow3, guardZero, h3,
    fld_eq (h4 16 7 (by decide)) (x := d) (by omega),
    fld_eq (h4 9 7 (by decide)) (x := a) (by omega),
    fld_eq (h4 2 7 (by decide)) (x := b) (by omega),
    fld_eq (h4 0 2 (by decide)) (x := g) (by omega)]; rfl

theorem shr (st : Bool) (d : BitVec 7) (a : BitVec 7) (b : BitVec 7) (g : BitVec 2) : Statement (.shr st d a b g) := by
  intro w h
  have hb := And.intro d.isLt (And.intro a.isLt (And.intro b.isLt g.isLt))
  obtain ⟨h1, h2, h3, h4⟩ := word_split (Option.some.inj h) (by decide) (by simp only [putFields]; omega)
  simp only [putFields] at h4
  refine ⟨h1, ?_⟩
  simp only [decodeWord, h2, Nat.reduceDiv, Nat.reduceMod, decodeRow3, guardZero, h3,
    fld_eq (h4 16 7 (by decide)) (x := d) (by omega),
    fld_eq (h4 9 7 (by decide)) (x := a) (by omega),
    fld_eq (h4 2 7 (by decide)) (x := b) (by omega),
    fld_eq (h4 0 2 (by decide)) (x := g) (by omega)]; rfl

theorem sar (st : Bool) (d : BitVec 7) (a : BitVec 7) (b : BitVec 7) (g : BitVec 2) : Statement (.sar st d a b g) := by
  intro w h
  have hb := And.intro d.isLt (And.intro a.isLt (And.intro b.isLt g.isLt))
  obtain ⟨h1, h2, h3, h4⟩ := word_split (Option.some.inj h) (by decide) (by simp only [putFields]; omega)
  simp only [putFields] at h4
  refine ⟨h1, ?_⟩
  simp only [decodeWord, h2, Nat.reduceDiv, Nat.reduceMod, decodeRow3, guardZero, h3,
    fld_eq (h4 16 7 (by decide)) (x := d) (by omega),
    fld_eq (h4 9 7 (by decide)) (x := a) (by omega),
    fld_eq (h4 2 7 (by decide)) (x := b) (by omega),
    fld_eq (h4 0 2 (by decide)) (x := g) (by omega)]; rfl

theorem popc (st : Bool) (d : BitVec 7) (a : BitVec 7) (g : BitVec 2) : Statement (.popc st d a g) := by
  intro w h
  have hb := And.intro d.isLt (And.intro a.isLt g.isLt)
  obtain ⟨h1, h2, h3, h4⟩ := word_split (Option.some.inj h) (by decide) (by simp only [putFields]; omega)
  simp only [putFields] at h4
  refine ⟨h1, ?_⟩
  simp only [decodeWord, h2, Nat.reduceDiv, Nat.reduceMod, decodeRow4, guardZero, h3,
    fld_eq (h4 16 7 (by decide)) (x := d) (by omega),
    fld_eq (h4 9 7 (by decide)) (x := a) (by omega),
    fld_eq (h4 0 2 (by decide)) (x := g) (by omega),
    show bitsOf w 2 7 = 0 from (h4 2 7 (by decide)).trans (by omega)]; rfl

theorem clz (st : Bool) (d : BitVec 7) (a : BitVec 7) (g : BitVec 2) : Statement (.clz st d a g) := by
  intro w h
  have hb := And.intro d.isLt (And.intro a.isLt g.isLt)
  obtain ⟨h1, h2, h3, h4⟩ := word_split (Option.some.inj h) (by decide) (by simp only [putFields]; omega)
  simp only [putFields] at h4
  refine ⟨h1, ?_⟩
  simp only [decodeWord, h2, Nat.reduceDiv, Nat.reduceMod, decodeRow4, guardZero, h3,
    fld_eq (h4 16 7 (by decide)) (x := d) (by omega),
    fld_eq (h4 9 7 (by decide)) (x := a) (by omega),
    fld_eq (h4 0 2 (by decide)) (x := g) (by omega),
    show bitsOf w 2 7 = 0 from (h4 2 7 (by decide)).trans (by omega)]; rfl

theorem brev (st : Bool) (d : BitVec 7) (a : BitVec 7) (g : BitVec 2) : Statement (.brev st d a g) := by
  intro w h
  have hb := And.intro d.isLt (And.intro a.isLt g.isLt)
  obtain ⟨h1, h2, h3, h4⟩ := word_split (Option.some.inj h) (by decide) (by simp only [putFields]; omega)
  simp only [putFields] at h4
  refine ⟨h1, ?_⟩
  simp only [decodeWord, h2, Nat.reduceDiv, Nat.reduceMod, decodeRow4, guardZero, h3,
    fld_eq (h4 16 7 (by decide)) (x := d) (by omega),
    fld_eq (h4 9 7 (by decide)) (x := a) (by omega),
    fld_eq (h4 0 2 (by decide)) (x := g) (by omega),
    show bitsOf w 2 7 = 0 from (h4 2 7 (by decide)).trans (by omega)]; rfl

theorem bfe (st : Bool) (d : BitVec 7) (a : BitVec 7) (b : BitVec 7) (g : BitVec 2) : Statement (.bfe st d a b g) := by
  intro w h
  have hb := And.intro d.isLt (And.intro a.isLt (And.intro b.isLt g.isLt))
  obtain ⟨h1, h2, h3, h4⟩ := word_split (Option.some.inj h) (by decide) (by simp only [putFields]; omega)
  simp only [putFields] at h4
  refine ⟨h1, ?_⟩
  simp only [decodeWord, h2, Nat.reduceDiv, Nat.reduceMod, decodeRow4, guardZero, h3,
    fld_eq (h4 16 7 (by decide)) (x := d) (by omega),
    fld_eq (h4 9 7 (by decide)) (x := a) (by omega),
    fld_eq (h4 2 7 (by decide)) (x := b) (by omega),
    fld_eq (h4 0 2 (by decide)) (x := g) (by omega)]; rfl

theorem bfi (st : Bool) (d : BitVec 7) (a : BitVec 7) (b : BitVec 7) (g : BitVec 2) : Statement (.bfi st d a b g) := by
  intro w h
  have hb := And.intro d.isLt (And.intro a.isLt (And.intro b.isLt g.isLt))
  obtain ⟨h1, h2, h3, h4⟩ := word_split (Option.some.inj h) (by decide) (by simp only [putFields]; omega)
  simp only [putFields] at h4
  refine ⟨h1, ?_⟩
  simp only [decodeWord, h2, Nat.reduceDiv, Nat.reduceMod, decodeRow4, guardZero, h3,
    fld_eq (h4 16 7 (by decide)) (x := d) (by omega),
    fld_eq (h4 9 7 (by decide)) (x := a) (by omega),
    fld_eq (h4 2 7 (by decide)) (x := b) (by omega),
    fld_eq (h4 0 2 (by decide)) (x := g) (by omega)]; rfl

theorem sel (st : Bool) (d : BitVec 7) (a : BitVec 7) (b : BitVec 7) (p : BitVec 2) : Statement (.sel st d a b p) := by
  intro w h
  have hb := And.intro d.isLt (And.intro a.isLt (And.intro b.isLt p.isLt))
  obtain ⟨h1, h2, h3, h4⟩ := word_split (Option.some.inj h) (by decide) (by simp only [putFields]; omega)
  simp only [putFields] at h4
  refine ⟨h1, ?_⟩
  simp only [decodeWord, h2, Nat.reduceDiv, Nat.reduceMod, decodeRow4, guardZero, h3,
    fld_eq (h4 16 7 (by decide)) (x := d) (by omega),
    fld_eq (h4 9 7 (by decide)) (x := a) (by omega),
    fld_eq (h4 2 7 (by decide)) (x := b) (by omega),
    fld_eq (h4 0 2 (by decide)) (x := p) (by omega)]; rfl

theorem mov (st : Bool) (d : BitVec 7) (a : BitVec 7) (g : BitVec 2) : Statement (.mov st d a g) := by
  intro w h
  have hb := And.intro d.isLt (And.intro a.isLt g.isLt)
  obtain ⟨h1, h2, h3, h4⟩ := word_split (Option.some.inj h) (by decide) (by simp only [putFields]; omega)
  simp only [putFields] at h4
  refine ⟨h1, ?_⟩
  simp only [decodeWord, h2, Nat.reduceDiv, Nat.reduceMod, decodeRow4, guardZero, h3,
    fld_eq (h4 16 7 (by decide)) (x := d) (by omega),
    fld_eq (h4 9 7 (by decide)) (x := a) (by omega),
    fld_eq (h4 0 2 (by decide)) (x := g) (by omega),
    show bitsOf w 2 7 = 0 from (h4 2 7 (by decide)).trans (by omega)]; rfl

theorem icmp (st : Bool) (c : BitVec 4) (p : BitVec 3) (a : BitVec 7) (b : BitVec 7) (g : BitVec 2) : Statement (.icmp st c p a b g) := by
  intro w h
  have hb := And.intro c.isLt (And.intro p.isLt (And.intro a.isLt (And.intro b.isLt g.isLt)))
  obtain ⟨h1, h2, h3, h4⟩ := word_split (Option.some.inj h) (by decide) (by simp only [putFields]; omega)
  simp only [putFields] at h4
  refine ⟨h1, ?_⟩
  simp only [decodeWord, h2, Nat.reduceDiv, Nat.reduceMod, decodeRow4, guardZero, h3,
    fld_eq (h4 19 4 (by decide)) (x := c) (by omega),
    fld_eq (h4 16 3 (by decide)) (x := p) (by omega),
    fld_eq (h4 9 7 (by decide)) (x := a) (by omega),
    fld_eq (h4 2 7 (by decide)) (x := b) (by omega),
    fld_eq (h4 0 2 (by decide)) (x := g) (by omega)]; rfl

theorem lea (st : Bool) (d : BitVec 7) (a : BitVec 7) (b : BitVec 7) (g : BitVec 2) : Statement (.lea st d a b g) := by
  intro w h
  have hb := And.intro d.isLt (And.intro a.isLt (And.intro b.isLt g.isLt))
  obtain ⟨h1, h2, h3, h4⟩ := word_split (Option.some.inj h) (by decide) (by simp only [putFields]; omega)
  simp only [putFields] at h4
  refine ⟨h1, ?_⟩
  simp only [decodeWord, h2, Nat.reduceDiv, Nat.reduceMod, decodeRow4, guardZero, h3,
    fld_eq (h4 16 7 (by decide)) (x := d) (by omega),
    fld_eq (h4 9 7 (by decide)) (x := a) (by omega),
    fld_eq (h4 2 7 (by decide)) (x := b) (by omega),
    fld_eq (h4 0 2 (by decide)) (x := g) (by omega)]; rfl

theorem iaddImm (st : Bool) (d : BitVec 7) (a : BitVec 7) (i : BitVec 9) : Statement (.iaddImm st d a i) := by
  intro w h
  have hb := And.intro d.isLt (And.intro a.isLt i.isLt)
  obtain ⟨h1, h2, h3, h4⟩ := word_split (Option.some.inj h) (by decide) (by simp only [putFields]; omega)
  simp only [putFields] at h4
  refine ⟨h1, ?_⟩
  simp only [decodeWord, h2, Nat.reduceDiv, Nat.reduceMod, decodeRow4, guardZero, h3,
    fld_eq (h4 16 7 (by decide)) (x := d) (by omega),
    fld_eq (h4 9 7 (by decide)) (x := a) (by omega),
    fld_eq (h4 0 9 (by decide)) (x := i) (by omega)]; rfl

theorem shlImm (st : Bool) (d : BitVec 7) (a : BitVec 7) (n : BitVec 5) : Statement (.shlImm st d a n) := by
  intro w h
  have hb := And.intro d.isLt (And.intro a.isLt n.isLt)
  obtain ⟨h1, h2, h3, h4⟩ := word_split (Option.some.inj h) (by decide) (by simp only [putFields]; omega)
  simp only [putFields] at h4
  refine ⟨h1, ?_⟩
  simp only [decodeWord, h2, Nat.reduceDiv, Nat.reduceMod, decodeRow4, guardZero, h3,
    fld_eq (h4 16 7 (by decide)) (x := d) (by omega),
    fld_eq (h4 9 7 (by decide)) (x := a) (by omega),
    fld_eq (h4 0 5 (by decide)) (x := n) (by omega),
    show bitsOf w 5 4 = 0 from (h4 5 4 (by decide)).trans (by omega)]; rfl

theorem icmpImm (st : Bool) (c : BitVec 4) (p : BitVec 3) (a : BitVec 7) (i : BitVec 9) : Statement (.icmpImm st c p a i) := by
  intro w h
  have hb := And.intro c.isLt (And.intro p.isLt (And.intro a.isLt i.isLt))
  obtain ⟨h1, h2, h3, h4⟩ := word_split (Option.some.inj h) (by decide) (by simp only [putFields]; omega)
  simp only [putFields] at h4
  refine ⟨h1, ?_⟩
  simp only [decodeWord, h2, Nat.reduceDiv, Nat.reduceMod, decodeRow4, guardZero, h3,
    fld_eq (h4 19 4 (by decide)) (x := c) (by omega),
    fld_eq (h4 16 3 (by decide)) (x := p) (by omega),
    fld_eq (h4 9 7 (by decide)) (x := a) (by omega),
    fld_eq (h4 0 9 (by decide)) (x := i) (by omega)]; rfl

theorem movi (st : Bool) (d : BitVec 7) (i : BitVec 16) : Statement (.movi st d i) := by
  intro w h
  have hb := And.intro d.isLt i.isLt
  obtain ⟨h1, h2, h3, h4⟩ := word_split (Option.some.inj h) (by decide) (by simp only [putFields]; omega)
  simp only [putFields] at h4
  refine ⟨h1, ?_⟩
  simp only [decodeWord, h2, Nat.reduceDiv, Nat.reduceMod, decodeRow4, guardZero, h3,
    fld_eq (h4 16 7 (by decide)) (x := d) (by omega),
    fld_eq (h4 0 16 (by decide)) (x := i) (by omega)]; rfl

theorem iaddScalar (st : Bool) (d : BitVec 7) (a : BitVec 7) (b : BitVec 8) (g : BitVec 1) : Statement (.iaddScalar st d a b g) := by
  intro w h
  have hb := And.intro d.isLt (And.intro a.isLt (And.intro b.isLt g.isLt))
  obtain ⟨h1, h2, h3, h4⟩ := word_split (Option.some.inj h) (by decide) (by simp only [putFields]; omega)
  simp only [putFields] at h4
  refine ⟨h1, ?_⟩
  simp only [decodeWord, h2, Nat.reduceDiv, Nat.reduceMod, decodeRow4, guardZero, h3,
    fld_eq (h4 16 7 (by decide)) (x := d) (by omega),
    fld_eq (h4 9 7 (by decide)) (x := a) (by omega),
    fld_eq (h4 1 8 (by decide)) (x := b) (by omega),
    fld_eq (h4 0 1 (by decide)) (x := g) (by omega)]; rfl

theorem movScalar (st : Bool) (d : BitVec 7) (b : BitVec 8) (g : BitVec 1) : Statement (.movScalar st d b g) := by
  intro w h
  have hb := And.intro d.isLt (And.intro b.isLt g.isLt)
  obtain ⟨h1, h2, h3, h4⟩ := word_split (Option.some.inj h) (by decide) (by simp only [putFields]; omega)
  simp only [putFields] at h4
  refine ⟨h1, ?_⟩
  simp only [decodeWord, h2, Nat.reduceDiv, Nat.reduceMod, decodeRow4, guardZero, h3,
    fld_eq (h4 16 7 (by decide)) (x := d) (by omega),
    fld_eq (h4 1 8 (by decide)) (x := b) (by omega),
    fld_eq (h4 0 1 (by decide)) (x := g) (by omega),
    show bitsOf w 9 7 = 0 from (h4 9 7 (by decide)).trans (by omega)]; rfl

theorem sadd (st : Bool) (d : BitVec 8) (a : BitVec 8) (b : BitVec 7) : Statement (.sadd st d a b) := by
  intro w h
  have hb := And.intro d.isLt (And.intro a.isLt b.isLt)
  obtain ⟨h1, h2, h3, h4⟩ := word_split (Option.some.inj h) (by decide) (by simp only [putFields]; omega)
  simp only [putFields] at h4
  refine ⟨h1, ?_⟩
  simp only [decodeWord, h2, Nat.reduceDiv, Nat.reduceMod, decodeRow5, guardZero, h3,
    fld_eq (h4 15 8 (by decide)) (x := d) (by omega),
    fld_eq (h4 7 8 (by decide)) (x := a) (by omega),
    fld_eq (h4 0 7 (by decide)) (x := b) (by omega)]; rfl

theorem saddImm (st : Bool) (d : BitVec 8) (a : BitVec 8) (i : BitVec 7) : Statement (.saddImm st d a i) := by
  intro w h
  have hb := And.intro d.isLt (And.intro a.isLt i.isLt)
  obtain ⟨h1, h2, h3, h4⟩ := word_split (Option.some.inj h) (by decide) (by simp only [putFields]; omega)
  simp only [putFields] at h4
  refine ⟨h1, ?_⟩
  simp only [decodeWord, h2, Nat.reduceDiv, Nat.reduceMod, decodeRow5, guardZero, h3,
    fld_eq (h4 15 8 (by decide)) (x := d) (by omega),
    fld_eq (h4 7 8 (by decide)) (x := a) (by omega),
    fld_eq (h4 0 7 (by decide)) (x := i) (by omega)]; rfl

theorem ssub (st : Bool) (d : BitVec 8) (a : BitVec 8) (b : BitVec 7) : Statement (.ssub st d a b) := by
  intro w h
  have hb := And.intro d.isLt (And.intro a.isLt b.isLt)
  obtain ⟨h1, h2, h3, h4⟩ := word_split (Option.some.inj h) (by decide) (by simp only [putFields]; omega)
  simp only [putFields] at h4
  refine ⟨h1, ?_⟩
  simp only [decodeWord, h2, Nat.reduceDiv, Nat.reduceMod, decodeRow5, guardZero, h3,
    fld_eq (h4 15 8 (by decide)) (x := d) (by omega),
    fld_eq (h4 7 8 (by decide)) (x := a) (by omega),
    fld_eq (h4 0 7 (by decide)) (x := b) (by omega)]; rfl

theorem smul (st : Bool) (d : BitVec 8) (a : BitVec 8) (b : BitVec 7) : Statement (.smul st d a b) := by
  intro w h
  have hb := And.intro d.isLt (And.intro a.isLt b.isLt)
  obtain ⟨h1, h2, h3, h4⟩ := word_split (Option.some.inj h) (by decide) (by simp only [putFields]; omega)
  simp only [putFields] at h4
  refine ⟨h1, ?_⟩
  simp only [decodeWord, h2, Nat.reduceDiv, Nat.reduceMod, decodeRow5, guardZero, h3,
    fld_eq (h4 15 8 (by decide)) (x := d) (by omega),
    fld_eq (h4 7 8 (by decide)) (x := a) (by omega),
    fld_eq (h4 0 7 (by decide)) (x := b) (by omega)]; rfl

theorem slogAnd (st : Bool) (d : BitVec 8) (a : BitVec 8) (b : BitVec 7) : Statement (.slogAnd st d a b) := by
  intro w h
  have hb := And.intro d.isLt (And.intro a.isLt b.isLt)
  obtain ⟨h1, h2, h3, h4⟩ := word_split (Option.some.inj h) (by decide) (by simp only [putFields]; omega)
  simp only [putFields] at h4
  refine ⟨h1, ?_⟩
  simp only [decodeWord, h2, Nat.reduceDiv, Nat.reduceMod, decodeRow5, guardZero, h3,
    fld_eq (h4 15 8 (by decide)) (x := d) (by omega),
    fld_eq (h4 7 8 (by decide)) (x := a) (by omega),
    fld_eq (h4 0 7 (by decide)) (x := b) (by omega)]; rfl

theorem slogOr (st : Bool) (d : BitVec 8) (a : BitVec 8) (b : BitVec 7) : Statement (.slogOr st d a b) := by
  intro w h
  have hb := And.intro d.isLt (And.intro a.isLt b.isLt)
  obtain ⟨h1, h2, h3, h4⟩ := word_split (Option.some.inj h) (by decide) (by simp only [putFields]; omega)
  simp only [putFields] at h4
  refine ⟨h1, ?_⟩
  simp only [decodeWord, h2, Nat.reduceDiv, Nat.reduceMod, decodeRow5, guardZero, h3,
    fld_eq (h4 15 8 (by decide)) (x := d) (by omega),
    fld_eq (h4 7 8 (by decide)) (x := a) (by omega),
    fld_eq (h4 0 7 (by decide)) (x := b) (by omega)]; rfl

theorem slogXor (st : Bool) (d : BitVec 8) (a : BitVec 8) (b : BitVec 7) : Statement (.slogXor st d a b) := by
  intro w h
  have hb := And.intro d.isLt (And.intro a.isLt b.isLt)
  obtain ⟨h1, h2, h3, h4⟩ := word_split (Option.some.inj h) (by decide) (by simp only [putFields]; omega)
  simp only [putFields] at h4
  refine ⟨h1, ?_⟩
  simp only [decodeWord, h2, Nat.reduceDiv, Nat.reduceMod, decodeRow5, guardZero, h3,
    fld_eq (h4 15 8 (by decide)) (x := d) (by omega),
    fld_eq (h4 7 8 (by decide)) (x := a) (by omega),
    fld_eq (h4 0 7 (by decide)) (x := b) (by omega)]; rfl

theorem slogAndn (st : Bool) (d : BitVec 8) (a : BitVec 8) (b : BitVec 7) : Statement (.slogAndn st d a b) := by
  intro w h
  have hb := And.intro d.isLt (And.intro a.isLt b.isLt)
  obtain ⟨h1, h2, h3, h4⟩ := word_split (Option.some.inj h) (by decide) (by simp only [putFields]; omega)
  simp only [putFields] at h4
  refine ⟨h1, ?_⟩
  simp only [decodeWord, h2, Nat.reduceDiv, Nat.reduceMod, decodeRow5, guardZero, h3,
    fld_eq (h4 15 8 (by decide)) (x := d) (by omega),
    fld_eq (h4 7 8 (by decide)) (x := a) (by omega),
    fld_eq (h4 0 7 (by decide)) (x := b) (by omega)]; rfl

theorem sshfShl (st : Bool) (d : BitVec 8) (a : BitVec 8) (b : BitVec 7) : Statement (.sshfShl st d a b) := by
  intro w h
  have hb := And.intro d.isLt (And.intro a.isLt b.isLt)
  obtain ⟨h1, h2, h3, h4⟩ := word_split (Option.some.inj h) (by decide) (by simp only [putFields]; omega)
  simp only [putFields] at h4
  refine ⟨h1, ?_⟩
  simp only [decodeWord, h2, Nat.reduceDiv, Nat.reduceMod, decodeRow5, guardZero, h3,
    fld_eq (h4 15 8 (by decide)) (x := d) (by omega),
    fld_eq (h4 7 8 (by decide)) (x := a) (by omega),
    fld_eq (h4 0 7 (by decide)) (x := b) (by omega)]; rfl

theorem sshfShr (st : Bool) (d : BitVec 8) (a : BitVec 8) (b : BitVec 7) : Statement (.sshfShr st d a b) := by
  intro w h
  have hb := And.intro d.isLt (And.intro a.isLt b.isLt)
  obtain ⟨h1, h2, h3, h4⟩ := word_split (Option.some.inj h) (by decide) (by simp only [putFields]; omega)
  simp only [putFields] at h4
  refine ⟨h1, ?_⟩
  simp only [decodeWord, h2, Nat.reduceDiv, Nat.reduceMod, decodeRow5, guardZero, h3,
    fld_eq (h4 15 8 (by decide)) (x := d) (by omega),
    fld_eq (h4 7 8 (by decide)) (x := a) (by omega),
    fld_eq (h4 0 7 (by decide)) (x := b) (by omega)]; rfl

theorem sshfSar (st : Bool) (d : BitVec 8) (a : BitVec 8) (b : BitVec 7) : Statement (.sshfSar st d a b) := by
  intro w h
  have hb := And.intro d.isLt (And.intro a.isLt b.isLt)
  obtain ⟨h1, h2, h3, h4⟩ := word_split (Option.some.inj h) (by decide) (by simp only [putFields]; omega)
  simp only [putFields] at h4
  refine ⟨h1, ?_⟩
  simp only [decodeWord, h2, Nat.reduceDiv, Nat.reduceMod, decodeRow5, guardZero, h3,
    fld_eq (h4 15 8 (by decide)) (x := d) (by omega),
    fld_eq (h4 7 8 (by decide)) (x := a) (by omega),
    fld_eq (h4 0 7 (by decide)) (x := b) (by omega)]; rfl

theorem sshfImm (st : Bool) (d : BitVec 8) (a : BitVec 8) (f : BitVec 2) (n : BitVec 5) : Statement (.sshfImm st d a f n) := by
  intro w h
  have hb := And.intro d.isLt (And.intro a.isLt (And.intro f.isLt n.isLt))
  obtain ⟨h1, h2, h3, h4⟩ := word_split (Option.some.inj h) (by decide) (by simp only [putFields]; omega)
  simp only [putFields] at h4
  refine ⟨h1, ?_⟩
  simp only [decodeWord, h2, Nat.reduceDiv, Nat.reduceMod, decodeRow5, guardZero, h3,
    fld_eq (h4 15 8 (by decide)) (x := d) (by omega),
    fld_eq (h4 7 8 (by decide)) (x := a) (by omega),
    fld_eq (h4 5 2 (by decide)) (x := f) (by omega),
    fld_eq (h4 0 5 (by decide)) (x := n) (by omega)]; rfl

theorem smov (st : Bool) (d : BitVec 8) (a : BitVec 8) : Statement (.smov st d a) := by
  intro w h
  have hb := And.intro d.isLt a.isLt
  obtain ⟨h1, h2, h3, h4⟩ := word_split (Option.some.inj h) (by decide) (by simp only [putFields]; omega)
  simp only [putFields] at h4
  refine ⟨h1, ?_⟩
  simp only [decodeWord, h2, Nat.reduceDiv, Nat.reduceMod, decodeRow5, guardZero, h3,
    fld_eq (h4 15 8 (by decide)) (x := d) (by omega),
    fld_eq (h4 7 8 (by decide)) (x := a) (by omega),
    show bitsOf w 0 7 = 0 from (h4 0 7 (by decide)).trans (by omega)]; rfl

theorem smovi (st : Bool) (d : BitVec 8) (i : BitVec 15) : Statement (.smovi st d i) := by
  intro w h
  have hb := And.intro d.isLt i.isLt
  obtain ⟨h1, h2, h3, h4⟩ := word_split (Option.some.inj h) (by decide) (by simp only [putFields]; omega)
  simp only [putFields] at h4
  refine ⟨h1, ?_⟩
  simp only [decodeWord, h2, Nat.reduceDiv, Nat.reduceMod, decodeRow5, guardZero, h3,
    fld_eq (h4 15 8 (by decide)) (x := d) (by omega),
    fld_eq (h4 0 15 (by decide)) (x := i) (by omega)]; rfl

theorem scmp (st : Bool) (c : BitVec 4) (q : BitVec 2) (a : BitVec 8) (b : BitVec 7) : Statement (.scmp st c q a b) := by
  intro w h
  have hb := And.intro c.isLt (And.intro q.isLt (And.intro a.isLt b.isLt))
  obtain ⟨h1, h2, h3, h4⟩ := word_split (Option.some.inj h) (by decide) (by simp only [putFields]; omega)
  simp only [putFields] at h4
  refine ⟨h1, ?_⟩
  simp only [decodeWord, h2, Nat.reduceDiv, Nat.reduceMod, decodeRow5, guardZero, h3,
    fld_eq (h4 19 4 (by decide)) (x := c) (by omega),
    fld_eq (h4 15 2 (by decide)) (x := q) (by omega),
    fld_eq (h4 7 8 (by decide)) (x := a) (by omega),
    fld_eq (h4 0 7 (by decide)) (x := b) (by omega),
    show bitsOf w 17 2 = 0 from (h4 17 2 (by decide)).trans (by omega)]; rfl

theorem scmpImm (st : Bool) (c : BitVec 4) (q : BitVec 2) (a : BitVec 8) (i : BitVec 7) : Statement (.scmpImm st c q a i) := by
  intro w h
  have hb := And.intro c.isLt (And.intro q.isLt (And.intro a.isLt i.isLt))
  obtain ⟨h1, h2, h3, h4⟩ := word_split (Option.some.inj h) (by decide) (by simp only [putFields]; omega)
  simp only [putFields] at h4
  refine ⟨h1, ?_⟩
  simp only [decodeWord, h2, Nat.reduceDiv, Nat.reduceMod, decodeRow5, guardZero, h3,
    fld_eq (h4 19 4 (by decide)) (x := c) (by omega),
    fld_eq (h4 15 2 (by decide)) (x := q) (by omega),
    fld_eq (h4 7 8 (by decide)) (x := a) (by omega),
    fld_eq (h4 0 7 (by decide)) (x := i) (by omega),
    show bitsOf w 17 2 = 0 from (h4 17 2 (by decide)).trans (by omega)]; rfl

theorem fadd (st : Bool) (d : BitVec 7) (a : BitVec 7) (b : BitVec 7) (g : BitVec 2) : Statement (.fadd st d a b g) := by
  intro w h
  have hb := And.intro d.isLt (And.intro a.isLt (And.intro b.isLt g.isLt))
  obtain ⟨h1, h2, h3, h4⟩ := word_split (Option.some.inj h) (by decide) (by simp only [putFields]; omega)
  simp only [putFields] at h4
  refine ⟨h1, ?_⟩
  simp only [decodeWord, h2, Nat.reduceDiv, Nat.reduceMod, decodeRow6, guardZero, h3,
    fld_eq (h4 16 7 (by decide)) (x := d) (by omega),
    fld_eq (h4 9 7 (by decide)) (x := a) (by omega),
    fld_eq (h4 2 7 (by decide)) (x := b) (by omega),
    fld_eq (h4 0 2 (by decide)) (x := g) (by omega)]; rfl

theorem fsub (st : Bool) (d : BitVec 7) (a : BitVec 7) (b : BitVec 7) (g : BitVec 2) : Statement (.fsub st d a b g) := by
  intro w h
  have hb := And.intro d.isLt (And.intro a.isLt (And.intro b.isLt g.isLt))
  obtain ⟨h1, h2, h3, h4⟩ := word_split (Option.some.inj h) (by decide) (by simp only [putFields]; omega)
  simp only [putFields] at h4
  refine ⟨h1, ?_⟩
  simp only [decodeWord, h2, Nat.reduceDiv, Nat.reduceMod, decodeRow6, guardZero, h3,
    fld_eq (h4 16 7 (by decide)) (x := d) (by omega),
    fld_eq (h4 9 7 (by decide)) (x := a) (by omega),
    fld_eq (h4 2 7 (by decide)) (x := b) (by omega),
    fld_eq (h4 0 2 (by decide)) (x := g) (by omega)]; rfl

theorem fmul (st : Bool) (d : BitVec 7) (a : BitVec 7) (b : BitVec 7) (g : BitVec 2) : Statement (.fmul st d a b g) := by
  intro w h
  have hb := And.intro d.isLt (And.intro a.isLt (And.intro b.isLt g.isLt))
  obtain ⟨h1, h2, h3, h4⟩ := word_split (Option.some.inj h) (by decide) (by simp only [putFields]; omega)
  simp only [putFields] at h4
  refine ⟨h1, ?_⟩
  simp only [decodeWord, h2, Nat.reduceDiv, Nat.reduceMod, decodeRow6, guardZero, h3,
    fld_eq (h4 16 7 (by decide)) (x := d) (by omega),
    fld_eq (h4 9 7 (by decide)) (x := a) (by omega),
    fld_eq (h4 2 7 (by decide)) (x := b) (by omega),
    fld_eq (h4 0 2 (by decide)) (x := g) (by omega)]; rfl

theorem ffma (st : Bool) (d : BitVec 7) (a : BitVec 7) (b : BitVec 7) (g : BitVec 2) : Statement (.ffma st d a b g) := by
  intro w h
  have hb := And.intro d.isLt (And.intro a.isLt (And.intro b.isLt g.isLt))
  obtain ⟨h1, h2, h3, h4⟩ := word_split (Option.some.inj h) (by decide) (by simp only [putFields]; omega)
  simp only [putFields] at h4
  refine ⟨h1, ?_⟩
  simp only [decodeWord, h2, Nat.reduceDiv, Nat.reduceMod, decodeRow6, guardZero, h3,
    fld_eq (h4 16 7 (by decide)) (x := d) (by omega),
    fld_eq (h4 9 7 (by decide)) (x := a) (by omega),
    fld_eq (h4 2 7 (by decide)) (x := b) (by omega),
    fld_eq (h4 0 2 (by decide)) (x := g) (by omega)]; rfl

theorem fmin (st : Bool) (d : BitVec 7) (a : BitVec 7) (b : BitVec 7) (g : BitVec 2) : Statement (.fmin st d a b g) := by
  intro w h
  have hb := And.intro d.isLt (And.intro a.isLt (And.intro b.isLt g.isLt))
  obtain ⟨h1, h2, h3, h4⟩ := word_split (Option.some.inj h) (by decide) (by simp only [putFields]; omega)
  simp only [putFields] at h4
  refine ⟨h1, ?_⟩
  simp only [decodeWord, h2, Nat.reduceDiv, Nat.reduceMod, decodeRow6, guardZero, h3,
    fld_eq (h4 16 7 (by decide)) (x := d) (by omega),
    fld_eq (h4 9 7 (by decide)) (x := a) (by omega),
    fld_eq (h4 2 7 (by decide)) (x := b) (by omega),
    fld_eq (h4 0 2 (by decide)) (x := g) (by omega)]; rfl

theorem fmax (st : Bool) (d : BitVec 7) (a : BitVec 7) (b : BitVec 7) (g : BitVec 2) : Statement (.fmax st d a b g) := by
  intro w h
  have hb := And.intro d.isLt (And.intro a.isLt (And.intro b.isLt g.isLt))
  obtain ⟨h1, h2, h3, h4⟩ := word_split (Option.some.inj h) (by decide) (by simp only [putFields]; omega)
  simp only [putFields] at h4
  refine ⟨h1, ?_⟩
  simp only [decodeWord, h2, Nat.reduceDiv, Nat.reduceMod, decodeRow6, guardZero, h3,
    fld_eq (h4 16 7 (by decide)) (x := d) (by omega),
    fld_eq (h4 9 7 (by decide)) (x := a) (by omega),
    fld_eq (h4 2 7 (by decide)) (x := b) (by omega),
    fld_eq (h4 0 2 (by decide)) (x := g) (by omega)]; rfl

theorem fcmp (st : Bool) (c : BitVec 4) (p : BitVec 3) (a : BitVec 7) (b : BitVec 7) (g : BitVec 2) : Statement (.fcmp st c p a b g) := by
  intro w h
  have hb := And.intro c.isLt (And.intro p.isLt (And.intro a.isLt (And.intro b.isLt g.isLt)))
  obtain ⟨h1, h2, h3, h4⟩ := word_split (Option.some.inj h) (by decide) (by simp only [putFields]; omega)
  simp only [putFields] at h4
  refine ⟨h1, ?_⟩
  simp only [decodeWord, h2, Nat.reduceDiv, Nat.reduceMod, decodeRow6, guardZero, h3,
    fld_eq (h4 19 4 (by decide)) (x := c) (by omega),
    fld_eq (h4 16 3 (by decide)) (x := p) (by omega),
    fld_eq (h4 9 7 (by decide)) (x := a) (by omega),
    fld_eq (h4 2 7 (by decide)) (x := b) (by omega),
    fld_eq (h4 0 2 (by decide)) (x := g) (by omega)]; rfl

theorem frcp (st : Bool) (d : BitVec 7) (a : BitVec 7) (g : BitVec 2) : Statement (.frcp st d a g) := by
  intro w h
  have hb := And.intro d.isLt (And.intro a.isLt g.isLt)
  obtain ⟨h1, h2, h3, h4⟩ := word_split (Option.some.inj h) (by decide) (by simp only [putFields]; omega)
  simp only [putFields] at h4
  refine ⟨h1, ?_⟩
  simp only [decodeWord, h2, Nat.reduceDiv, Nat.reduceMod, decodeRow6, guardZero, h3,
    fld_eq (h4 16 7 (by decide)) (x := d) (by omega),
    fld_eq (h4 9 7 (by decide)) (x := a) (by omega),
    fld_eq (h4 0 2 (by decide)) (x := g) (by omega),
    show bitsOf w 2 7 = 0 from (h4 2 7 (by decide)).trans (by omega)]; rfl

theorem frsq (st : Bool) (d : BitVec 7) (a : BitVec 7) (g : BitVec 2) : Statement (.frsq st d a g) := by
  intro w h
  have hb := And.intro d.isLt (And.intro a.isLt g.isLt)
  obtain ⟨h1, h2, h3, h4⟩ := word_split (Option.some.inj h) (by decide) (by simp only [putFields]; omega)
  simp only [putFields] at h4
  refine ⟨h1, ?_⟩
  simp only [decodeWord, h2, Nat.reduceDiv, Nat.reduceMod, decodeRow6, guardZero, h3,
    fld_eq (h4 16 7 (by decide)) (x := d) (by omega),
    fld_eq (h4 9 7 (by decide)) (x := a) (by omega),
    fld_eq (h4 0 2 (by decide)) (x := g) (by omega),
    show bitsOf w 2 7 = 0 from (h4 2 7 (by decide)).trans (by omega)]; rfl

theorem fex2 (st : Bool) (d : BitVec 7) (a : BitVec 7) (g : BitVec 2) : Statement (.fex2 st d a g) := by
  intro w h
  have hb := And.intro d.isLt (And.intro a.isLt g.isLt)
  obtain ⟨h1, h2, h3, h4⟩ := word_split (Option.some.inj h) (by decide) (by simp only [putFields]; omega)
  simp only [putFields] at h4
  refine ⟨h1, ?_⟩
  simp only [decodeWord, h2, Nat.reduceDiv, Nat.reduceMod, decodeRow6, guardZero, h3,
    fld_eq (h4 16 7 (by decide)) (x := d) (by omega),
    fld_eq (h4 9 7 (by decide)) (x := a) (by omega),
    fld_eq (h4 0 2 (by decide)) (x := g) (by omega),
    show bitsOf w 2 7 = 0 from (h4 2 7 (by decide)).trans (by omega)]; rfl

theorem flg2 (st : Bool) (d : BitVec 7) (a : BitVec 7) (g : BitVec 2) : Statement (.flg2 st d a g) := by
  intro w h
  have hb := And.intro d.isLt (And.intro a.isLt g.isLt)
  obtain ⟨h1, h2, h3, h4⟩ := word_split (Option.some.inj h) (by decide) (by simp only [putFields]; omega)
  simp only [putFields] at h4
  refine ⟨h1, ?_⟩
  simp only [decodeWord, h2, Nat.reduceDiv, Nat.reduceMod, decodeRow6, guardZero, h3,
    fld_eq (h4 16 7 (by decide)) (x := d) (by omega),
    fld_eq (h4 9 7 (by decide)) (x := a) (by omega),
    fld_eq (h4 0 2 (by decide)) (x := g) (by omega),
    show bitsOf w 2 7 = 0 from (h4 2 7 (by decide)).trans (by omega)]; rfl

theorem fcls (st : Bool) (d : BitVec 7) (a : BitVec 7) (g : BitVec 2) : Statement (.fcls st d a g) := by
  intro w h
  have hb := And.intro d.isLt (And.intro a.isLt g.isLt)
  obtain ⟨h1, h2, h3, h4⟩ := word_split (Option.some.inj h) (by decide) (by simp only [putFields]; omega)
  simp only [putFields] at h4
  refine ⟨h1, ?_⟩
  simp only [decodeWord, h2, Nat.reduceDiv, Nat.reduceMod, decodeRow6, guardZero, h3,
    fld_eq (h4 16 7 (by decide)) (x := d) (by omega),
    fld_eq (h4 9 7 (by decide)) (x := a) (by omega),
    fld_eq (h4 0 2 (by decide)) (x := g) (by omega),
    show bitsOf w 2 7 = 0 from (h4 2 7 (by decide)).trans (by omega)]; rfl

theorem frnd (st : Bool) (d : BitVec 7) (a : BitVec 7) (g : BitVec 2) : Statement (.frnd st d a g) := by
  intro w h
  have hb := And.intro d.isLt (And.intro a.isLt g.isLt)
  obtain ⟨h1, h2, h3, h4⟩ := word_split (Option.some.inj h) (by decide) (by simp only [putFields]; omega)
  simp only [putFields] at h4
  refine ⟨h1, ?_⟩
  simp only [decodeWord, h2, Nat.reduceDiv, Nat.reduceMod, decodeRow6, guardZero, h3,
    fld_eq (h4 16 7 (by decide)) (x := d) (by omega),
    fld_eq (h4 9 7 (by decide)) (x := a) (by omega),
    fld_eq (h4 0 2 (by decide)) (x := g) (by omega),
    show bitsOf w 2 7 = 0 from (h4 2 7 (by decide)).trans (by omega)]; rfl

theorem hadd2 (st : Bool) (d : BitVec 7) (a : BitVec 7) (b : BitVec 7) (g : BitVec 2) : Statement (.hadd2 st d a b g) := by
  intro w h
  have hb := And.intro d.isLt (And.intro a.isLt (And.intro b.isLt g.isLt))
  obtain ⟨h1, h2, h3, h4⟩ := word_split (Option.some.inj h) (by decide) (by simp only [putFields]; omega)
  simp only [putFields] at h4
  refine ⟨h1, ?_⟩
  simp only [decodeWord, h2, Nat.reduceDiv, Nat.reduceMod, decodeRow6, guardZero, h3,
    fld_eq (h4 16 7 (by decide)) (x := d) (by omega),
    fld_eq (h4 9 7 (by decide)) (x := a) (by omega),
    fld_eq (h4 2 7 (by decide)) (x := b) (by omega),
    fld_eq (h4 0 2 (by decide)) (x := g) (by omega)]; rfl

theorem hmul2 (st : Bool) (d : BitVec 7) (a : BitVec 7) (b : BitVec 7) (g : BitVec 2) : Statement (.hmul2 st d a b g) := by
  intro w h
  have hb := And.intro d.isLt (And.intro a.isLt (And.intro b.isLt g.isLt))
  obtain ⟨h1, h2, h3, h4⟩ := word_split (Option.some.inj h) (by decide) (by simp only [putFields]; omega)
  simp only [putFields] at h4
  refine ⟨h1, ?_⟩
  simp only [decodeWord, h2, Nat.reduceDiv, Nat.reduceMod, decodeRow6, guardZero, h3,
    fld_eq (h4 16 7 (by decide)) (x := d) (by omega),
    fld_eq (h4 9 7 (by decide)) (x := a) (by omega),
    fld_eq (h4 2 7 (by decide)) (x := b) (by omega),
    fld_eq (h4 0 2 (by decide)) (x := g) (by omega)]; rfl

theorem hfma2 (st : Bool) (d : BitVec 7) (a : BitVec 7) (b : BitVec 7) (g : BitVec 2) : Statement (.hfma2 st d a b g) := by
  intro w h
  have hb := And.intro d.isLt (And.intro a.isLt (And.intro b.isLt g.isLt))
  obtain ⟨h1, h2, h3, h4⟩ := word_split (Option.some.inj h) (by decide) (by simp only [putFields]; omega)
  simp only [putFields] at h4
  refine ⟨h1, ?_⟩
  simp only [decodeWord, h2, Nat.reduceDiv, Nat.reduceMod, decodeRow6, guardZero, h3,
    fld_eq (h4 16 7 (by decide)) (x := d) (by omega),
    fld_eq (h4 9 7 (by decide)) (x := a) (by omega),
    fld_eq (h4 2 7 (by decide)) (x := b) (by omega),
    fld_eq (h4 0 2 (by decide)) (x := g) (by omega)]; rfl

theorem cvt (st : Bool) (d : BitVec 7) (a : BitVec 7) (e : BitVec 4) (f : BitVec 4) : Statement (.cvt st d a e f) := by
  intro w h
  have hb := And.intro d.isLt (And.intro a.isLt (And.intro e.isLt f.isLt))
  obtain ⟨h1, h2, h3, h4⟩ := word_split (Option.some.inj h) (by decide) (by simp only [putFields]; omega)
  simp only [putFields] at h4
  refine ⟨h1, ?_⟩
  simp only [decodeWord, h2, Nat.reduceDiv, Nat.reduceMod, decodeRow7, guardZero, h3,
    fld_eq (h4 16 7 (by decide)) (x := d) (by omega),
    fld_eq (h4 9 7 (by decide)) (x := a) (by omega),
    fld_eq (h4 5 4 (by decide)) (x := e) (by omega),
    fld_eq (h4 1 4 (by decide)) (x := f) (by omega),
    show bitsOf w 0 1 = 0 from (h4 0 1 (by decide)).trans (by omega)]; rfl

theorem pack (st : Bool) (d : BitVec 7) (a : BitVec 7) (f : BitVec 4) (n : BitVec 5) : Statement (.pack st d a f n) := by
  intro w h
  have hb := And.intro d.isLt (And.intro a.isLt (And.intro f.isLt n.isLt))
  obtain ⟨h1, h2, h3, h4⟩ := word_split (Option.some.inj h) (by decide) (by simp only [putFields]; omega)
  simp only [putFields] at h4
  refine ⟨h1, ?_⟩
  simp only [decodeWord, h2, Nat.reduceDiv, Nat.reduceMod, decodeRow7, guardZero, h3,
    fld_eq (h4 16 7 (by decide)) (x := d) (by omega),
    fld_eq (h4 9 7 (by decide)) (x := a) (by omega),
    fld_eq (h4 5 4 (by decide)) (x := f) (by omega),
    fld_eq (h4 0 5 (by decide)) (x := n) (by omega)]; rfl

theorem unpk (st : Bool) (d : BitVec 7) (a : BitVec 7) (f : BitVec 4) (n : BitVec 5) : Statement (.unpk st d a f n) := by
  intro w h
  have hb := And.intro d.isLt (And.intro a.isLt (And.intro f.isLt n.isLt))
  obtain ⟨h1, h2, h3, h4⟩ := word_split (Option.some.inj h) (by decide) (by simp only [putFields]; omega)
  simp only [putFields] at h4
  refine ⟨h1, ?_⟩
  simp only [decodeWord, h2, Nat.reduceDiv, Nat.reduceMod, decodeRow7, guardZero, h3,
    fld_eq (h4 16 7 (by decide)) (x := d) (by omega),
    fld_eq (h4 9 7 (by decide)) (x := a) (by omega),
    fld_eq (h4 5 4 (by decide)) (x := f) (by omega),
    fld_eq (h4 0 5 (by decide)) (x := n) (by omega)]; rfl

theorem qnt (st : Bool) (d : BitVec 7) (a : BitVec 7) (f : BitVec 4) (b : BitVec 2) : Statement (.qnt st d a f b) := by
  intro w h
  have hb := And.intro d.isLt (And.intro a.isLt (And.intro f.isLt b.isLt))
  obtain ⟨h1, h2, h3, h4⟩ := word_split (Option.some.inj h) (by decide) (by simp only [putFields]; omega)
  simp only [putFields] at h4
  refine ⟨h1, ?_⟩
  simp only [decodeWord, h2, Nat.reduceDiv, Nat.reduceMod, decodeRow7, guardZero, h3,
    fld_eq (h4 16 7 (by decide)) (x := d) (by omega),
    fld_eq (h4 9 7 (by decide)) (x := a) (by omega),
    fld_eq (h4 5 4 (by decide)) (x := f) (by omega),
    fld_eq (h4 3 2 (by decide)) (x := b) (by omega),
    show bitsOf w 0 3 = 0 from (h4 0 3 (by decide)).trans (by omega)]; rfl

theorem sclx (st : Bool) (d : BitVec 7) (a : BitVec 7) (b : BitVec 7) (g : BitVec 2) : Statement (.sclx st d a b g) := by
  intro w h
  have hb := And.intro d.isLt (And.intro a.isLt (And.intro b.isLt g.isLt))
  obtain ⟨h1, h2, h3, h4⟩ := word_split (Option.some.inj h) (by decide) (by simp only [putFields]; omega)
  simp only [putFields] at h4
  refine ⟨h1, ?_⟩
  simp only [decodeWord, h2, Nat.reduceDiv, Nat.reduceMod, decodeRow7, guardZero, h3,
    fld_eq (h4 16 7 (by decide)) (x := d) (by omega),
    fld_eq (h4 9 7 (by decide)) (x := a) (by omega),
    fld_eq (h4 2 7 (by decide)) (x := b) (by omega),
    fld_eq (h4 0 2 (by decide)) (x := g) (by omega)]; rfl

theorem dqntE4m3 (st : Bool) (d : BitVec 7) (a : BitVec 7) (b : BitVec 7) (c : BitVec 2) : Statement (.dqntE4m3 st d a b c) := by
  intro w h
  have hb := And.intro d.isLt (And.intro a.isLt (And.intro b.isLt c.isLt))
  obtain ⟨h1, h2, h3, h4⟩ := word_split (Option.some.inj h) (by decide) (by simp only [putFields]; omega)
  simp only [putFields] at h4
  refine ⟨h1, ?_⟩
  simp only [decodeWord, h2, Nat.reduceDiv, Nat.reduceMod, decodeRow7, guardZero, h3,
    fld_eq (h4 16 7 (by decide)) (x := d) (by omega),
    fld_eq (h4 9 7 (by decide)) (x := a) (by omega),
    fld_eq (h4 2 7 (by decide)) (x := b) (by omega),
    fld_eq (h4 0 2 (by decide)) (x := c) (by omega)]; rfl

theorem dqntE5m2 (st : Bool) (d : BitVec 7) (a : BitVec 7) (b : BitVec 7) (c : BitVec 2) : Statement (.dqntE5m2 st d a b c) := by
  intro w h
  have hb := And.intro d.isLt (And.intro a.isLt (And.intro b.isLt c.isLt))
  obtain ⟨h1, h2, h3, h4⟩ := word_split (Option.some.inj h) (by decide) (by simp only [putFields]; omega)
  simp only [putFields] at h4
  refine ⟨h1, ?_⟩
  simp only [decodeWord, h2, Nat.reduceDiv, Nat.reduceMod, decodeRow7, guardZero, h3,
    fld_eq (h4 16 7 (by decide)) (x := d) (by omega),
    fld_eq (h4 9 7 (by decide)) (x := a) (by omega),
    fld_eq (h4 2 7 (by decide)) (x := b) (by omega),
    fld_eq (h4 0 2 (by decide)) (x := c) (by omega)]; rfl

theorem dqntE2m3 (st : Bool) (d : BitVec 7) (a : BitVec 7) (b : BitVec 7) (c : BitVec 2) : Statement (.dqntE2m3 st d a b c) := by
  intro w h
  have hb := And.intro d.isLt (And.intro a.isLt (And.intro b.isLt c.isLt))
  obtain ⟨h1, h2, h3, h4⟩ := word_split (Option.some.inj h) (by decide) (by simp only [putFields]; omega)
  simp only [putFields] at h4
  refine ⟨h1, ?_⟩
  simp only [decodeWord, h2, Nat.reduceDiv, Nat.reduceMod, decodeRow7, guardZero, h3,
    fld_eq (h4 16 7 (by decide)) (x := d) (by omega),
    fld_eq (h4 9 7 (by decide)) (x := a) (by omega),
    fld_eq (h4 2 7 (by decide)) (x := b) (by omega),
    fld_eq (h4 0 2 (by decide)) (x := c) (by omega)]; rfl

theorem dqntE3m2 (st : Bool) (d : BitVec 7) (a : BitVec 7) (b : BitVec 7) (c : BitVec 2) : Statement (.dqntE3m2 st d a b c) := by
  intro w h
  have hb := And.intro d.isLt (And.intro a.isLt (And.intro b.isLt c.isLt))
  obtain ⟨h1, h2, h3, h4⟩ := word_split (Option.some.inj h) (by decide) (by simp only [putFields]; omega)
  simp only [putFields] at h4
  refine ⟨h1, ?_⟩
  simp only [decodeWord, h2, Nat.reduceDiv, Nat.reduceMod, decodeRow7, guardZero, h3,
    fld_eq (h4 16 7 (by decide)) (x := d) (by omega),
    fld_eq (h4 9 7 (by decide)) (x := a) (by omega),
    fld_eq (h4 2 7 (by decide)) (x := b) (by omega),
    fld_eq (h4 0 2 (by decide)) (x := c) (by omega)]; rfl

theorem dqntE2m1 (st : Bool) (d : BitVec 7) (a : BitVec 7) (b : BitVec 7) (c : BitVec 2) : Statement (.dqntE2m1 st d a b c) := by
  intro w h
  have hb := And.intro d.isLt (And.intro a.isLt (And.intro b.isLt c.isLt))
  obtain ⟨h1, h2, h3, h4⟩ := word_split (Option.some.inj h) (by decide) (by simp only [putFields]; omega)
  simp only [putFields] at h4
  refine ⟨h1, ?_⟩
  simp only [decodeWord, h2, Nat.reduceDiv, Nat.reduceMod, decodeRow7, guardZero, h3,
    fld_eq (h4 16 7 (by decide)) (x := d) (by omega),
    fld_eq (h4 9 7 (by decide)) (x := a) (by omega),
    fld_eq (h4 2 7 (by decide)) (x := b) (by omega),
    fld_eq (h4 0 2 (by decide)) (x := c) (by omega)]; rfl

theorem dqntSx4 (st : Bool) (d : BitVec 7) (a : BitVec 7) (b : BitVec 7) (c : BitVec 2) : Statement (.dqntSx4 st d a b c) := by
  intro w h
  have hb := And.intro d.isLt (And.intro a.isLt (And.intro b.isLt c.isLt))
  obtain ⟨h1, h2, h3, h4⟩ := word_split (Option.some.inj h) (by decide) (by simp only [putFields]; omega)
  simp only [putFields] at h4
  refine ⟨h1, ?_⟩
  simp only [decodeWord, h2, Nat.reduceDiv, Nat.reduceMod, decodeRow7, guardZero, h3,
    fld_eq (h4 16 7 (by decide)) (x := d) (by omega),
    fld_eq (h4 9 7 (by decide)) (x := a) (by omega),
    fld_eq (h4 2 7 (by decide)) (x := b) (by omega),
    fld_eq (h4 0 2 (by decide)) (x := c) (by omega)]; rfl

theorem dqntI8 (st : Bool) (d : BitVec 7) (a : BitVec 7) (b : BitVec 7) (c : BitVec 2) : Statement (.dqntI8 st d a b c) := by
  intro w h
  have hb := And.intro d.isLt (And.intro a.isLt (And.intro b.isLt c.isLt))
  obtain ⟨h1, h2, h3, h4⟩ := word_split (Option.some.inj h) (by decide) (by simp only [putFields]; omega)
  simp only [putFields] at h4
  refine ⟨h1, ?_⟩
  simp only [decodeWord, h2, Nat.reduceDiv, Nat.reduceMod, decodeRow7, guardZero, h3,
    fld_eq (h4 16 7 (by decide)) (x := d) (by omega),
    fld_eq (h4 9 7 (by decide)) (x := a) (by omega),
    fld_eq (h4 2 7 (by decide)) (x := b) (by omega),
    fld_eq (h4 0 2 (by decide)) (x := c) (by omega)]; rfl

theorem xpat (st : Bool) (d : BitVec 7) (a : BitVec 7) (n : BitVec 4) : Statement (.xpat st d a n) := by
  intro w h
  have hb := And.intro d.isLt (And.intro a.isLt n.isLt)
  obtain ⟨h1, h2, h3, h4⟩ := word_split (Option.some.inj h) (by decide) (by simp only [putFields]; omega)
  simp only [putFields] at h4
  refine ⟨h1, ?_⟩
  simp only [decodeWord, h2, Nat.reduceDiv, Nat.reduceMod, decodeRow8, guardZero, h3,
    fld_eq (h4 16 7 (by decide)) (x := d) (by omega),
    fld_eq (h4 9 7 (by decide)) (x := a) (by omega),
    fld_eq (h4 0 4 (by decide)) (x := n) (by omega),
    show bitsOf w 4 5 = 0 from (h4 4 5 (by decide)).trans (by omega)]; rfl

theorem xperm (st : Bool) (d : BitVec 7) (a : BitVec 7) (b : BitVec 7) (g : BitVec 2) : Statement (.xperm st d a b g) := by
  intro w h
  have hb := And.intro d.isLt (And.intro a.isLt (And.intro b.isLt g.isLt))
  obtain ⟨h1, h2, h3, h4⟩ := word_split (Option.some.inj h) (by decide) (by simp only [putFields]; omega)
  simp only [putFields] at h4
  refine ⟨h1, ?_⟩
  simp only [decodeWord, h2, Nat.reduceDiv, Nat.reduceMod, decodeRow8, guardZero, h3,
    fld_eq (h4 16 7 (by decide)) (x := d) (by omega),
    fld_eq (h4 9 7 (by decide)) (x := a) (by omega),
    fld_eq (h4 2 7 (by decide)) (x := b) (by omega),
    fld_eq (h4 0 2 (by decide)) (x := g) (by omega)]; rfl

theorem shfl (st : Bool) (d : BitVec 7) (a : BitVec 7) (m : BitVec 2) (n : BitVec 5) : Statement (.shfl st d a m n) := by
  intro w h
  have hb := And.intro d.isLt (And.intro a.isLt (And.intro m.isLt n.isLt))
  obtain ⟨h1, h2, h3, h4⟩ := word_split (Option.some.inj h) (by decide) (by simp only [putFields]; omega)
  simp only [putFields] at h4
  refine ⟨h1, ?_⟩
  simp only [decodeWord, h2, Nat.reduceDiv, Nat.reduceMod, decodeRow8, guardZero, h3,
    fld_eq (h4 16 7 (by decide)) (x := d) (by omega),
    fld_eq (h4 9 7 (by decide)) (x := a) (by omega),
    fld_eq (h4 7 2 (by decide)) (x := m) (by omega),
    fld_eq (h4 0 5 (by decide)) (x := n) (by omega),
    show bitsOf w 5 2 = 0 from (h4 5 2 (by decide)).trans (by omega)]; rfl

theorem scan (st : Bool) (d : BitVec 7) (a : BitVec 7) (o : BitVec 4) (f : BitVec 4) (x : BitVec 1) : Statement (.scan st d a o f x) := by
  intro w h
  have hb := And.intro d.isLt (And.intro a.isLt (And.intro o.isLt (And.intro f.isLt x.isLt)))
  obtain ⟨h1, h2, h3, h4⟩ := word_split (Option.some.inj h) (by decide) (by simp only [putFields]; omega)
  simp only [putFields] at h4
  refine ⟨h1, ?_⟩
  simp only [decodeWord, h2, Nat.reduceDiv, Nat.reduceMod, decodeRow8, guardZero, h3,
    fld_eq (h4 16 7 (by decide)) (x := d) (by omega),
    fld_eq (h4 9 7 (by decide)) (x := a) (by omega),
    fld_eq (h4 5 4 (by decide)) (x := o) (by omega),
    fld_eq (h4 1 4 (by decide)) (x := f) (by omega),
    fld_eq (h4 0 1 (by decide)) (x := x) (by omega)]; rfl

theorem rdx (st : Bool) (d : BitVec 7) (a : BitVec 7) (o : BitVec 4) (f : BitVec 4) : Statement (.rdx st d a o f) := by
  intro w h
  have hb := And.intro d.isLt (And.intro a.isLt (And.intro o.isLt f.isLt))
  obtain ⟨h1, h2, h3, h4⟩ := word_split (Option.some.inj h) (by decide) (by simp only [putFields]; omega)
  simp only [putFields] at h4
  refine ⟨h1, ?_⟩
  simp only [decodeWord, h2, Nat.reduceDiv, Nat.reduceMod, decodeRow8, guardZero, h3,
    fld_eq (h4 16 7 (by decide)) (x := d) (by omega),
    fld_eq (h4 9 7 (by decide)) (x := a) (by omega),
    fld_eq (h4 5 4 (by decide)) (x := o) (by omega),
    fld_eq (h4 1 4 (by decide)) (x := f) (by omega),
    show bitsOf w 0 1 = 0 from (h4 0 1 (by decide)).trans (by omega)]; rfl

theorem ld (st : Bool) (d : BitVec 7) (a : BitVec 7) (k : BitVec 4) (z : BitVec 3) (g : BitVec 2) : Statement (.ld st d a k z g) := by
  intro w h
  have hb := And.intro d.isLt (And.intro a.isLt (And.intro k.isLt (And.intro z.isLt g.isLt)))
  obtain ⟨h1, h2, h3, h4⟩ := word_split (Option.some.inj h) (by decide) (by simp only [putFields]; omega)
  simp only [putFields] at h4
  refine ⟨h1, ?_⟩
  simp only [decodeWord, h2, Nat.reduceDiv, Nat.reduceMod, decodeRow9, guardZero, h3,
    fld_eq (h4 16 7 (by decide)) (x := d) (by omega),
    fld_eq (h4 9 7 (by decide)) (x := a) (by omega),
    fld_eq (h4 5 4 (by decide)) (x := k) (by omega),
    fld_eq (h4 2 3 (by decide)) (x := z) (by omega),
    fld_eq (h4 0 2 (by decide)) (x := g) (by omega)]; rfl

theorem st (st : Bool) (d : BitVec 7) (a : BitVec 7) (k : BitVec 4) (z : BitVec 3) (g : BitVec 2) : Statement (.st st d a k z g) := by
  intro w h
  have hb := And.intro d.isLt (And.intro a.isLt (And.intro k.isLt (And.intro z.isLt g.isLt)))
  obtain ⟨h1, h2, h3, h4⟩ := word_split (Option.some.inj h) (by decide) (by simp only [putFields]; omega)
  simp only [putFields] at h4
  refine ⟨h1, ?_⟩
  simp only [decodeWord, h2, Nat.reduceDiv, Nat.reduceMod, decodeRow9, guardZero, h3,
    fld_eq (h4 16 7 (by decide)) (x := d) (by omega),
    fld_eq (h4 9 7 (by decide)) (x := a) (by omega),
    fld_eq (h4 5 4 (by decide)) (x := k) (by omega),
    fld_eq (h4 2 3 (by decide)) (x := z) (by omega),
    fld_eq (h4 0 2 (by decide)) (x := g) (by omega)]; rfl

theorem lds (st : Bool) (d : BitVec 7) (a : BitVec 7) (z : BitVec 3) (g : BitVec 2) : Statement (.lds st d a z g) := by
  intro w h
  have hb := And.intro d.isLt (And.intro a.isLt (And.intro z.isLt g.isLt))
  obtain ⟨h1, h2, h3, h4⟩ := word_split (Option.some.inj h) (by decide) (by simp only [putFields]; omega)
  simp only [putFields] at h4
  refine ⟨h1, ?_⟩
  simp only [decodeWord, h2, Nat.reduceDiv, Nat.reduceMod, decodeRow9, guardZero, h3,
    fld_eq (h4 16 7 (by decide)) (x := d) (by omega),
    fld_eq (h4 9 7 (by decide)) (x := a) (by omega),
    fld_eq (h4 2 3 (by decide)) (x := z) (by omega),
    fld_eq (h4 0 2 (by decide)) (x := g) (by omega),
    show bitsOf w 5 4 = 0 from (h4 5 4 (by decide)).trans (by omega)]; rfl

theorem sts (st : Bool) (d : BitVec 7) (a : BitVec 7) (z : BitVec 3) (g : BitVec 2) : Statement (.sts st d a z g) := by
  intro w h
  have hb := And.intro d.isLt (And.intro a.isLt (And.intro z.isLt g.isLt))
  obtain ⟨h1, h2, h3, h4⟩ := word_split (Option.some.inj h) (by decide) (by simp only [putFields]; omega)
  simp only [putFields] at h4
  refine ⟨h1, ?_⟩
  simp only [decodeWord, h2, Nat.reduceDiv, Nat.reduceMod, decodeRow9, guardZero, h3,
    fld_eq (h4 16 7 (by decide)) (x := d) (by omega),
    fld_eq (h4 9 7 (by decide)) (x := a) (by omega),
    fld_eq (h4 2 3 (by decide)) (x := z) (by omega),
    fld_eq (h4 0 2 (by decide)) (x := g) (by omega),
    show bitsOf w 5 4 = 0 from (h4 5 4 (by decide)).trans (by omega)]; rfl

theorem atom (st : Bool) (d : BitVec 7) (a : BitVec 7) (k : BitVec 4) (r : BitVec 1) (w0 : BitVec 1) (o : BitVec 3) : Statement (.atom st d a k r w0 o) := by
  intro w h
  have hb := And.intro d.isLt (And.intro a.isLt (And.intro k.isLt (And.intro r.isLt (And.intro w0.isLt o.isLt))))
  obtain ⟨h1, h2, h3, h4⟩ := word_split (Option.some.inj h) (by decide) (by simp only [putFields]; omega)
  simp only [putFields] at h4
  refine ⟨h1, ?_⟩
  simp only [decodeWord, h2, Nat.reduceDiv, Nat.reduceMod, decodeRow9, guardZero, h3,
    fld_eq (h4 16 7 (by decide)) (x := d) (by omega),
    fld_eq (h4 9 7 (by decide)) (x := a) (by omega),
    fld_eq (h4 5 4 (by decide)) (x := k) (by omega),
    fld_eq (h4 4 1 (by decide)) (x := r) (by omega),
    fld_eq (h4 3 1 (by decide)) (x := w0) (by omega),
    fld_eq (h4 0 3 (by decide)) (x := o) (by omega)]; rfl

theorem acas (st : Bool) (d : BitVec 7) (a : BitVec 7) (k : BitVec 4) (r : BitVec 1) (w0 : BitVec 1) : Statement (.acas st d a k r w0) := by
  intro w h
  have hb := And.intro d.isLt (And.intro a.isLt (And.intro k.isLt (And.intro r.isLt w0.isLt)))
  obtain ⟨h1, h2, h3, h4⟩ := word_split (Option.some.inj h) (by decide) (by simp only [putFields]; omega)
  simp only [putFields] at h4
  refine ⟨h1, ?_⟩
  simp only [decodeWord, h2, Nat.reduceDiv, Nat.reduceMod, decodeRow9, guardZero, h3,
    fld_eq (h4 16 7 (by decide)) (x := d) (by omega),
    fld_eq (h4 9 7 (by decide)) (x := a) (by omega),
    fld_eq (h4 5 4 (by decide)) (x := k) (by omega),
    fld_eq (h4 4 1 (by decide)) (x := r) (by omega),
    fld_eq (h4 3 1 (by decide)) (x := w0) (by omega),
    show bitsOf w 0 3 = 0 from (h4 0 3 (by decide)).trans (by omega)]; rfl

theorem prf (st : Bool) (l : BitVec 2) (a : BitVec 7) (z : BitVec 3) (g : BitVec 2) : Statement (.prf st l a z g) := by
  intro w h
  have hb := And.intro l.isLt (And.intro a.isLt (And.intro z.isLt g.isLt))
  obtain ⟨h1, h2, h3, h4⟩ := word_split (Option.some.inj h) (by decide) (by simp only [putFields]; omega)
  simp only [putFields] at h4
  refine ⟨h1, ?_⟩
  simp only [decodeWord, h2, Nat.reduceDiv, Nat.reduceMod, decodeRow9, guardZero, h3,
    fld_eq (h4 16 2 (by decide)) (x := l) (by omega),
    fld_eq (h4 9 7 (by decide)) (x := a) (by omega),
    fld_eq (h4 2 3 (by decide)) (x := z) (by omega),
    fld_eq (h4 0 2 (by decide)) (x := g) (by omega),
    show bitsOf w 5 4 = 0 from (h4 5 4 (by decide)).trans (by omega),
    show bitsOf w 18 5 = 0 from (h4 18 5 (by decide)).trans (by omega)]; rfl

theorem fence (st : Bool) (p : BitVec 3) (k : BitVec 2) (g : BitVec 2) : Statement (.fence st p k g) := by
  intro w h
  have hb := And.intro p.isLt (And.intro k.isLt g.isLt)
  obtain ⟨h1, h2, h3, h4⟩ := word_split (Option.some.inj h) (by decide) (by simp only [putFields]; omega)
  simp only [putFields] at h4
  refine ⟨h1, ?_⟩
  simp only [decodeWord, h2, Nat.reduceDiv, Nat.reduceMod, decodeRow9, guardZero, h3,
    fld_eq (h4 16 3 (by decide)) (x := p) (by omega),
    fld_eq (h4 2 2 (by decide)) (x := k) (by omega),
    fld_eq (h4 0 2 (by decide)) (x := g) (by omega),
    show bitsOf w 4 12 = 0 from (h4 4 12 (by decide)).trans (by omega),
    show bitsOf w 19 4 = 0 from (h4 19 4 (by decide)).trans (by omega)]; rfl

theorem cflush (st : Bool) (o : BitVec 2) (a : BitVec 7) (k : BitVec 4) (z : BitVec 3) (g : BitVec 2) : Statement (.cflush st o a k z g) := by
  intro w h
  have hb := And.intro o.isLt (And.intro a.isLt (And.intro k.isLt (And.intro z.isLt g.isLt)))
  obtain ⟨h1, h2, h3, h4⟩ := word_split (Option.some.inj h) (by decide) (by simp only [putFields]; omega)
  simp only [putFields] at h4
  refine ⟨h1, ?_⟩
  simp only [decodeWord, h2, Nat.reduceDiv, Nat.reduceMod, decodeRow9, guardZero, h3,
    fld_eq (h4 16 2 (by decide)) (x := o) (by omega),
    fld_eq (h4 9 7 (by decide)) (x := a) (by omega),
    fld_eq (h4 5 4 (by decide)) (x := k) (by omega),
    fld_eq (h4 2 3 (by decide)) (x := z) (by omega),
    fld_eq (h4 0 2 (by decide)) (x := g) (by omega),
    show bitsOf w 18 5 = 0 from (h4 18 5 (by decide)).trans (by omega)]; rfl

theorem ptst (st : Bool) (d : BitVec 7) (a : BitVec 7) (g : BitVec 2) : Statement (.ptst st d a g) := by
  intro w h
  have hb := And.intro d.isLt (And.intro a.isLt g.isLt)
  obtain ⟨h1, h2, h3, h4⟩ := word_split (Option.some.inj h) (by decide) (by simp only [putFields]; omega)
  simp only [putFields] at h4
  refine ⟨h1, ?_⟩
  simp only [decodeWord, h2, Nat.reduceDiv, Nat.reduceMod, decodeRow9, guardZero, h3,
    fld_eq (h4 16 7 (by decide)) (x := d) (by omega),
    fld_eq (h4 9 7 (by decide)) (x := a) (by omega),
    fld_eq (h4 0 2 (by decide)) (x := g) (by omega),
    show bitsOf w 2 7 = 0 from (h4 2 7 (by decide)).trans (by omega)]; rfl

theorem ldt (st : Bool) (d : BitVec 7) (a : BitVec 7) (k : BitVec 4) (g : BitVec 2) : Statement (.ldt st d a k g) := by
  intro w h
  have hb := And.intro d.isLt (And.intro a.isLt (And.intro k.isLt g.isLt))
  obtain ⟨h1, h2, h3, h4⟩ := word_split (Option.some.inj h) (by decide) (by simp only [putFields]; omega)
  simp only [putFields] at h4
  refine ⟨h1, ?_⟩
  simp only [decodeWord, h2, Nat.reduceDiv, Nat.reduceMod, decodeRow9, guardZero, h3,
    fld_eq (h4 16 7 (by decide)) (x := d) (by omega),
    fld_eq (h4 9 7 (by decide)) (x := a) (by omega),
    fld_eq (h4 5 4 (by decide)) (x := k) (by omega),
    fld_eq (h4 0 2 (by decide)) (x := g) (by omega),
    show bitsOf w 2 3 = 0 from (h4 2 3 (by decide)).trans (by omega)]; rfl

theorem stt (st : Bool) (d : BitVec 7) (a : BitVec 7) (k : BitVec 4) (g : BitVec 2) : Statement (.stt st d a k g) := by
  intro w h
  have hb := And.intro d.isLt (And.intro a.isLt (And.intro k.isLt g.isLt))
  obtain ⟨h1, h2, h3, h4⟩ := word_split (Option.some.inj h) (by decide) (by simp only [putFields]; omega)
  simp only [putFields] at h4
  refine ⟨h1, ?_⟩
  simp only [decodeWord, h2, Nat.reduceDiv, Nat.reduceMod, decodeRow9, guardZero, h3,
    fld_eq (h4 16 7 (by decide)) (x := d) (by omega),
    fld_eq (h4 9 7 (by decide)) (x := a) (by omega),
    fld_eq (h4 5 4 (by decide)) (x := k) (by omega),
    fld_eq (h4 0 2 (by decide)) (x := g) (by omega),
    show bitsOf w 2 3 = 0 from (h4 2 3 (by decide)).trans (by omega)]; rfl

theorem wait (st : Bool) (q : BitVec 2) (e : BitVec 1) (k : BitVec 16) (y : BitVec 1) (t : BitVec 1) (b : BitVec 1) : Statement (.wait st q e k y t b) := by
  intro w h
  have hb := And.intro q.isLt (And.intro e.isLt (And.intro k.isLt (And.intro y.isLt (And.intro t.isLt b.isLt))))
  obtain ⟨h1, h2, h3, h4⟩ := word_split (Option.some.inj h) (by decide) (by simp only [putFields]; omega)
  simp only [putFields] at h4
  refine ⟨h1, ?_⟩
  simp only [decodeWord, h2, Nat.reduceDiv, Nat.reduceMod, decodeRowA, guardZero, h3,
    fld_eq (h4 21 2 (by decide)) (x := q) (by omega),
    fld_eq (h4 20 1 (by decide)) (x := e) (by omega),
    fld_eq (h4 3 16 (by decide)) (x := k) (by omega),
    fld_eq (h4 2 1 (by decide)) (x := y) (by omega),
    fld_eq (h4 1 1 (by decide)) (x := t) (by omega),
    fld_eq (h4 0 1 (by decide)) (x := b) (by omega),
    show bitsOf w 19 1 = 0 from (h4 19 1 (by decide)).trans (by omega)]; rfl

theorem waitc (st : Bool) (k : BitVec 4) (a : BitVec 8) (q : BitVec 2) (e : BitVec 1) (t : BitVec 1) (b : BitVec 1) : Statement (.waitc st k a q e t b) := by
  intro w h
  have hb := And.intro k.isLt (And.intro a.isLt (And.intro q.isLt (And.intro e.isLt (And.intro t.isLt b.isLt))))
  obtain ⟨h1, h2, h3, h4⟩ := word_split (Option.some.inj h) (by decide) (by simp only [putFields]; omega)
  simp only [putFields] at h4
  refine ⟨h1, ?_⟩
  simp only [decodeWord, h2, Nat.reduceDiv, Nat.reduceMod, decodeRowA, guardZero, h3,
    fld_eq (h4 19 4 (by decide)) (x := k) (by omega),
    fld_eq (h4 11 8 (by decide)) (x := a) (by omega),
    fld_eq (h4 9 2 (by decide)) (x := q) (by omega),
    fld_eq (h4 8 1 (by decide)) (x := e) (by omega),
    fld_eq (h4 1 1 (by decide)) (x := t) (by omega),
    fld_eq (h4 0 1 (by decide)) (x := b) (by omega),
    show bitsOf w 2 6 = 0 from (h4 2 6 (by decide)).trans (by omega)]; rfl

theorem tst (st : Bool) (k : BitVec 4) (d : BitVec 8) (b : BitVec 8) (w0 : BitVec 1) : Statement (.tst st k d b w0) := by
  intro w h
  have hb := And.intro k.isLt (And.intro d.isLt (And.intro b.isLt w0.isLt))
  obtain ⟨h1, h2, h3, h4⟩ := word_split (Option.some.inj h) (by decide) (by simp only [putFields]; omega)
  simp only [putFields] at h4
  refine ⟨h1, ?_⟩
  simp only [decodeWord, h2, Nat.reduceDiv, Nat.reduceMod, decodeRowA, guardZero, h3,
    fld_eq (h4 19 4 (by decide)) (x := k) (by omega),
    fld_eq (h4 11 8 (by decide)) (x := d) (by omega),
    fld_eq (h4 3 8 (by decide)) (x := b) (by omega),
    fld_eq (h4 0 1 (by decide)) (x := w0) (by omega),
    show bitsOf w 1 2 = 0 from (h4 1 2 (by decide)).trans (by omega)]; rfl

theorem tclr (st : Bool) (k : BitVec 16) : Statement (.tclr st k) := by
  intro w h
  have hb := k.isLt
  obtain ⟨h1, h2, h3, h4⟩ := word_split (Option.some.inj h) (by decide) (by simp only [putFields]; omega)
  simp only [putFields] at h4
  refine ⟨h1, ?_⟩
  simp only [decodeWord, h2, Nat.reduceDiv, Nat.reduceMod, decodeRowA, guardZero, h3,
    fld_eq (h4 3 16 (by decide)) (x := k) (by omega),
    show bitsOf w 0 3 = 0 from (h4 0 3 (by decide)).trans (by omega),
    show bitsOf w 19 4 = 0 from (h4 19 4 (by decide)).trans (by omega)]; rfl

theorem texp (st : Bool) (k : BitVec 4) (a : BitVec 8) (b : BitVec 8) (y : BitVec 1) (r : BitVec 1) : Statement (.texp st k a b y r) := by
  intro w h
  have hb := And.intro k.isLt (And.intro a.isLt (And.intro b.isLt (And.intro y.isLt r.isLt)))
  obtain ⟨h1, h2, h3, h4⟩ := word_split (Option.some.inj h) (by decide) (by simp only [putFields]; omega)
  simp only [putFields] at h4
  refine ⟨h1, ?_⟩
  simp only [decodeWord, h2, Nat.reduceDiv, Nat.reduceMod, decodeRowA, guardZero, h3,
    fld_eq (h4 19 4 (by decide)) (x := k) (by omega),
    fld_eq (h4 11 8 (by decide)) (x := a) (by omega),
    fld_eq (h4 3 8 (by decide)) (x := b) (by omega),
    fld_eq (h4 1 1 (by decide)) (x := y) (by omega),
    fld_eq (h4 0 1 (by decide)) (x := r) (by omega),
    show bitsOf w 2 1 = 0 from (h4 2 1 (by decide)).trans (by omega)]; rfl

theorem binit (st : Bool) (k : BitVec 4) (a : BitVec 8) (b : BitVec 8) : Statement (.binit st k a b) := by
  intro w h
  have hb := And.intro k.isLt (And.intro a.isLt b.isLt)
  obtain ⟨h1, h2, h3, h4⟩ := word_split (Option.some.inj h) (by decide) (by simp only [putFields]; omega)
  simp only [putFields] at h4
  refine ⟨h1, ?_⟩
  simp only [decodeWord, h2, Nat.reduceDiv, Nat.reduceMod, decodeRowA, guardZero, h3,
    fld_eq (h4 19 4 (by decide)) (x := k) (by omega),
    fld_eq (h4 11 8 (by decide)) (x := a) (by omega),
    fld_eq (h4 3 8 (by decide)) (x := b) (by omega),
    show bitsOf w 0 3 = 0 from (h4 0 3 (by decide)).trans (by omega)]; rfl

theorem arv (st : Bool) (k : BitVec 4) (a : BitVec 8) (b : BitVec 8) (e : BitVec 1) (p : BitVec 1) : Statement (.arv st k a b e p) := by
  intro w h
  have hb := And.intro k.isLt (And.intro a.isLt (And.intro b.isLt (And.intro e.isLt p.isLt)))
  obtain ⟨h1, h2, h3, h4⟩ := word_split (Option.some.inj h) (by decide) (by simp only [putFields]; omega)
  simp only [putFields] at h4
  refine ⟨h1, ?_⟩
  simp only [decodeWord, h2, Nat.reduceDiv, Nat.reduceMod, decodeRowA, guardZero, h3,
    fld_eq (h4 19 4 (by decide)) (x := k) (by omega),
    fld_eq (h4 11 8 (by decide)) (x := a) (by omega),
    fld_eq (h4 3 8 (by decide)) (x := b) (by omega),
    fld_eq (h4 1 1 (by decide)) (x := e) (by omega),
    fld_eq (h4 0 1 (by decide)) (x := p) (by omega),
    show bitsOf w 2 1 = 0 from (h4 2 1 (by decide)).trans (by omega)]; rfl

theorem bwait (st : Bool) (q : BitVec 2) (e : BitVec 1) (a : BitVec 8) (b : BitVec 8) (t : BitVec 1) (p : BitVec 1) : Statement (.bwait st q e a b t p) := by
  intro w h
  have hb := And.intro q.isLt (And.intro e.isLt (And.intro a.isLt (And.intro b.isLt (And.intro t.isLt p.isLt))))
  obtain ⟨h1, h2, h3, h4⟩ := word_split (Option.some.inj h) (by decide) (by simp only [putFields]; omega)
  simp only [putFields] at h4
  refine ⟨h1, ?_⟩
  simp only [decodeWord, h2, Nat.reduceDiv, Nat.reduceMod, decodeRowA, guardZero, h3,
    fld_eq (h4 21 2 (by decide)) (x := q) (by omega),
    fld_eq (h4 20 1 (by decide)) (x := e) (by omega),
    fld_eq (h4 11 8 (by decide)) (x := a) (by omega),
    fld_eq (h4 3 8 (by decide)) (x := b) (by omega),
    fld_eq (h4 1 1 (by decide)) (x := t) (by omega),
    fld_eq (h4 0 1 (by decide)) (x := p) (by omega),
    show bitsOf w 2 1 = 0 from (h4 2 1 (by decide)).trans (by omega),
    show bitsOf w 19 1 = 0 from (h4 19 1 (by decide)).trans (by omega)]; rfl

theorem bpoll (st : Bool) (q : BitVec 2) (a : BitVec 8) (b : BitVec 8) : Statement (.bpoll st q a b) := by
  intro w h
  have hb := And.intro q.isLt (And.intro a.isLt b.isLt)
  obtain ⟨h1, h2, h3, h4⟩ := word_split (Option.some.inj h) (by decide) (by simp only [putFields]; omega)
  simp only [putFields] at h4
  refine ⟨h1, ?_⟩
  simp only [decodeWord, h2, Nat.reduceDiv, Nat.reduceMod, decodeRowA, guardZero, h3,
    fld_eq (h4 21 2 (by decide)) (x := q) (by omega),
    fld_eq (h4 11 8 (by decide)) (x := a) (by omega),
    fld_eq (h4 3 8 (by decide)) (x := b) (by omega),
    show bitsOf w 0 3 = 0 from (h4 0 3 (by decide)).trans (by omega),
    show bitsOf w 19 2 = 0 from (h4 19 2 (by decide)).trans (by omega)]; rfl

theorem cpy (st : Bool) (k : BitVec 4) (a : BitVec 8) (b : BitVec 8) (o : BitVec 1) (d : BitVec 1) : Statement (.cpy st k a b o d) := by
  intro w h
  have hb := And.intro k.isLt (And.intro a.isLt (And.intro b.isLt (And.intro o.isLt d.isLt)))
  obtain ⟨h1, h2, h3, h4⟩ := word_split (Option.some.inj h) (by decide) (by simp only [putFields]; omega)
  simp only [putFields] at h4
  refine ⟨h1, ?_⟩
  simp only [decodeWord, h2, Nat.reduceDiv, Nat.reduceMod, decodeRowB, guardZero, h3,
    fld_eq (h4 19 4 (by decide)) (x := k) (by omega),
    fld_eq (h4 11 8 (by decide)) (x := a) (by omega),
    fld_eq (h4 3 8 (by decide)) (x := b) (by omega),
    fld_eq (h4 1 1 (by decide)) (x := o) (by omega),
    fld_eq (h4 0 1 (by decide)) (x := d) (by omega),
    show bitsOf w 2 1 = 0 from (h4 2 1 (by decide)).trans (by omega)]; rfl

theorem launch (st : Bool) (k : BitVec 4) (a : BitVec 8) : Statement (.launch st k a) := by
  intro w h
  have hb := And.intro k.isLt a.isLt
  obtain ⟨h1, h2, h3, h4⟩ := word_split (Option.some.inj h) (by decide) (by simp only [putFields]; omega)
  simp only [putFields] at h4
  refine ⟨h1, ?_⟩
  simp only [decodeWord, h2, Nat.reduceDiv, Nat.reduceMod, decodeRowB, guardZero, h3,
    fld_eq (h4 19 4 (by decide)) (x := k) (by omega),
    fld_eq (h4 11 8 (by decide)) (x := a) (by omega),
    show bitsOf w 0 11 = 0 from (h4 0 11 (by decide)).trans (by omega)]; rfl

theorem sacq (st : Bool) (d : BitVec 8) (n : BitVec 3) : Statement (.sacq st d n) := by
  intro w h
  have hb := And.intro d.isLt n.isLt
  obtain ⟨h1, h2, h3, h4⟩ := word_split (Option.some.inj h) (by decide) (by simp only [putFields]; omega)
  simp only [putFields] at h4
  refine ⟨h1, ?_⟩
  simp only [decodeWord, h2, Nat.reduceDiv, Nat.reduceMod, decodeRowB, guardZero, h3,
    fld_eq (h4 11 8 (by decide)) (x := d) (by omega),
    fld_eq (h4 0 3 (by decide)) (x := n) (by omega),
    show bitsOf w 3 8 = 0 from (h4 3 8 (by decide)).trans (by omega),
    show bitsOf w 19 4 = 0 from (h4 19 4 (by decide)).trans (by omega)]; rfl

theorem spop (st : Bool) (d : BitVec 8) (c : BitVec 8) (n : BitVec 3) : Statement (.spop st d c n) := by
  intro w h
  have hb := And.intro d.isLt (And.intro c.isLt n.isLt)
  obtain ⟨h1, h2, h3, h4⟩ := word_split (Option.some.inj h) (by decide) (by simp only [putFields]; omega)
  simp only [putFields] at h4
  refine ⟨h1, ?_⟩
  simp only [decodeWord, h2, Nat.reduceDiv, Nat.reduceMod, decodeRowB, guardZero, h3,
    fld_eq (h4 11 8 (by decide)) (x := d) (by omega),
    fld_eq (h4 3 8 (by decide)) (x := c) (by omega),
    fld_eq (h4 0 3 (by decide)) (x := n) (by omega),
    show bitsOf w 19 4 = 0 from (h4 19 4 (by decide)).trans (by omega)]; rfl

theorem srel (st : Bool) (a : BitVec 8) (f : BitVec 1) (n : BitVec 3) : Statement (.srel st a f n) := by
  intro w h
  have hb := And.intro a.isLt (And.intro f.isLt n.isLt)
  obtain ⟨h1, h2, h3, h4⟩ := word_split (Option.some.inj h) (by decide) (by simp only [putFields]; omega)
  simp only [putFields] at h4
  refine ⟨h1, ?_⟩
  simp only [decodeWord, h2, Nat.reduceDiv, Nat.reduceMod, decodeRowB, guardZero, h3,
    fld_eq (h4 11 8 (by decide)) (x := a) (by omega),
    fld_eq (h4 3 1 (by decide)) (x := f) (by omega),
    fld_eq (h4 0 3 (by decide)) (x := n) (by omega),
    show bitsOf w 4 7 = 0 from (h4 4 7 (by decide)).trans (by omega),
    show bitsOf w 19 4 = 0 from (h4 19 4 (by decide)).trans (by omega)]; rfl

theorem kvld (st : Bool) (k : BitVec 4) (a : BitVec 8) (b : BitVec 8) (o : BitVec 1) (w0 : BitVec 1) : Statement (.kvld st k a b o w0) := by
  intro w h
  have hb := And.intro k.isLt (And.intro a.isLt (And.intro b.isLt (And.intro o.isLt w0.isLt)))
  obtain ⟨h1, h2, h3, h4⟩ := word_split (Option.some.inj h) (by decide) (by simp only [putFields]; omega)
  simp only [putFields] at h4
  refine ⟨h1, ?_⟩
  simp only [decodeWord, h2, Nat.reduceDiv, Nat.reduceMod, decodeRowB, guardZero, h3,
    fld_eq (h4 19 4 (by decide)) (x := k) (by omega),
    fld_eq (h4 11 8 (by decide)) (x := a) (by omega),
    fld_eq (h4 3 8 (by decide)) (x := b) (by omega),
    fld_eq (h4 1 1 (by decide)) (x := o) (by omega),
    fld_eq (h4 0 1 (by decide)) (x := w0) (by omega),
    show bitsOf w 2 1 = 0 from (h4 2 1 (by decide)).trans (by omega)]; rfl

theorem kvseal (st : Bool) (k : BitVec 4) (a : BitVec 8) (b : BitVec 8) : Statement (.kvseal st k a b) := by
  intro w h
  have hb := And.intro k.isLt (And.intro a.isLt b.isLt)
  obtain ⟨h1, h2, h3, h4⟩ := word_split (Option.some.inj h) (by decide) (by simp only [putFields]; omega)
  simp only [putFields] at h4
  refine ⟨h1, ?_⟩
  simp only [decodeWord, h2, Nat.reduceDiv, Nat.reduceMod, decodeRowB, guardZero, h3,
    fld_eq (h4 19 4 (by decide)) (x := k) (by omega),
    fld_eq (h4 11 8 (by decide)) (x := a) (by omega),
    fld_eq (h4 3 8 (by decide)) (x := b) (by omega),
    show bitsOf w 0 3 = 0 from (h4 0 3 (by decide)).trans (by omega)]; rfl

theorem kvhdr (st : Bool) (k : BitVec 4) (a : BitVec 8) (b : BitVec 8) : Statement (.kvhdr st k a b) := by
  intro w h
  have hb := And.intro k.isLt (And.intro a.isLt b.isLt)
  obtain ⟨h1, h2, h3, h4⟩ := word_split (Option.some.inj h) (by decide) (by simp only [putFields]; omega)
  simp only [putFields] at h4
  refine ⟨h1, ?_⟩
  simp only [decodeWord, h2, Nat.reduceDiv, Nat.reduceMod, decodeRowB, guardZero, h3,
    fld_eq (h4 19 4 (by decide)) (x := k) (by omega),
    fld_eq (h4 11 8 (by decide)) (x := a) (by omega),
    fld_eq (h4 3 8 (by decide)) (x := b) (by omega),
    show bitsOf w 0 3 = 0 from (h4 0 3 (by decide)).trans (by omega)]; rfl

theorem coll (st : Bool) (k : BitVec 4) (a : BitVec 8) (b : BitVec 8) : Statement (.coll st k a b) := by
  intro w h
  have hb := And.intro k.isLt (And.intro a.isLt b.isLt)
  obtain ⟨h1, h2, h3, h4⟩ := word_split (Option.some.inj h) (by decide) (by simp only [putFields]; omega)
  simp only [putFields] at h4
  refine ⟨h1, ?_⟩
  simp only [decodeWord, h2, Nat.reduceDiv, Nat.reduceMod, decodeRowB, guardZero, h3,
    fld_eq (h4 19 4 (by decide)) (x := k) (by omega),
    fld_eq (h4 11 8 (by decide)) (x := a) (by omega),
    fld_eq (h4 3 8 (by decide)) (x := b) (by omega),
    show bitsOf w 0 3 = 0 from (h4 0 3 (by decide)).trans (by omega)]; rfl

theorem mcst (st : Bool) (k : BitVec 4) (a : BitVec 8) (b : BitVec 8) : Statement (.mcst st k a b) := by
  intro w h
  have hb := And.intro k.isLt (And.intro a.isLt b.isLt)
  obtain ⟨h1, h2, h3, h4⟩ := word_split (Option.some.inj h) (by decide) (by simp only [putFields]; omega)
  simp only [putFields] at h4
  refine ⟨h1, ?_⟩
  simp only [decodeWord, h2, Nat.reduceDiv, Nat.reduceMod, decodeRowB, guardZero, h3,
    fld_eq (h4 19 4 (by decide)) (x := k) (by omega),
    fld_eq (h4 11 8 (by decide)) (x := a) (by omega),
    fld_eq (h4 3 8 (by decide)) (x := b) (by omega),
    show bitsOf w 0 3 = 0 from (h4 0 3 (by decide)).trans (by omega)]; rfl

theorem rte (st : Bool) (k : BitVec 4) (a : BitVec 8) (b : BitVec 8) : Statement (.rte st k a b) := by
  intro w h
  have hb := And.intro k.isLt (And.intro a.isLt b.isLt)
  obtain ⟨h1, h2, h3, h4⟩ := word_split (Option.some.inj h) (by decide) (by simp only [putFields]; omega)
  simp only [putFields] at h4
  refine ⟨h1, ?_⟩
  simp only [decodeWord, h2, Nat.reduceDiv, Nat.reduceMod, decodeRowB, guardZero, h3,
    fld_eq (h4 19 4 (by decide)) (x := k) (by omega),
    fld_eq (h4 11 8 (by decide)) (x := a) (by omega),
    fld_eq (h4 3 8 (by decide)) (x := b) (by omega),
    show bitsOf w 0 3 = 0 from (h4 0 3 (by decide)).trans (by omega)]; rfl

theorem rtc (st : Bool) (k : BitVec 4) (a : BitVec 8) (b : BitVec 8) : Statement (.rtc st k a b) := by
  intro w h
  have hb := And.intro k.isLt (And.intro a.isLt b.isLt)
  obtain ⟨h1, h2, h3, h4⟩ := word_split (Option.some.inj h) (by decide) (by simp only [putFields]; omega)
  simp only [putFields] at h4
  refine ⟨h1, ?_⟩
  simp only [decodeWord, h2, Nat.reduceDiv, Nat.reduceMod, decodeRowB, guardZero, h3,
    fld_eq (h4 19 4 (by decide)) (x := k) (by omega),
    fld_eq (h4 11 8 (by decide)) (x := a) (by omega),
    fld_eq (h4 3 8 (by decide)) (x := b) (by omega),
    show bitsOf w 0 3 = 0 from (h4 0 3 (by decide)).trans (by omega)]; rfl

theorem mmaBf16 (st : Bool) (k : BitVec 4) (c : BitVec 5) (a : BitVec 7) (b : BitVec 7) : Statement (.mmaBf16 st k c a b) := by
  intro w h
  have hb := And.intro k.isLt (And.intro c.isLt (And.intro a.isLt b.isLt))
  obtain ⟨h1, h2, h3, h4⟩ := word_split (Option.some.inj h) (by decide) (by simp only [putFields]; omega)
  simp only [putFields] at h4
  refine ⟨h1, ?_⟩
  simp only [decodeWord, h2, Nat.reduceDiv, Nat.reduceMod, decodeRowC, guardZero, h3,
    fld_eq (h4 19 4 (by decide)) (x := k) (by omega),
    fld_eq (h4 14 5 (by decide)) (x := c) (by omega),
    fld_eq (h4 7 7 (by decide)) (x := a) (by omega),
    fld_eq (h4 0 7 (by decide)) (x := b) (by omega)]; rfl

theorem mmaF16 (st : Bool) (k : BitVec 4) (c : BitVec 5) (a : BitVec 7) (b : BitVec 7) : Statement (.mmaF16 st k c a b) := by
  intro w h
  have hb := And.intro k.isLt (And.intro c.isLt (And.intro a.isLt b.isLt))
  obtain ⟨h1, h2, h3, h4⟩ := word_split (Option.some.inj h) (by decide) (by simp only [putFields]; omega)
  simp only [putFields] at h4
  refine ⟨h1, ?_⟩
  simp only [decodeWord, h2, Nat.reduceDiv, Nat.reduceMod, decodeRowC, guardZero, h3,
    fld_eq (h4 19 4 (by decide)) (x := k) (by omega),
    fld_eq (h4 14 5 (by decide)) (x := c) (by omega),
    fld_eq (h4 7 7 (by decide)) (x := a) (by omega),
    fld_eq (h4 0 7 (by decide)) (x := b) (by omega)]; rfl

theorem mmaE4m3 (st : Bool) (k : BitVec 4) (c : BitVec 5) (a : BitVec 7) (b : BitVec 7) : Statement (.mmaE4m3 st k c a b) := by
  intro w h
  have hb := And.intro k.isLt (And.intro c.isLt (And.intro a.isLt b.isLt))
  obtain ⟨h1, h2, h3, h4⟩ := word_split (Option.some.inj h) (by decide) (by simp only [putFields]; omega)
  simp only [putFields] at h4
  refine ⟨h1, ?_⟩
  simp only [decodeWord, h2, Nat.reduceDiv, Nat.reduceMod, decodeRowC, guardZero, h3,
    fld_eq (h4 19 4 (by decide)) (x := k) (by omega),
    fld_eq (h4 14 5 (by decide)) (x := c) (by omega),
    fld_eq (h4 7 7 (by decide)) (x := a) (by omega),
    fld_eq (h4 0 7 (by decide)) (x := b) (by omega)]; rfl

theorem mmaE5m2 (st : Bool) (k : BitVec 4) (c : BitVec 5) (a : BitVec 7) (b : BitVec 7) : Statement (.mmaE5m2 st k c a b) := by
  intro w h
  have hb := And.intro k.isLt (And.intro c.isLt (And.intro a.isLt b.isLt))
  obtain ⟨h1, h2, h3, h4⟩ := word_split (Option.some.inj h) (by decide) (by simp only [putFields]; omega)
  simp only [putFields] at h4
  refine ⟨h1, ?_⟩
  simp only [decodeWord, h2, Nat.reduceDiv, Nat.reduceMod, decodeRowC, guardZero, h3,
    fld_eq (h4 19 4 (by decide)) (x := k) (by omega),
    fld_eq (h4 14 5 (by decide)) (x := c) (by omega),
    fld_eq (h4 7 7 (by decide)) (x := a) (by omega),
    fld_eq (h4 0 7 (by decide)) (x := b) (by omega)]; rfl

theorem mmaE2m3 (st : Bool) (k : BitVec 4) (c : BitVec 5) (a : BitVec 7) (b : BitVec 7) : Statement (.mmaE2m3 st k c a b) := by
  intro w h
  have hb := And.intro k.isLt (And.intro c.isLt (And.intro a.isLt b.isLt))
  obtain ⟨h1, h2, h3, h4⟩ := word_split (Option.some.inj h) (by decide) (by simp only [putFields]; omega)
  simp only [putFields] at h4
  refine ⟨h1, ?_⟩
  simp only [decodeWord, h2, Nat.reduceDiv, Nat.reduceMod, decodeRowC, guardZero, h3,
    fld_eq (h4 19 4 (by decide)) (x := k) (by omega),
    fld_eq (h4 14 5 (by decide)) (x := c) (by omega),
    fld_eq (h4 7 7 (by decide)) (x := a) (by omega),
    fld_eq (h4 0 7 (by decide)) (x := b) (by omega)]; rfl

theorem mmaE3m2 (st : Bool) (k : BitVec 4) (c : BitVec 5) (a : BitVec 7) (b : BitVec 7) : Statement (.mmaE3m2 st k c a b) := by
  intro w h
  have hb := And.intro k.isLt (And.intro c.isLt (And.intro a.isLt b.isLt))
  obtain ⟨h1, h2, h3, h4⟩ := word_split (Option.some.inj h) (by decide) (by simp only [putFields]; omega)
  simp only [putFields] at h4
  refine ⟨h1, ?_⟩
  simp only [decodeWord, h2, Nat.reduceDiv, Nat.reduceMod, decodeRowC, guardZero, h3,
    fld_eq (h4 19 4 (by decide)) (x := k) (by omega),
    fld_eq (h4 14 5 (by decide)) (x := c) (by omega),
    fld_eq (h4 7 7 (by decide)) (x := a) (by omega),
    fld_eq (h4 0 7 (by decide)) (x := b) (by omega)]; rfl

theorem mmaI8 (st : Bool) (k : BitVec 4) (c : BitVec 5) (a : BitVec 7) (b : BitVec 7) : Statement (.mmaI8 st k c a b) := by
  intro w h
  have hb := And.intro k.isLt (And.intro c.isLt (And.intro a.isLt b.isLt))
  obtain ⟨h1, h2, h3, h4⟩ := word_split (Option.some.inj h) (by decide) (by simp only [putFields]; omega)
  simp only [putFields] at h4
  refine ⟨h1, ?_⟩
  simp only [decodeWord, h2, Nat.reduceDiv, Nat.reduceMod, decodeRowC, guardZero, h3,
    fld_eq (h4 19 4 (by decide)) (x := k) (by omega),
    fld_eq (h4 14 5 (by decide)) (x := c) (by omega),
    fld_eq (h4 7 7 (by decide)) (x := a) (by omega),
    fld_eq (h4 0 7 (by decide)) (x := b) (by omega)]; rfl

theorem mmaE2m1 (st : Bool) (k : BitVec 4) (c : BitVec 5) (a : BitVec 7) (b : BitVec 7) : Statement (.mmaE2m1 st k c a b) := by
  intro w h
  have hb := And.intro k.isLt (And.intro c.isLt (And.intro a.isLt b.isLt))
  obtain ⟨h1, h2, h3, h4⟩ := word_split (Option.some.inj h) (by decide) (by simp only [putFields]; omega)
  simp only [putFields] at h4
  refine ⟨h1, ?_⟩
  simp only [decodeWord, h2, Nat.reduceDiv, Nat.reduceMod, decodeRowC, guardZero, h3,
    fld_eq (h4 19 4 (by decide)) (x := k) (by omega),
    fld_eq (h4 14 5 (by decide)) (x := c) (by omega),
    fld_eq (h4 7 7 (by decide)) (x := a) (by omega),
    fld_eq (h4 0 7 (by decide)) (x := b) (by omega)]; rfl

theorem mmaSx4 (st : Bool) (k : BitVec 4) (c : BitVec 5) (a : BitVec 7) (b : BitVec 7) : Statement (.mmaSx4 st k c a b) := by
  intro w h
  have hb := And.intro k.isLt (And.intro c.isLt (And.intro a.isLt b.isLt))
  obtain ⟨h1, h2, h3, h4⟩ := word_split (Option.some.inj h) (by decide) (by simp only [putFields]; omega)
  simp only [putFields] at h4
  refine ⟨h1, ?_⟩
  simp only [decodeWord, h2, Nat.reduceDiv, Nat.reduceMod, decodeRowC, guardZero, h3,
    fld_eq (h4 19 4 (by decide)) (x := k) (by omega),
    fld_eq (h4 14 5 (by decide)) (x := c) (by omega),
    fld_eq (h4 7 7 (by decide)) (x := a) (by omega),
    fld_eq (h4 0 7 (by decide)) (x := b) (by omega)]; rfl

theorem acrel (st : Bool) (c : BitVec 5) : Statement (.acrel st c) := by
  intro w h
  have hb := c.isLt
  obtain ⟨h1, h2, h3, h4⟩ := word_split (Option.some.inj h) (by decide) (by simp only [putFields]; omega)
  simp only [putFields] at h4
  refine ⟨h1, ?_⟩
  simp only [decodeWord, h2, Nat.reduceDiv, Nat.reduceMod, decodeRowC, guardZero, h3,
    fld_eq (h4 14 5 (by decide)) (x := c) (by omega),
    show bitsOf w 0 14 = 0 from (h4 0 14 (by decide)).trans (by omega),
    show bitsOf w 19 4 = 0 from (h4 19 4 (by decide)).trans (by omega)]; rfl

theorem acacq (st : Bool) (k : BitVec 4) (c : BitVec 5) : Statement (.acacq st k c) := by
  intro w h
  have hb := And.intro k.isLt c.isLt
  obtain ⟨h1, h2, h3, h4⟩ := word_split (Option.some.inj h) (by decide) (by simp only [putFields]; omega)
  simp only [putFields] at h4
  refine ⟨h1, ?_⟩
  simp only [decodeWord, h2, Nat.reduceDiv, Nat.reduceMod, decodeRowC, guardZero, h3,
    fld_eq (h4 19 4 (by decide)) (x := k) (by omega),
    fld_eq (h4 14 5 (by decide)) (x := c) (by omega),
    show bitsOf w 0 14 = 0 from (h4 0 14 (by decide)).trans (by omega)]; rfl

theorem acz (st : Bool) (c : BitVec 5) : Statement (.acz st c) := by
  intro w h
  have hb := c.isLt
  obtain ⟨h1, h2, h3, h4⟩ := word_split (Option.some.inj h) (by decide) (by simp only [putFields]; omega)
  simp only [putFields] at h4
  refine ⟨h1, ?_⟩
  simp only [decodeWord, h2, Nat.reduceDiv, Nat.reduceMod, decodeRowC, guardZero, h3,
    fld_eq (h4 14 5 (by decide)) (x := c) (by omega),
    show bitsOf w 0 14 = 0 from (h4 0 14 (by decide)).trans (by omega),
    show bitsOf w 19 4 = 0 from (h4 19 4 (by decide)).trans (by omega)]; rfl

theorem acrd (st : Bool) (c : BitVec 5) (d : BitVec 7) (b : BitVec 7) : Statement (.acrd st c d b) := by
  intro w h
  have hb := And.intro c.isLt (And.intro d.isLt b.isLt)
  obtain ⟨h1, h2, h3, h4⟩ := word_split (Option.some.inj h) (by decide) (by simp only [putFields]; omega)
  simp only [putFields] at h4
  refine ⟨h1, ?_⟩
  simp only [decodeWord, h2, Nat.reduceDiv, Nat.reduceMod, decodeRowC, guardZero, h3,
    fld_eq (h4 14 5 (by decide)) (x := c) (by omega),
    fld_eq (h4 7 7 (by decide)) (x := d) (by omega),
    fld_eq (h4 0 7 (by decide)) (x := b) (by omega),
    show bitsOf w 19 4 = 0 from (h4 19 4 (by decide)).trans (by omega)]; rfl

theorem acwr (st : Bool) (c : BitVec 5) (a : BitVec 7) (b : BitVec 7) : Statement (.acwr st c a b) := by
  intro w h
  have hb := And.intro c.isLt (And.intro a.isLt b.isLt)
  obtain ⟨h1, h2, h3, h4⟩ := word_split (Option.some.inj h) (by decide) (by simp only [putFields]; omega)
  simp only [putFields] at h4
  refine ⟨h1, ?_⟩
  simp only [decodeWord, h2, Nat.reduceDiv, Nat.reduceMod, decodeRowC, guardZero, h3,
    fld_eq (h4 14 5 (by decide)) (x := c) (by omega),
    fld_eq (h4 7 7 (by decide)) (x := a) (by omega),
    fld_eq (h4 0 7 (by decide)) (x := b) (by omega),
    show bitsOf w 19 4 = 0 from (h4 19 4 (by decide)).trans (by omega)]; rfl

theorem longResultLand (g : Nat) (lane : Nat) : Statement (.longResultLand g lane) := fun _ h => nomatch h

theorem threadStarved (g : Nat) (lane : Nat) : Statement (.threadStarved g lane) := fun _ h => nomatch h

theorem groupStarvationGuard (g : Nat) : Statement (.groupStarvationGuard g) := fun _ h => nomatch h

theorem trapEntry (g : Nat) (lane : Nat) : Statement (.trapEntry g lane) := fun _ h => nomatch h

theorem storeQueueDrain (g : Nat) : Statement (.storeQueueDrain g) := fun _ h => nomatch h

theorem memoryReply (op : Nat) (lane : Nat) : Statement (.memoryReply op lane) := fun _ h => nomatch h

theorem tlbWalkReturn (clu : Nat) (asid : Nat) (va : Nat) : Statement (.tlbWalkReturn clu asid va) := fun _ h => nomatch h

theorem lightFaultService (asid : Nat) (va : Nat) : Statement (.lightFaultService asid va) := fun _ h => nomatch h

theorem migration (asid : Nat) (va : Nat) (frame : Nat) : Statement (.migration asid va frame) := fun _ h => nomatch h

theorem migrationSwapOut (team : Nat) : Statement (.migrationSwapOut team) := fun _ h => nomatch h

theorem engineCommandStart (op : Nat) : Statement (.engineCommandStart op) := fun _ h => nomatch h

theorem chunkLand (op : Nat) (i : Nat) : Statement (.chunkLand op i) := fun _ h => nomatch h

theorem copyFinish (op : Nat) : Statement (.copyFinish op) := fun _ h => nomatch h

theorem ldtRetry (op : Nat) (lane : Nat) : Statement (.ldtRetry op lane) := fun _ h => nomatch h

theorem sttProgress (op : Nat) (lane : Nat) : Statement (.sttProgress op lane) := fun _ h => nomatch h

theorem mmaStart (op : Nat) : Statement (.mmaStart op) := fun _ h => nomatch h

theorem mmaFinish (op : Nat) : Statement (.mmaFinish op) := fun _ h => nomatch h

theorem acacqFinish (op : Nat) : Statement (.acacqFinish op) := fun _ h => nomatch h

theorem kvConversion (frame : Nat) (half : Nat) : Statement (.kvConversion frame half) := fun _ h => nomatch h

theorem kvPairing (asid : Nat) (vp : Nat) (vq : Nat) : Statement (.kvPairing asid vp vq) := fun _ h => nomatch h

theorem kvldRetry (op : Nat) : Statement (.kvldRetry op) := fun _ h => nomatch h

theorem kvhdrRefill (op : Nat) : Statement (.kvhdrRefill op) := fun _ h => nomatch h

theorem barrierUpdate (n : Nat) : Statement (.barrierUpdate n) := fun _ h => nomatch h

theorem quiescenceTimer (op : Nat) : Statement (.quiescenceTimer op) := fun _ h => nomatch h

theorem launchValidation (l : Nat) : Statement (.launchValidation l) := fun _ h => nomatch h

theorem launchPreconditionsHeld (l : Nat) : Statement (.launchPreconditionsHeld l) := fun _ h => nomatch h

theorem leasePin (l : Nat) : Statement (.leasePin l) := fun _ h => nomatch h

theorem placementDecision (die : Nat) : Statement (.placementDecision die) := fun _ h => nomatch h

theorem reservation (die : Nat) : Statement (.reservation die) := fun _ h => nomatch h

theorem reservationAnswer (die : Nat) : Statement (.reservationAnswer die) := fun _ h => nomatch h

theorem preemption (l : Nat) : Statement (.preemption l) := fun _ h => nomatch h

theorem unplaceableLog (l : Nat) : Statement (.unplaceableLog l) := fun _ h => nomatch h

theorem forcedFullSave (team : Nat) : Statement (.forcedFullSave team) := fun _ h => nomatch h

theorem teamSave (team : Nat) : Statement (.teamSave team) := fun _ h => nomatch h

theorem saveWatchdog (team : Nat) : Statement (.saveWatchdog team) := fun _ h => nomatch h

theorem savedCompletion (op : Nat) (lane : Nat) : Statement (.savedCompletion op lane) := fun _ h => nomatch h

theorem teamRetire (team : Nat) : Statement (.teamRetire team) := fun _ h => nomatch h

theorem launchRetire (l : Nat) : Statement (.launchRetire l) := fun _ h => nomatch h

theorem teardownRelease (asid : Nat) : Statement (.teardownRelease asid) := fun _ h => nomatch h

theorem pinTimeout (gid : Nat) : Statement (.pinTimeout gid) := fun _ h => nomatch h

theorem retransmitTimeout (txid : Nat) : Statement (.retransmitTimeout txid) := fun _ h => nomatch h

theorem reductionStep (op : Nat) (slot : Nat) : Statement (.reductionStep op slot) := fun _ h => nomatch h

theorem combineStep (op : Nat) (i : Nat) : Statement (.combineStep op i) := fun _ h => nomatch h

theorem gatherServe (op : Nat) (n : Nat) : Statement (.gatherServe op n) := fun _ h => nomatch h

theorem dispatchPlacement (op : Nat) : Statement (.dispatchPlacement op) := fun _ h => nomatch h

theorem collectiveFinish (op : Nat) : Statement (.collectiveFinish op) := fun _ h => nomatch h

theorem dispatchFinish (op : Nat) : Statement (.dispatchFinish op) := fun _ h => nomatch h

theorem doorbell (page : Nat) (off : Nat) (data : Bytes) : Statement (.doorbell page off data) := fun _ h => nomatch h

theorem doorbellApply (n : Nat) : Statement (.doorbellApply n) := fun _ h => nomatch h

theorem bar2Write (off : Nat) (data : Bytes) : Statement (.bar2Write off data) := fun _ h => nomatch h

theorem bar2Read (off : Nat) (len : Nat) : Statement (.bar2Read off len) := fun _ h => nomatch h

theorem msixUnmask (vec : Nat) : Statement (.msixUnmask vec) := fun _ h => nomatch h

theorem hostReadCompletion (rid : Nat) (status : Nat) (data : Bytes) : Statement (.hostReadCompletion rid status data) := fun _ h => nomatch h

theorem hostReadTimeout (rid : Nat) : Statement (.hostReadTimeout rid) := fun _ h => nomatch h

theorem registerWrite (off : Nat) (data : Bytes) : Statement (.registerWrite off data) := fun _ h => nomatch h

theorem create (asid : Nat) (fring : Nat) : Statement (.create asid fring) := fun _ h => nomatch h

theorem karicHello (port : Nat) (width : Nat) (pkt : Packet) : Statement (.karicHello port width pkt) := fun _ h => nomatch h

theorem portDegraded (port : Nat) : Statement (.portDegraded port) := fun _ h => nomatch h

theorem linkFail (port : Nat) : Statement (.linkFail port) := fun _ h => nomatch h

theorem portRestored (port : Nat) : Statement (.portRestored port) := fun _ h => nomatch h

theorem l2UncorrectableError (line : Nat) : Statement (.l2UncorrectableError line) := fun _ h => nomatch h

theorem cleanLineError (line : Nat) : Statement (.cleanLineError line) := fun _ h => nomatch h

theorem hbmUncorrectableError (line : Nat) : Statement (.hbmUncorrectableError line) := fun _ h => nomatch h

theorem clockStepDown (die : Nat) : Statement (.clockStepDown die) := fun _ h => nomatch h

theorem clockStepUp (die : Nat) : Statement (.clockStepUp die) := fun _ h => nomatch h

theorem thermalLimit (die : Nat) : Statement (.thermalLimit die) := fun _ h => nomatch h

theorem illegalInstruction (detail : Nat) : Statement (.illegalInstruction detail) := fun _ h => nomatch h

theorem runAheadFetch (g : Nat) (n : Nat) : Statement (.runAheadFetch g n) := fun _ h => nomatch h

theorem correctedSoftError (unit : Nat) : Statement (.correctedSoftError unit) := fun _ h => nomatch h

theorem thermalLimitClear (die : Nat) : Statement (.thermalLimitClear die) := fun _ h => nomatch h

theorem watchReread (g : Nat) : Statement (.watchReread g) := fun _ h => nomatch h

theorem fabricStartDelay : Statement (.fabricStartDelay) := fun _ h => nomatch h

theorem teardown : Statement (.teardown) := fun _ h => nomatch h

theorem deschedule : Statement (.deschedule) := fun _ h => nomatch h

theorem reschedule : Statement (.reschedule) := fun _ h => nomatch h

theorem pte : Statement (.pte) := fun _ h => nomatch h

theorem residency : Statement (.residency) := fun _ h => nomatch h

theorem thresholds : Statement (.thresholds) := fun _ h => nomatch h

theorem ffring : Statement (.ffring) := fun _ h => nomatch h

theorem refill : Statement (.refill) := fun _ h => nomatch h

theorem savepool : Statement (.savepool) := fun _ h => nomatch h

theorem retired : Statement (.retired) := fun _ h => nomatch h

theorem clearlost : Statement (.clearlost) := fun _ h => nomatch h

theorem aperture : Statement (.aperture) := fun _ h => nomatch h

theorem fabric : Statement (.fabric) := fun _ h => nomatch h

theorem counters : Statement (.counters) := fun _ h => nomatch h

theorem power : Statement (.power) := fun _ h => nomatch h

theorem attest : Statement (.attest) := fun _ h => nomatch h

theorem fwupdate : Statement (.fwupdate) := fun _ h => nomatch h

theorem recoveryGo : Statement (.recoveryGo) := fun _ h => nomatch h

theorem deviceReset : Statement (.deviceReset) := fun _ h => nomatch h

theorem karicForward : Statement (.karicForward) := fun _ h => nomatch h

theorem karicRdreq : Statement (.karicRdreq) := fun _ h => nomatch h

theorem karicWr : Statement (.karicWr) := fun _ h => nomatch h

theorem karicAtom : Statement (.karicAtom) := fun _ h => nomatch h

theorem karicRdrsp : Statement (.karicRdrsp) := fun _ h => nomatch h

theorem karicWrack : Statement (.karicWrack) := fun _ h => nomatch h

theorem karicAtrsp : Statement (.karicAtrsp) := fun _ h => nomatch h

theorem karicChack : Statement (.karicChack) := fun _ h => nomatch h

theorem karicNack : Statement (.karicNack) := fun _ h => nomatch h

theorem karicChunk : Statement (.karicChunk) := fun _ h => nomatch h

theorem karicDisp : Statement (.karicDisp) := fun _ h => nomatch h

theorem karicFlag : Statement (.karicFlag) := fun _ h => nomatch h

theorem mgmtPin : Statement (.mgmtPin) := fun _ h => nomatch h

theorem mgmtPinans : Statement (.mgmtPinans) := fun _ h => nomatch h

theorem mgmtUnpin : Statement (.mgmtUnpin) := fun _ h => nomatch h

theorem mgmtCdesc : Statement (.mgmtCdesc) := fun _ h => nomatch h

theorem mgmtDdesc : Statement (.mgmtDdesc) := fun _ h => nomatch h

theorem mgmtCancel : Statement (.mgmtCancel) := fun _ h => nomatch h

theorem mgmtGather : Statement (.mgmtGather) := fun _ h => nomatch h

theorem mgmtWatch : Statement (.mgmtWatch) := fun _ h => nomatch h

theorem mgmtAdvanced : Statement (.mgmtAdvanced) := fun _ h => nomatch h

theorem thermalShutdown : Statement (.thermalShutdown) := fun _ h => nomatch h

end Sys2Proof.Laws.Encoding
end

