-- ==== Sys2Proof/Laws/Traps.lean ====
section
/-!
SUPPORT. What the commit of a word does when every thread of its issue set takes a trap and enters the handler.
-/
namespace Sys2Proof.Machine
open Sys2Proof

theorem closeSegment_empty (g : Group) (t : Thread) (h : t.pend = []) : closeSegment g t = (g, t, none) := by
  have : ({ t with pend := [] } : Thread) = t := by cases t; simp_all
  simp [closeSegment, h, firstRaise, applyAll, this]

@[simp] theorem trackers_setGroup (s : State) (g : Group) (u l n : Nat) : trackers (s.setGroup g) u l n = trackers s u l n := rfl
@[simp] theorem enterHandler_uid (g : Group) (lane : Nat) (t : Thread) (r : TrapReq) (h : Nat) : (enterHandler g lane t r h).uid = g.uid := rfl

theorem resolve_trap (now : Nat) (x : Issue) (g : Group) (lane op : Nat) (code : Word) (addr : DWord) (size : Nat) (h : (g.thread lane).pend = [])
    (ho : x.op = BitVec.ofNat 8 op) :
    resolve now x g lane (.trap code addr size) = (g, .trapped (g.thread lane) (trapOf op code addr size (g.thread lane))) := by
  simp [resolve, resolveTrap, closeSegment_empty g _ h, trapOf, ho, Thread.trapReq, Thread.chainPc]

theorem resolveAll_trap (now : Nat) (x : Issue) (g : Group) (op : Nat) (r : Nat → Word × DWord × Nat) (ls : List Nat) (h : ∀ l ∈ ls, (g.thread l).pend = [])
    (ho : x.op = BitVec.ofNat 8 op) :
    resolveAll now x (ls.map fun l => (l, .trap (r l).1 (r l).2.1 (r l).2.2)) g =
      (g, ls.map fun l => (l, .trapped (g.thread l) (trapOf op (r l).1 (r l).2.1 (r l).2.2 (g.thread l)))) := by
  induction ls with
  | nil => rfl
  | cons l ls ih =>
    simp only [List.map_cons, resolveAll, resolve_trap now x g l op _ _ _ (h l (by simp)) ho]
    rw [ih (fun m hm => h m (by simp [hm]))]

theorem State.setGroup_setGroup (s : State) (a b : Group) (h : a.uid = b.uid) : (s.setGroup a).setGroup b = s.setGroup b := by
  unfold State.setGroup mapIf
  simp only [List.map_map]
  congr 1
  apply List.map_congr_left
  intro x _
  simp only [Function.comp]
  by_cases hx : x.uid = b.uid
  · simp [hx, h]
  · simp [hx, h]

theorem enterClosed_empty (g : Group) (t : Thread) (r : TrapReq) (h : t.pend = []) : enterClosed g t r = (g, t, r) := by
  simp [enterClosed, closeSegment_empty g t h]

theorem enterHandler_eq (g : Group) (lane : Nat) (t : Thread) (r : TrapReq) (h : Nat) (hr : r.hold = none) :
    enterHandler g lane t r h = (g.setThread lane (handlerThread h lane r.tcode t)).withFrames (putBytes g.frames (64 * lane) (frameBytes t r)) := by
  simp [enterHandler, Group.setThread, Group.withFrames, handlerThread, hr]

@[simp] theorem Group.withFrames_uid (g : Group) (m : Memory) : (g.withFrames m).uid = g.uid := rfl
@[simp] theorem Group.withFrames_thread (g : Group) (m : Memory) (l : Nat) : (g.withFrames m).thread l = g.thread l := rfl
@[simp] theorem Group.withFrames_frames (g : Group) (m : Memory) : (g.withFrames m).frames = m := rfl
@[simp] theorem Group.withFrames_withFrames (g : Group) (m n : Memory) : (g.withFrames m).withFrames n = g.withFrames n := rfl
@[simp] theorem Group.withFrames_onLanes (g : Group) (m : Memory) (ls : List Nat) (f : Nat → Thread → Thread) :
    (g.withFrames m).onLanes ls f = (g.onLanes ls f).withFrames m := rfl
@[simp] theorem Group.setThread_uid (g : Group) (l : Nat) (t : Thread) : (g.setThread l t).uid = g.uid := rfl
theorem Group.setThread_other (g : Group) (l m : Nat) (t : Thread) (h : l ≠ m) : (g.setThread l t).thread m = g.thread m := by
  simp [Group.thread, Group.setThread, List.getD_eq_getElem?_getD, h]

/-! ## The frames in the save area (R369) -/

theorem tagLines_setGroup (s : State) (G : Group) (line tag n : Nat) : (s.tagLines line tag n).setGroup G = (s.setGroup G).tagLines line tag n := by
  induction n with
  | zero => rfl
  | succ n ih =>
    simp only [State.tagLines]
    rw [← ih]
    rfl

theorem tagLines_groups (s : State) (line tag n : Nat) : (s.tagLines line tag n).groups = s.groups ∧ (s.tagLines line tag n).ops = s.ops ∧
    (s.tagLines line tag n).teams = s.teams := by
  induction n with
  | zero => exact ⟨rfl, rfl, rfl⟩
  | succ n ih => exact ih

/-- The frames written to a save area touch no group, operation or team. -/
theorem framesOut_keeps (s : State) (g : Group) (off : Nat) (bs : Bytes) :
    (s.framesOut g off bs).groups = s.groups ∧ (s.framesOut g off bs).ops = s.ops ∧ (s.framesOut g off bs).teams = s.teams := by
  unfold State.framesOut State.tagExtent
  split
  · exact ⟨rfl, rfl, rfl⟩
  · exact tagLines_groups _ _ _ _

theorem framesOut_setGroup (s : State) (g G : Group) (off : Nat) (bs : Bytes) : (s.framesOut g off bs).setGroup G = (s.setGroup G).framesOut g off bs := by
  unfold State.framesOut State.tagExtent
  rw [show (s.setGroup G).areaRecord g = s.areaRecord g from rfl]
  split
  · rfl
  · exact tagLines_setGroup _ _ _ _ _

/-- Only the group's team, index and context place its frames. -/
theorem framesOut_congr (s : State) {g g' : Group} (off : Nat) (bs : Bytes) (ht : g'.team = g.team) (hi : g'.idx = g.idx) (ha : g'.asid = g.asid) :
    s.framesOut g' off bs = s.framesOut g off bs := by
  unfold State.framesOut State.areaRecord
  rw [ht, hi, ha]

theorem framesAll_keeps (g : Group) (frame : Nat → Bytes) (ls : List Nat) (s : State) :
    (ls.foldl (fun s l => s.framesOut g (64 * l) (frame l)) s).groups = s.groups := by
  induction ls generalizing s with
  | nil => rfl
  | cons l ls ih => rw [List.foldl_cons, ih]; exact (framesOut_keeps s g _ _).1

theorem framesAll_setGroup (g G : Group) (frame : Nat → Bytes) (ls : List Nat) (s : State) :
    (ls.foldl (fun s l => s.framesOut g (64 * l) (frame l)) s).setGroup G = ls.foldl (fun s l => s.framesOut g (64 * l) (frame l)) (s.setGroup G) := by
  induction ls generalizing s with
  | nil => rfl
  | cons l ls ih => rw [List.foldl_cons, List.foldl_cons, ih, framesOut_setGroup]

/-- Traps of distinct lanes are delivered one after another. -/
theorem deliverAll_traps (h : Nat) (rq : Nat → TrapReq) (ls : List Nat) (s : State) (g : Group) (th : Nat → Thread) (hg : s.group? g.uid = some g)
    (hn : ls.Nodup) (hth : ∀ l ∈ ls, g.thread l = th l) (hf : ∀ l ∈ ls, trackers s g.uid l 0 ++ trackers s g.uid l 1 = []) (hne : ls ≠ [])
    (hp : ∀ l ∈ ls, (th l).pend = []) (hh : ∀ l, (rq l).hold = none) :
    deliverAll g.uid h (ls.map fun l => (l, .trapped (th l) (rq l))) s =
      ls.foldl (fun s l => s.framesOut g (64 * l) (frameBytes (th l) (rq l)))
        (s.setGroup ((g.onLanes ls fun l t => handlerThread h l (rq l).tcode t).withFrames
          (ls.foldl (fun m l => putBytes m (64 * l) (frameBytes (th l) (rq l))) g.frames))) := by
  induction ls generalizing s g with
  | nil => exact absurd rfl hne
  | cons l ls ih =>
    simp only [List.nodup_cons] at hn
    simp only [List.map_cons, deliverAll, State.deliver, hg, hf l (by simp), State.enter, enterClosed_empty g _ _ (hp l (by simp)),
      enterHandler_eq g l (th l) (rq l) h (hh l)]
    have hone := Group.onLanes_cons g l ls (fun l t => handlerThread h l (rq l).tcode t) hn.1
    rw [hth l (by simp)] at hone
    generalize hG : (g.setThread l (handlerThread h l (rq l).tcode (th l))).withFrames (putBytes g.frames (64 * l) (frameBytes (th l) (rq l))) = G
    have hGu : G.uid = g.uid := by rw [← hG]; rfl
    have hGf : G.frames = putBytes g.frames (64 * l) (frameBytes (th l) (rq l)) := by rw [← hG, Group.withFrames_frames]
    have hg1 : (s.setGroup G).group? G.uid = some G := State.group?_setGroup (g0 := g) (hGu.symm ▸ hg)
    have hg2 : ((s.setGroup G).framesOut g (64 * l) (frameBytes (th l) (rq l))).group? G.uid = some G := by
      rw [State.group?, (framesOut_keeps _ _ _ _).1]; exact hg1
    have hframe : ∀ (t : State) (o : Nat) (b : Bytes), t.framesOut G o b = t.framesOut g o b := fun t o b =>
      framesOut_congr t o b (by rw [← hG]; rfl) (by rw [← hG]; rfl) (by rw [← hG]; rfl)
    by_cases hl : ls = []
    · subst hl
      simp only [List.map_nil, deliverAll, List.foldl]
      rw [Group.onLanes_nil] at hone
      rw [← hone, ← hG]
    · have := ih ((s.setGroup G).framesOut g (64 * l) (frameBytes (th l) (rq l))) G hg2 hn.2 ?_ ?_ hl (fun m hm => hp m (by simp [hm]))
      · rw [hGu] at this
        rw [this, framesOut_setGroup, State.setGroup_setGroup _ _ _ (by simp [hGu]), hGf]
        rw [List.foldl_cons, List.foldl_cons, ← hone, ← hG]
        simp only [hG, hframe]
        simp [← hG]
      · intro m hm
        rw [← hth m (by simp [hm]), ← hG, Group.withFrames_thread, Group.setThread_other _ _ _ _ (show l ≠ m from fun e => hn.1 (e ▸ hm))]
      · intro m hm
        have e : ∀ n, trackers ((s.setGroup G).framesOut g (64 * l) (frameBytes (th l) (rq l))) G.uid m n = trackers s g.uid m n := fun n => by
          unfold trackers; rw [(framesOut_keeps _ _ _ _).2.1, hGu]; rfl
        rw [e, e]
        exact hf m (by simp [hm])

/-- A word whose threads all trap takes them into the handler (R367, R368). -/
theorem TrapReady.commitIn {s s' : State} {g g' : Group} {ls : List Nat} {h : Nat} (hr : TrapReady s g ls h) (hg : s'.group? g.uid = some g')
    (hu' : g'.uid = g.uid) (hth : g'.threads = g.threads) (hops : s'.ops = s.ops) (op : Nat) (st : Bool) (r : Nat → Word × DWord × Nat)
    (x : Issue) (hx : x = { s.issueFor g ls op st with op := x.op }) (ho : x.op = BitVec.ofNat 8 op) :
    s'.commit x (ls.map fun l => (l, .trap (r l).1 (r l).2.1 (r l).2.2)) = s'.trapNext g' ls h op r := by
  have hi := hr.issues
  have hu : x.g = g := by rw [hx]; rfl
  have hh : x.handler = some h := by rw [hx]; exact hr.handler
  have hthr : ∀ l, g'.thread l = g.thread l := fun l => by simp [Group.thread, hth]
  have hg' : s'.group? g'.uid = some g' := by rw [hu']; exact hg
  have hset : ∀ l ∈ ls, (g'.thread l).pend = [] := fun l hl => by rw [hthr]; exact hr.settled l hl
  unfold State.commit
  rw [hu, hg]
  simp only
  rw [resolveAll_trap _ _ g' op _ _ hset ho]
  simp only [State.applyRes, hh]
  rw [if_neg]
  rotate_left
  · simp only [Bool.not_eq_true, List.any_eq_false, List.mem_map]
    rintro _ ⟨l, hl, rfl⟩
    simp [Res.ends, hthr, hr.outside l hl]
  rw [deliverAll_traps h (fun l => trapOf op (r l).1 (r l).2.1 (r l).2.2 (g'.thread l))
    ls (s'.setGroup g') g' g'.thread (State.group?_setGroup hg') hi.nodup (fun _ _ => rfl) ?_ hi.nonempty hset (fun _ => rfl)]
  rotate_left
  · intro l hl
    have h0 := hr.free l hl 0 (by simp)
    have h1 := hr.free l hl 1 (by simp)
    simp only [trackers_setGroup, hu']
    have e : ∀ n, trackers s' g.uid l n = trackers s g.uid l n := fun n => by unfold trackers; rw [hops]
    rw [e, e, h0, h1]; rfl
  rw [State.setGroup_setGroup _ _ _ (by simp)]
  obtain ⟨l, hl⟩ := List.exists_mem_of_ne_nil _ hi.nonempty
  generalize hG : (g'.onLanes ls fun l t => handlerThread h l (trapOf op (r l).1 (r l).2.1 (r l).2.2 (g'.thread l)).tcode t).withFrames
    (ls.foldl (fun m l => putBytes m (64 * l) (frameBytes (g'.thread l) (trapOf op (r l).1 (r l).2.1 (r l).2.2 (g'.thread l)))) g'.frames) = G
  have hGu : G.uid = g.uid := by rw [← hG]; exact hu'
  generalize hX : ls.foldl _ (s'.setGroup G) = X
  have hXt : X = s'.trapNext g' ls h op r := by rw [← hX, ← hG]; rfl
  have hget : X.group? g.uid = some G := by
    rw [State.group?, ← hX, framesAll_keeps, ← hGu]
    exact State.group?_setGroup (g0 := g') (hGu.symm ▸ hg)
  have hmem : G.thread l ∈ G.threads ∧ (G.thread l).st = .runnable := by
    have h32 := hi.lanes l hl
    have e : G.thread l = handlerThread h l (r l).1 (g'.thread l) := by
      rw [← hG]
      have := Group.onLanes_thread g' ls (fun l t => handlerThread h l (r l).1 t) l (by rw [hth, hi.size]; exact h32)
      rw [if_pos hl] at this
      exact this
    refine ⟨?_, by rw [e]; rfl⟩
    have : l < G.threads.length := by rw [← hG]; show l < (g'.onLanes ls _).threads.length; simp [hth, hi.size, h32]
    simp [Group.thread, List.getD_eq_getElem?_getD, this]
  have hr1 : X.rcvRelease x = X := by
    unfold State.rcvRelease
    rw [hu, hget]
    simp only
    rw [rcvReady_none G _ hmem.1 (by rw [hmem.2]; simp) (by rw [hmem.2]; simp)]
  rw [hr1]
  unfold State.finishGroup
  rw [hget]
  simp only
  rw [if_neg]
  · exact hXt
  · have : (G.threads.all fun t => t.st == .exited) = false := by
      rw [List.all_eq_false]
      exact ⟨_, hmem.1, by simp [hmem.2]⟩
    simp [this]

/-- The same where the word changes nothing else. -/
theorem TrapReady.commit {s : State} {g : Group} {ls : List Nat} {h : Nat} (hr : TrapReady s g ls h) (op : Nat) (st : Bool) (r : Nat → Word × DWord × Nat)
    (x : Issue) (hx : x = { s.issueFor g ls op st with op := x.op }) (ho : x.op = BitVec.ofNat 8 op) :
    s.commit x (ls.map fun l => (l, .trap (r l).1 (r l).2.1 (r l).2.2)) = s.trapNext g ls h op r :=
  hr.commitIn hr.issues.group rfl rfl rfl op st r x hx ho

end Sys2Proof.Machine
end

