-- ==== Sys2Proof/WellFormed.lean ====
section
/-!
DEFINITION. Well-formed instructions: what a word's fields must keep for it to raise none of the details 0x05, 0x06 and 0x08 of R99 by its encoding alone
(reserved codes, scalar codes, alignment of register runs), and for a step, what its arguments name.
-/
namespace Sys2Proof

/-- A run of scalar registers stands below `s192` and starts at a multiple of its length (R81, R82). -/
def sRun (r n : Nat) : Bool := decide (r + n ≤ 192) && r % n == 0

/-- A run of vector registers starts at a multiple of its length (R82). -/
def vRun (r n : Nat) : Bool := decide (r + n ≤ 128) && r % n == 0

/-- The registers of an access size code (R87). -/
def regsIn (z : Nat) : Nat := if z ≤ 2 then 1 else 2 ^ (z - 2)

/-- The elements of a format in one register (R150). -/
def perWord (f : Nat) : Nat :=
  match f with
  | 0 => 1 | 9 => 1
  | 1 => 2 | 2 => 2
  | 3 => 4 | 4 => 4 | 5 => 4 | 6 => 4 | 10 => 4
  | _ => 8

/-- The formats of `CVT` (R177). -/
def cvtWf (f : Nat) : Bool := f == 0 || f == 1 || f == 2 || f == 9

/-- The assigned numbers of `SYSRD` (R373). -/
def sysOk (n : Nat) : Bool := [0x00, 0x01, 0x02, 0x03, 0x08, 0x09, 0x0A, 0x10, 0x40, 0x41, 0x42, 0x43, 0x44].contains n

/-- The fields of `PERF` that its operation leaves unused are zero (R417). -/
def perfWf (d a : BitVec 8) (o : BitVec 3) (n : BitVec 4) : Bool :=
  match o.toNat with
  | 0 => a == 0#8 && decide (n.toNat < 8)
  | 1 => a == 0#8 && decide (n.toNat < 8)
  | 2 => d == 0#8 && decide (n.toNat < 8)
  | 6 => a == 0#8
  | 7 => false
  | _ => d == 0#8 && a == 0#8 && decide (n.toNat < 8)

/-- Is the instruction well-formed? -/
def Instr.wf : Instr → Bool
  | .himm _ => true
  | .hdep _ p _ => p != 3#2
  | .hmod r _ c e _ _ _ _ => decide (r.toNat < 4 ∧ c.toNat < 5 ∧ e.toNat < 7)
  | .hsch _ _ => true
  | .nop _ => true
  | .trap _ _ => true
  | .sysrd _ d n => sysOk n.toNat && sRun d.toNat 1
  | .syswr _ d n => n == 0x10#15 && sRun d.toNat 1
  | .perf _ d a o n => perfWf d a o n && sRun d.toNat 1 && sRun a.toNat 1
  | .drain _ _ m => m == 0#3 || m == 5#3 || m == 6#3
  | .bra _ _ => true
  | .braQ0 _ _ => true
  | .braNotQ0 _ _ => true
  | .braQ1 _ _ => true
  | .braNotQ1 _ _ => true
  | .braQ2 _ _ => true
  | .braNotQ2 _ _ => true
  | .braQ3 _ _ => true
  | .braNotQ3 _ _ => true
  | .braP0 _ _ => true
  | .braNotP0 _ _ => true
  | .braP1 _ _ => true
  | .call _ _ => true
  | .ret _ => true
  | .loop _ _ _ => true
  | .brk _ _ => true
  | .brx _ _ _ => true
  | .rcv _ => true
  | .yield _ => true
  | .exit _ _ => true
  | .plop _ _ p q a b g => q == 0#1 || (g == 0#2 && decide (p.toNat < 4 ∧ a.toNat < 4 ∧ b.toNat < 4))
  | .vote _ d m _ _ => m == 2#2 || (m != 3#2 && decide (d.toNat < 4))
  | .vtos _ _ _ d => sRun d.toNat 1
  | .iadd _ _ _ _ _ => true
  | .isub _ _ _ _ _ => true
  | .imul _ _ _ _ _ => true
  | .imulh _ _ _ _ _ => true
  | .imad _ _ _ _ _ => true
  | .imin _ _ _ _ _ => true
  | .imax _ _ _ _ _ => true
  | .iabs _ _ _ _ => true
  | .ineg _ _ _ _ => true
  | .and _ _ _ _ _ => true
  | .or _ _ _ _ _ => true
  | .xor _ _ _ _ _ => true
  | .not _ _ _ _ => true
  | .shl _ _ _ _ _ => true
  | .shr _ _ _ _ _ => true
  | .sar _ _ _ _ _ => true
  | .popc _ _ _ _ => true
  | .clz _ _ _ _ => true
  | .brev _ _ _ _ => true
  | .bfe _ _ _ _ _ => true
  | .bfi _ _ _ _ _ => true
  | .sel _ _ _ _ _ => true
  | .mov _ _ _ _ => true
  | .icmp _ c _ _ _ _ => decide (c.toNat < 10)
  | .lea _ d a _ _ => vRun d.toNat 2 && vRun a.toNat 2
  | .iaddImm _ _ _ _ => true
  | .shlImm _ _ _ _ => true
  | .icmpImm _ c _ _ _ => decide (c.toNat < 10)
  | .movi _ _ _ => true
  | .iaddScalar _ _ _ b _ => sRun b.toNat 1
  | .movScalar _ _ b _ => sRun b.toNat 1
  | .sadd _ d a _ => sRun d.toNat 1 && sRun a.toNat 1
  | .saddImm _ d a _ => sRun d.toNat 1 && sRun a.toNat 1
  | .ssub _ d a _ => sRun d.toNat 1 && sRun a.toNat 1
  | .smul _ d a _ => sRun d.toNat 1 && sRun a.toNat 1
  | .slogAnd _ d a _ => sRun d.toNat 1 && sRun a.toNat 1
  | .slogOr _ d a _ => sRun d.toNat 1 && sRun a.toNat 1
  | .slogXor _ d a _ => sRun d.toNat 1 && sRun a.toNat 1
  | .slogAndn _ d a _ => sRun d.toNat 1 && sRun a.toNat 1
  | .sshfShl _ d a _ => sRun d.toNat 1 && sRun a.toNat 1
  | .sshfShr _ d a _ => sRun d.toNat 1 && sRun a.toNat 1
  | .sshfSar _ d a _ => sRun d.toNat 1 && sRun a.toNat 1
  | .sshfImm _ d a f _ => f != 3#2 && sRun d.toNat 1 && sRun a.toNat 1
  | .smov _ d a => sRun d.toNat 1 && sRun a.toNat 1
  | .smovi _ d _ => sRun d.toNat 1
  | .scmp _ c _ a _ => decide (c.toNat < 10) && sRun a.toNat 1
  | .scmpImm _ c _ a _ => decide (c.toNat < 10) && sRun a.toNat 1
  | .fadd _ _ _ _ _ => true
  | .fsub _ _ _ _ _ => true
  | .fmul _ _ _ _ _ => true
  | .ffma _ _ _ _ _ => true
  | .fmin _ _ _ _ _ => true
  | .fmax _ _ _ _ _ => true
  | .fcmp _ c _ _ _ _ => decide (c.toNat < 12)
  | .frcp _ _ _ _ => true
  | .frsq _ _ _ _ => true
  | .fex2 _ _ _ _ => true
  | .flg2 _ _ _ _ => true
  | .fcls _ _ _ _ => true
  | .frnd _ _ _ _ => true
  | .hadd2 _ _ _ _ _ => true
  | .hmul2 _ _ _ _ _ => true
  | .hfma2 _ _ _ _ _ => true
  | .cvt _ _ _ e f => cvtWf e.toNat && cvtWf f.toNat && e != f
  | .pack _ _ _ f n => decide (f.toNat < 12 ∧ f.toNat ≠ 0 ∧ f.toNat ≠ 9 ∧ n.toNat < perWord f.toNat)
  | .unpk _ _ _ f n => decide (f.toNat < 12 ∧ f.toNat ≠ 0 ∧ f.toNat ≠ 8 ∧ f.toNat ≠ 9 ∧ n.toNat < perWord f.toNat)
  | .qnt _ _ _ f _ => decide (3 ≤ f.toNat ∧ f.toNat ≤ 8) || f == 10#4
  | .sclx _ _ _ _ _ => true
  | .dqntE4m3 _ d _ _ _ => vRun d.toNat 2
  | .dqntE5m2 _ d _ _ _ => vRun d.toNat 2
  | .dqntE2m3 _ d _ _ _ => vRun d.toNat 2
  | .dqntE3m2 _ d _ _ _ => vRun d.toNat 2
  | .dqntE2m1 _ d _ _ _ => vRun d.toNat 4
  | .dqntSx4 _ d _ b _ => vRun d.toNat 4 && vRun b.toNat 2
  | .dqntI8 _ d _ _ _ => vRun d.toNat 2
  | .xpat _ _ _ _ => true
  | .xperm _ _ _ _ _ => true
  | .shfl _ _ _ _ _ => true
  | .scan _ _ _ o f _ => (f == 9#4 && decide (o.toNat < 8)) || (f == 0#4 && decide (o.toNat < 3))
  | .rdx _ _ _ o f => (f == 9#4 && decide (o.toNat < 8)) || (f == 0#4 && decide (o.toNat < 3))
  | .ld _ d a _ z _ => decide (z.toNat < 5) && vRun d.toNat (regsIn z.toNat) && vRun a.toNat 2
  | .st _ d a _ z _ => decide (z.toNat < 5) && vRun d.toNat (regsIn z.toNat) && vRun a.toNat 2
  | .lds _ d _ z _ => decide (z.toNat < 5) && vRun d.toNat (regsIn z.toNat)
  | .sts _ d _ z _ => decide (z.toNat < 5) && vRun d.toNat (regsIn z.toNat)
  | .atom _ d a _ _ w o => !(o == 7#3 && w == 1#1) && vRun d.toNat (if w == 1#1 then 2 else 1) && vRun a.toNat 2
  | .acas _ d a _ _ w => vRun d.toNat (if w == 1#1 then 4 else 2) && vRun a.toNat 2
  | .prf _ l a z _ => l != 3#2 && decide (z.toNat < 5) && vRun a.toNat 2
  | .fence _ p k _ => k != 0#2 && p != 7#3
  | .cflush _ o a _ z _ => o != 3#2 && decide (z.toNat < 5) && vRun a.toNat 2
  | .ptst _ _ _ _ => true
  | .ldt _ _ a _ _ => vRun a.toNat 2
  | .stt _ _ a _ _ => vRun a.toNat 2
  | .wait _ _ _ _ _ _ _ => true
  | .waitc _ _ a _ _ _ _ => sRun a.toNat 2
  | .tst _ _ d b w => (w == 1#1 || b == 0#8) && sRun d.toNat 1 && (w == 0#1 || sRun b.toNat 2)
  | .tclr _ _ => true
  | .texp _ _ a b y r => !(y == 0#1 && r == 0#1) && (r == 1#1 || b == 0#8) && sRun a.toNat 2 && sRun b.toNat 1
  | .binit _ _ a b => sRun a.toNat 2 && sRun b.toNat 2
  | .arv _ _ a b _ _ => sRun a.toNat 2 && sRun b.toNat 2
  | .bwait _ _ _ a b _ _ => sRun a.toNat 2 && sRun b.toNat 1
  | .bpoll _ _ a b => sRun a.toNat 2 && sRun b.toNat 2
  | .cpy _ _ a b o d => sRun a.toNat 2 && sRun b.toNat (if o == 0#1 && d == 0#1 then 1 else 4)
  | .launch _ _ a => sRun a.toNat 2
  | .sacq _ d _ => sRun d.toNat 1
  | .spop _ d c _ => sRun d.toNat 1 && sRun c.toNat 1
  | .srel _ a _ _ => sRun a.toNat 1
  | .kvld _ _ a b _ w => sRun a.toNat 2 && sRun b.toNat (if w == 1#1 then 4 else 2)
  | .kvseal _ _ a b => sRun a.toNat 2 && sRun b.toNat 1
  | .kvhdr _ _ a b => sRun a.toNat 2 && sRun b.toNat 1
  | .coll _ _ a b => sRun a.toNat 2 && sRun b.toNat 1
  | .mcst _ _ a b => sRun a.toNat 2 && sRun b.toNat 1
  | .rte _ _ a b => sRun a.toNat 2 && sRun b.toNat 1
  | .rtc _ _ a b => sRun a.toNat 2 && sRun b.toNat 1
  | .mmaBf16 _ _ _ _ _ => true
  | .mmaF16 _ _ _ _ _ => true
  | .mmaE4m3 _ _ _ _ _ => true
  | .mmaE5m2 _ _ _ _ _ => true
  | .mmaE2m3 _ _ _ _ _ => true
  | .mmaE3m2 _ _ _ _ _ => true
  | .mmaI8 _ _ _ _ _ => true
  | .mmaE2m1 _ _ _ _ _ => true
  | .mmaSx4 _ _ _ _ _ => true
  | .acrel _ _ => true
  | .acacq _ _ _ => true
  | .acz _ _ => true
  | .acrd _ _ _ _ => true
  | .acwr _ _ _ _ => true
  | .longResultLand _ lane => decide (lane < 32)
  | .threadStarved _ lane => decide (lane < 32)
  | .groupStarvationGuard _ => true
  | .trapEntry _ lane => decide (lane < 32)
  | .storeQueueDrain _ => true
  | .memoryReply _ _ => true
  | .tlbWalkReturn clu asid _ => decide (clu < 48 ∧ asid < 512)
  | .lightFaultService _ _ => true
  | .migration _ _ _ => true
  | .migrationSwapOut _ => true
  | .engineCommandStart _ => true
  | .chunkLand _ _ => true
  | .copyFinish _ => true
  | .ldtRetry _ _ => true
  | .sttProgress _ _ => true
  | .mmaStart _ => true
  | .mmaFinish _ => true
  | .acacqFinish _ => true
  | .kvConversion _ _ => true
  | .kvPairing _ _ _ => true
  | .kvldRetry _ => true
  | .kvhdrRefill _ => true
  | .barrierUpdate _ => true
  | .quiescenceTimer _ => true
  | .launchValidation _ => true
  | .launchPreconditionsHeld _ => true
  | .leasePin _ => true
  | .placementDecision die => decide (die < 2)
  | .reservation die => decide (die < 2)
  | .reservationAnswer die => decide (die < 2)
  | .preemption _ => true
  | .unplaceableLog _ => true
  | .forcedFullSave _ => true
  | .teamSave _ => true
  | .saveWatchdog _ => true
  | .savedCompletion _ _ => true
  | .teamRetire _ => true
  | .launchRetire _ => true
  | .teardownRelease _ => true
  | .pinTimeout _ => true
  | .retransmitTimeout _ => true
  | .fabricStartDelay => true
  | .reductionStep _ _ => true
  | .combineStep _ _ => true
  | .gatherServe _ _ => true
  | .dispatchPlacement _ => true
  | .collectiveFinish _ => true
  | .dispatchFinish _ => true
  | .doorbell _ _ _ => true
  | .doorbellApply _ => true
  | .bar2Write _ _ => true
  | .bar2Read _ _ => true
  | .msixUnmask vec => decide (vec < 2048)
  | .hostReadCompletion _ _ _ => true
  | .hostReadTimeout _ => true
  | .registerWrite _ _ => true
  | .create _ _ => true
  | .teardown => true
  | .deschedule => true
  | .reschedule => true
  | .pte => true
  | .residency => true
  | .thresholds => true
  | .ffring => true
  | .refill => true
  | .savepool => true
  | .retired => true
  | .clearlost => true
  | .aperture => true
  | .fabric => true
  | .counters => true
  | .power => true
  | .attest => true
  | .fwupdate => true
  | .recoveryGo => true
  | .deviceReset => true
  | .karicHello _ _ _ => true
  | .portDegraded port => decide (port < 32)
  | .linkFail port => decide (port < 32)
  | .portRestored port => decide (port < 32)
  | .karicForward => true
  | .karicRdreq => true
  | .karicWr => true
  | .karicAtom => true
  | .karicRdrsp => true
  | .karicWrack => true
  | .karicAtrsp => true
  | .karicChack => true
  | .karicNack => true
  | .karicChunk => true
  | .karicDisp => true
  | .karicFlag => true
  | .mgmtPin => true
  | .mgmtPinans => true
  | .mgmtUnpin => true
  | .mgmtCdesc => true
  | .mgmtDdesc => true
  | .mgmtCancel => true
  | .mgmtGather => true
  | .mgmtWatch => true
  | .mgmtAdvanced => true
  | .l2UncorrectableError _ => true
  | .cleanLineError _ => true
  | .hbmUncorrectableError _ => true
  | .clockStepDown die => decide (die < 2)
  | .clockStepUp die => decide (die < 2)
  | .thermalLimit die => decide (die < 2)
  | .thermalShutdown => true
  | .illegalInstruction detail => decide (1 ≤ detail ∧ detail ≤ 9)
  | .runAheadFetch _ _ => true
  | .correctedSoftError _ => true
  | .thermalLimitClear die => decide (die < 2)
  | .watchReread _ => true

end Sys2Proof
end

