-- ==== Sys2Proof/Tests/Slice0.lean ====
section
/-!
SUPPORT. The model's own tests: ill-formed terms that WellFormed refuses; words written out from the specification's encodings; and, for each statement, a state and operands that
meet its hypotheses, with its conclusion there. Expected values are worked out from the rules that a statement cites.
-/
namespace Sys2Proof.Tests
set_option maxRecDepth 100000
set_option Elab.async false
open Sys2Proof Sys2Proof.Machine Sys2Proof.Claims

/-- The outcome is a next state with a property. -/
def ran (o : Host.Outcome State Fault Refusal) (p : State → Bool) : Bool := match o with
  | .next t => p t
  | _ => false

/-! ## Ill-formed terms -/

/-- Terms of the hint, system, control and predicate words that each break one check. -/
theorem test_illFormed1 : ∀ i ∈ ([.hdep 0#16 3#2 0#1, .hmod 4#3 0#1 0#3 0#3 0#2 0#1 0#1 0#3, .hmod 0#3 0#1 5#3 0#3 0#2 0#1 0#1 0#3, .hmod 0#3 0#1 0#3 7#3 0#2 0#1 0#1 0#3,
    .sysrd false 0#8 0x04#15, .sysrd false 192#8 0x00#15, .syswr false 0#8 0x00#15, .syswr false 192#8 0x10#15, .perf false 0#8 1#8 0#3 0#4, .perf false 0#8 0#8 0#3 8#4,
    .perf false 0#8 1#8 1#3 0#4, .perf false 0#8 0#8 1#3 8#4, .perf false 1#8 0#8 2#3 0#4, .perf false 0#8 0#8 2#3 8#4, .perf false 1#8 0#8 3#3 0#4, .perf false 0#8 1#8 5#3 0#4,
    .perf false 0#8 0#8 4#3 8#4, .perf false 0#8 1#8 6#3 0#4, .perf false 0#8 0#8 7#3 0#4, .perf false 192#8 0#8 0#3 0#4, .perf false 0#8 192#8 2#3 0#4, .drain false 0#4 1#3,
    .plop false 0#4 0#3 1#1 0#3 0#3 1#2, .plop false 0#4 4#3 1#1 0#3 0#3 0#2, .plop false 0#4 0#3 1#1 4#3 0#3 0#2, .plop false 0#4 0#3 1#1 0#3 4#3 0#2,
    .vote false 0#7 3#2 0#3 0#2, .vote false 4#7 1#2 0#3 0#2, .vtos false 0#5 0#7 192#8] : List Instr), i.wf = false := by decide +kernel

/-- Terms of the integer and scalar words. -/
theorem test_illFormed2 : ∀ i ∈ ([.icmp false 10#4 0#3 0#7 0#7 0#2, .lea false 1#7 0#7 0#7 0#2, .lea false 0#7 127#7 0#7 0#2, .icmpImm false 10#4 0#3 0#7 0#9,
    .iaddScalar false 0#7 0#7 192#8 0#1, .movScalar false 0#7 192#8 0#1, .sadd false 192#8 0#8 0#7, .sadd false 0#8 192#8 0#7, .saddImm false 192#8 0#8 0#7, .saddImm false 0#8 192#8 0#7,
    .ssub false 192#8 0#8 0#7, .ssub false 0#8 192#8 0#7, .smul false 192#8 0#8 0#7, .smul false 0#8 192#8 0#7, .slogAnd false 192#8 0#8 0#7, .slogAnd false 0#8 192#8 0#7,
    .slogOr false 192#8 0#8 0#7, .slogOr false 0#8 192#8 0#7, .slogXor false 192#8 0#8 0#7, .slogXor false 0#8 192#8 0#7, .slogAndn false 192#8 0#8 0#7, .slogAndn false 0#8 192#8 0#7,
    .sshfShl false 192#8 0#8 0#7, .sshfShl false 0#8 192#8 0#7, .sshfShr false 192#8 0#8 0#7, .sshfShr false 0#8 192#8 0#7, .sshfSar false 192#8 0#8 0#7, .sshfSar false 0#8 192#8 0#7,
    .sshfImm false 0#8 0#8 3#2 0#5, .sshfImm false 192#8 0#8 0#2 0#5, .sshfImm false 0#8 192#8 0#2 0#5, .smov false 192#8 0#8, .smov false 0#8 192#8, .smovi false 192#8 0#15,
    .scmp false 10#4 0#2 0#8 0#7, .scmp false 0#4 0#2 192#8 0#7, .scmpImm false 10#4 0#2 0#8 0#7, .scmpImm false 0#4 0#2 192#8 0#7] : List Instr), i.wf = false := by decide +kernel

/-- Terms of the floating-point and conversion words. -/
theorem test_illFormed3 : ∀ i ∈ ([.fcmp false 12#4 0#3 0#7 0#7 0#2, .cvt false 0#7 0#7 3#4 0#4, .cvt false 0#7 0#7 0#4 3#4, .cvt false 0#7 0#7 1#4 1#4, .pack false 0#7 0#7 0#4 0#5,
    .pack false 0#7 0#7 9#4 0#5, .pack false 0#7 0#7 12#4 0#5, .pack false 0#7 0#7 1#4 2#5, .unpk false 0#7 0#7 0#4 0#5, .unpk false 0#7 0#7 8#4 0#5, .unpk false 0#7 0#7 9#4 0#5,
    .unpk false 0#7 0#7 12#4 0#5, .unpk false 0#7 0#7 3#4 4#5, .qnt false 0#7 0#7 2#4 0#2, .qnt false 0#7 0#7 9#4 0#2, .dqntE4m3 false 1#7 0#7 0#7 0#2, .dqntE5m2 false 1#7 0#7 0#7 0#2,
    .dqntE2m3 false 1#7 0#7 0#7 0#2, .dqntE3m2 false 1#7 0#7 0#7 0#2, .dqntE2m1 false 2#7 0#7 0#7 0#2, .dqntSx4 false 2#7 0#7 0#7 0#2, .dqntSx4 false 0#7 0#7 1#7 0#2,
    .dqntI8 false 1#7 0#7 0#7 0#2, .scan false 0#7 0#7 8#4 9#4 0#1, .scan false 0#7 0#7 3#4 0#4 0#1, .scan false 0#7 0#7 0#4 1#4 0#1, .rdx false 0#7 0#7 8#4 9#4, .rdx false 0#7 0#7 3#4 0#4,
    .rdx false 0#7 0#7 0#4 1#4] : List Instr), i.wf = false := by decide +kernel

/-- Terms of the memory, token and barrier words. -/
theorem test_illFormed4 : ∀ i ∈ ([.ld false 0#7 0#7 0#4 5#3 0#2, .ld false 1#7 0#7 0#4 3#3 0#2, .ld false 0#7 1#7 0#4 2#3 0#2, .st false 0#7 0#7 0#4 5#3 0#2, .st false 2#7 0#7 0#4 4#3 0#2,
    .st false 0#7 1#7 0#4 2#3 0#2, .lds false 0#7 0#7 5#3 0#2, .lds false 1#7 0#7 3#3 0#2, .sts false 0#7 0#7 5#3 0#2, .sts false 1#7 0#7 3#3 0#2, .atom false 0#7 0#7 0#4 0#1 1#1 7#3,
    .atom false 1#7 0#7 0#4 0#1 1#1 0#3, .atom false 0#7 1#7 0#4 0#1 0#1 0#3, .acas false 2#7 0#7 0#4 0#1 1#1, .acas false 1#7 0#7 0#4 0#1 0#1, .acas false 0#7 1#7 0#4 0#1 0#1,
    .prf false 3#2 0#7 0#3 0#2, .prf false 0#2 0#7 5#3 0#2, .prf false 0#2 1#7 0#3 0#2, .fence false 0#3 0#2 0#2, .fence false 7#3 1#2 0#2, .cflush false 3#2 0#7 0#4 0#3 0#2,
    .cflush false 0#2 0#7 0#4 5#3 0#2, .cflush false 0#2 1#7 0#4 0#3 0#2, .ldt false 0#7 1#7 0#4 0#2, .stt false 0#7 1#7 0#4 0#2, .waitc false 0#4 1#8 0#2 0#1 0#1 0#1,
    .tst false 0#4 0#8 1#8 0#1, .tst false 0#4 192#8 0#8 0#1, .tst false 0#4 0#8 1#8 1#1, .texp false 0#4 0#8 0#8 0#1 0#1, .texp false 0#4 0#8 1#8 0#1 0#1, .texp false 0#4 1#8 0#8 0#1 1#1,
    .texp false 0#4 0#8 192#8 0#1 1#1, .binit false 0#4 1#8 0#8, .binit false 0#4 0#8 1#8, .arv false 0#4 1#8 0#8 0#1 0#1, .arv false 0#4 0#8 1#8 0#1 0#1, .bwait false 0#2 0#1 1#8 0#8 0#1 0#1,
    .bwait false 0#2 0#1 0#8 192#8 0#1 0#1, .bpoll false 0#2 1#8 0#8, .bpoll false 0#2 0#8 191#8] : List Instr), i.wf = false := by decide +kernel

/-- Terms of the engine, queue and pod words, and of the steps. -/
theorem test_illFormed5 : ∀ i ∈ ([.cpy false 0#4 1#8 0#8 0#1 0#1, .cpy false 0#4 0#8 192#8 0#1 0#1, .cpy false 0#4 0#8 2#8 1#1 0#1, .launch false 0#4 191#8, .sacq false 192#8 0#3,
    .spop false 192#8 0#8 0#3, .spop false 0#8 192#8 0#3, .srel false 192#8 0#1 0#3, .kvld false 0#4 1#8 0#8 0#1 0#1, .kvld false 0#4 0#8 2#8 0#1 1#1, .kvld false 0#4 0#8 1#8 0#1 0#1,
    .kvseal false 0#4 1#8 0#8, .kvseal false 0#4 0#8 192#8, .kvhdr false 0#4 1#8 0#8, .kvhdr false 0#4 0#8 192#8, .coll false 0#4 1#8 0#8, .coll false 0#4 0#8 192#8, .mcst false 0#4 1#8 0#8,
    .mcst false 0#4 0#8 192#8, .rte false 0#4 1#8 0#8, .rte false 0#4 0#8 192#8, .rtc false 0#4 1#8 0#8, .rtc false 0#4 0#8 192#8, .longResultLand 1 32, .threadStarved 1 32, .trapEntry 1 32,
    .tlbWalkReturn 48 0 0, .tlbWalkReturn 0 512 0, .placementDecision 2, .reservation 2, .reservationAnswer 2, .msixUnmask 2048, .portDegraded 32, .linkFail 32, .portRestored 32,
    .clockStepDown 2, .clockStepUp 2, .thermalLimit 2, .thermalLimitClear 2, .illegalInstruction 0, .illegalInstruction 10] : List Instr), i.wf = false := by decide +kernel

/-- A few at the edge of a check are well-formed. -/
theorem test_wellFormed : ∀ i ∈ ([.hdep 0#16 2#2 0#1, .sysrd false 191#8 0x44#15, .drain false 0#4 6#3, .lea false 126#7 126#7 127#7 3#2, .scmpImm false 9#4 3#2 191#8 127#7,
    .pack false 0#7 0#7 7#4 7#5, .ld false 124#7 126#7 15#4 4#3 3#2, .acas false 124#7 126#7 0#4 0#1 1#1, .bpoll false 3#2 190#8 190#8, .cpy false 0#4 190#8 188#8 1#1 1#1,
    .placementDecision 1, .msixUnmask 2047] : List Instr), i.wf = true := by decide +kernel

/-! ## A group that issues -/

/-- Lanes 0 and 5 issue. -/
def ls : List Nat := [0, 5]

/-- A lane's thread: v0 is its number, v1 is 5, v2:v3 an address in the data page, v4 a scratchpad offset, v6 a stream of bits, v7 is 1.0; p0 is set in lane
0. -/
def thr (l : Nat) : Thread :=
  { v := [BitVec.ofNat 32 l, 5#32, BitVec.ofNat 32 (0x20100 + 256 * l), 0#32, BitVec.ofNat 32 (4 * l), 0#32, 0xF0000001#32, 0x3F800000#32] ++ List.replicate 120 0#32
    p := if l = 0 then 1#8 else 0#8 }

/-- A group of 32 such threads; s0:s1 is the address of a barrier, s2 is 1, s4:s5 the address of a record; k1 is DONE, k2 POISON with cause 0x34. -/
def wg : Group :=
  { placeGroup with threads := (List.range 32).map thr
                    s := [0x20000#32, 0#32, 1#32, 0#32, 0x21000#32, 0#32] ++ List.replicate 186 0#32, q := 1#4
                    k := [{}, { st := .done }, { st := .poison, cause := 0x34#8 }] ++ List.replicate 13 {} }

/-- Its kernel: 256 bytes of code, a handler at 128, two lines of scratchpad, two tiles, four KiB of weights, a budget of 32 registers. -/
def wimg : Image := { va := 0x10000, codeOff := 64, codeLen := 256, trap := some 128, spad := 1024, acct := 2, wbk := 4, size := 320, roles := [{ entry := 0, groups := 1, vbud := 4 }] }

/-- Its launch, with a lease of the code page and the data page. -/
def wlaunch : Launch := { uid := 1, asid := 1, phase := .ready, img := wimg, ranges := [{ rd := true, wr := true, ex := true, lo := 0x10000, hi := 0x30000 }] }

/-- Its team: two stream queues of two slots and two tiles, the second its group's own. -/
def wteam : Team :=
  { uid := 1, launch := 1, asid := 1, index := 0, core := 0, spBase := 0, spLines := 2, arrays := [(0, 0, 0)], acct := 2, wbk := 4
    queues := [{ idx := 0, slotl := 1, basel := 0, pptr := 1, slots := [(.empty, 0#32), (.filled, 2#32)] }, { idx := 1, slotl := 1, basel := 0, aptr := 1, slots := [(.popped, 0#32), (.acquired, 0#32)] }]
    tiles := [{ arr := 0, idx := 0 }, { arr := 0, idx := 1, st := .group 0 }] }

/-- A translation of a page to itself. -/
def wtlb (va : Nat) : Tlb := { placeTlb with va := va, pa := va, wr := true, d := true }

/-- A barrier at `dev` scope in phase 5, with one arrival expected. -/
def wbar : Barrier := { phase := 5, flags := 0xB0000, expa := 1, pena := 1, penb := 0, brld := 0, nasid := 1 }

/-- The device: one context, its launch, its team, its group, which issues for two lanes; the barrier lies at 0x20000. -/
def ws : State :=
  { State.reset with groups := [wg], teams := [wteam], launches := [wlaunch], contexts := [{ asid := 1, root := 0 }], tlb := [wtlb 0x10000, wtlb 0x20000]
                     mem := putBytes [] 0x20000 wbar.bytes, sel := { grp := 1, lanes := ls } }

/-- The state after a word that changes the lanes' threads by a function. -/
def on (f : Nat → Thread → Thread) : State := ws.onLanes wg ls fun l t => nextThread ws wg ls true (f l t)

/-- A word's outcome is a given state. -/
def gives (i : Instr) (t : State) : Bool := ran (exec i ws) fun u => u = t

theorem test_issues : Issues ws wg ls := ⟨rfl, by decide, by decide, by decide, by decide, by decide, by decide, by decide⟩

theorem test_accepts : ∀ op < 256, acceptsHints op {} = true := by decide +kernel

theorem test_ready (op : Nat) (st : Bool) (h : op < 256) : WordReady ws wg ls op st := ⟨test_issues, fun _ => by unfold Thread.unlanded; decide, test_accepts op h⟩

theorem test_free (rs : List Nat) : FreeRegs ws wg ls rs := fun _ _ _ _ => rfl

theorem test_trapReady : TrapReady ws wg ls 128 := ⟨test_issues, rfl, by decide, by decide, test_free _⟩

/-! ## Words on registers -/

/-- 31 + 5 and the like, under the guard `?p0`, which only lane 0 meets. -/
theorem test_integerWords : 3 < ws.budget wg ∧ ∀ row ∈ intRows true 3#7 6#7 1#7 1#2,
    gives row.2.1 (on fun _ t => if guardOn wg ls 1 t then t.vset 3 (row.2.2 (t.vget 6) (t.vget 1) (t.vget 3)) else t) = true := by decide +kernel

theorem test_bitFields : bfeW 0xF0000001#32 0x0000041C#32 = 0xF#32 ∧ bfeW 0xF0000001#32 0x0001041C#32 = 0xFFFFFFFF#32 ∧ bfiW 5#32 0x0000081C#32 0xFFFFFFFF#32 = 0x5FFFFFFF#32 := by
  decide +kernel

theorem test_immediateForms :
    gives (.iaddImm true 3#7 6#7 0x1FF#9) (on fun _ t => t.vset 3 0xF0000000#32) ∧ gives (.shlImm true 3#7 6#7 31#5) (on fun _ t => t.vset 3 0x80000000#32) ∧
    gives (.movi true 3#7 0x8000#16) (on fun _ t => t.vset 3 0xFFFF8000#32) ∧ gives (.iaddScalar true 3#7 6#7 2#8 0#1) (on fun _ t => t.vset 3 0xF0000002#32) ∧
    gives (.movScalar true 3#7 2#8 1#1) (on fun l t => if l = 0 then t.vset 3 1#32 else t) ∧
    gives (.sel true 3#7 6#7 1#7 1#2) (on fun l t => t.vset 3 (if l = 0 then 0xF0000001#32 else 5#32)) ∧
    gives (.lea true 8#7 2#7 6#7 0#2) (on fun l t => (t.vset 8 (BitVec.ofNat 32 (0xF0020101 + 256 * l))).vset 9 0xFFFFFFFF#32) := by decide +kernel

theorem test_lanePredicates :
    gives (.icmp true 2#4 7#3 0#7 1#7 0#2) (on fun l t => t.pset 7 (decide (l < 5))) ∧ gives (.icmpImm true 0#4 1#3 1#7 5#9) (on fun _ t => t.pset 1 true) ∧
    gives (.plop true 0x3#4 2#3 0#1 0#3 0#3 0#2) (on fun l t => t.pset 2 (l != 0)) := by decide +kernel

/-- The state after a word that changes the group's scalar state. -/
def onScalar (g : Group) : State := ws.scalarNext wg ls true g

theorem test_groupPredicates :
    gives (.plop true 0x3#4 3#3 1#1 0#3 0#3 0#2) (onScalar (wg.qset 3 false)) ∧ gives (.vote true 1#7 0#2 0#3 0#2) (onScalar (wg.qset 1 true)) ∧
    gives (.vote true 1#7 1#2 0#3 0#2) (onScalar (wg.qset 1 false)) ∧ gives (.vote true 3#7 2#2 0#3 0#2) (on fun _ t => t.vset 3 1#32) ∧
    gives (.vtos true 31#5 0#7 191#8) (onScalar (wg.sset 191 31#32)) ∧ gives (.scmp true 3#4 2#2 2#8 3#7) (onScalar (wg.qset 2 false)) ∧
    gives (.scmpImm true 0#4 2#2 2#8 1#7) (onScalar (wg.qset 2 true)) := by decide +kernel

theorem test_scalarWords : (∀ row ∈ scalarRows true 191#8 0#8 2#7, gives row.2.1 (onScalar (wg.sset 191 (row.2.2 0x20000#32 1#32))) = true) ∧
    gives (.saddImm true 9#8 0#8 0x7F#7) (onScalar (wg.sset 9 0x1FFFF#32)) ∧ gives (.sshfImm true 9#8 0#8 0#2 15#5) (onScalar (wg.sset 9 0#32)) ∧
    gives (.sshfImm true 9#8 0#8 1#2 17#5) (onScalar (wg.sset 9 1#32)) ∧ gives (.smov true 9#8 0#8) (onScalar (wg.sset 9 0x20000#32)) ∧
    gives (.smovi true 9#8 0x4000#15) (onScalar (wg.sset 9 0xFFFFC000#32)) := by decide +kernel

/-- The state after a word whose results are pending. -/
def onLong (f : Nat → Thread → Thread) : State := ws.bump.onLanes wg ls fun l t => nextThread ws wg ls true (f l t)

/-- A thread with one pending result. -/
def pends (op : Nat) (d : Dest) (r : Word × FFlags) (t : Thread) : Thread := t.withPending [pendingOf ws wg ls op d r]

theorem test_longWords3 : ∀ row ∈ longRows3 true 3#7 7#7 7#7 0#2,
    gives row.2.1 (onLong fun _ t => pends row.1 (.v 3) (row.2.2 {} wg.fpst 0x3F800000#32 0x3F800000#32 0#32) t) = true := by decide +kernel

theorem test_longWords1 : ∀ row ∈ longRows1 true 3#7 7#7 0#2, gives row.2.1 (onLong fun _ t => pends row.1 (.v 3) (row.2.2 {} 0x3F800000#32) t) = true := by decide +kernel

theorem test_conversions : ∀ f ∈ [1#4, 3#4], ∀ row ∈ convRows true 3#7 7#7 0#4 f 0#5 0#2, row.1 = (if f = 3#4 then 0x73 else row.1) →
    (f = 3#4 ∨ row.1 ≠ 0x73) → gives row.2.1 (onLong fun _ t => pends row.1 (.v 3) (row.2.2.2 {} 0x3F800000#32 0#32) t) = true := by decide +kernel

theorem test_otherLongWords :
    gives (.fcmp true 0#4 1#3 7#7 7#7 0#2) (onLong fun _ t => pends 0x66 (.p 1) (1#32, 0#5) t) ∧
    gives (.smul true 9#8 0#8 2#7) (ws.bump.onLanes { wg with spend := [{ id := 1, sd := 9, val := 0x20000#32 }] } ls fun _ t =>
      nextThread ws wg ls true (pends 0x53 (.s 1) (0x20000#32, 0#5) t)) ∧
    ∀ row ∈ dqntRows true 8#7 6#7 6#7 0#2, (exec row.2.1 ws matches .next _) = true := by decide +kernel

theorem test_crossbarWords :
    gives (.xpat true 3#7 0#7 4#4) (onLong fun _ t => pends 0x80 (.v 3) (0#32, 0#5) t) ∧
    gives (.xperm true 3#7 0#7 1#7 0#2) (onLong fun _ t => pends 0x81 (.v 3) (0#32, 0#5) t) ∧
    gives (.shfl true 3#7 0#7 2#2 7#5) (onLong fun l t => pends 0x82 (.v 3) (BitVec.ofNat 32 (l + 7), 0#5) t) ∧
    gives (.scan true 3#7 1#7 0#4 9#4 0#1) (onLong fun l t => pends 0x83 (.v 3) (if l = 0 then 5#32 else 10#32, 0#5) t) ∧
    gives (.rdx true 3#7 1#7 0#4 9#4) (onLong fun _ t => pends 0x84 (.v 3) (10#32, 0#5) t) := by decide +kernel

theorem test_reduction : rdxTree wg 0 0 9 ls 5 0 = some (5#32, 0#5) := by decide +kernel

/-! ## Control words -/

/-- The device with another group in place of its own. -/
def wsv (g : Group) : State := { ws with groups := [g] }

/-- The group with each thread changed. -/
def vary (f : Nat → Thread → Thread) : Group := { wg with threads := wg.threads.mapIdx f }

/-- A word's outcome in a device with another group. -/
def givesIn (g : Group) (i : Instr) (t : State) : Bool := ran (exec i (wsv g)) fun u => u = t

/-- The group with its threads changed issues as before. -/
theorem test_issuesIn : Issues (wsv (vary fun _ t => { t with stack := [{ isLoop := true, start := 4#32, fin := 0#32, left := 2#32 }] }))
    (vary fun _ t => { t with stack := [{ isLoop := true, start := 4#32, fin := 0#32, left := 2#32 }] }) ls :=
  ⟨rfl, by decide, by decide, by decide, by decide, by decide, by decide, by decide⟩

theorem test_branches : ∀ row ∈ branchRows true 3#23,
    gives row.2.1 (ws.onLanes wg ls fun _ t => wentOn true 0 0#32 (if row.2.2 wg {} t then .jump 12#32 else .fall 0#32) t) = true := by decide +kernel

/-- A thread whose innermost loop ends at its word, with some iterations left. -/
def looping (n : Word) : Thread := { stack := [{ isLoop := true, start := 4#32, fin := 40#32, left := n }, { isLoop := false, start := 100#32 }] }

theorem test_loopDecision :
    (advance (looping 2#32) 40#32 (.fall 40#32)).pc = 4#32 ∧ (advance (looping 2#32) 40#32 (.fall 40#32)).stack.length = 2 ∧
    (advance (looping 1#32) 40#32 (.fall 40#32)).pc = 44#32 ∧ (advance (looping 1#32) 40#32 (.fall 40#32)).stack.length = 1 ∧
    (advance (looping 2#32) 40#32 (.jump 80#32)).pc = 80#32 ∧ (advance (looping 2#32) 40#32 (.jump 80#32)).stack.length = 1 ∧
    (advance { looping 2#32 with hnd := true } 40#32 (.fall 40#32)).pc = 44#32 := by decide +kernel

/-- A group whose threads have one stack. -/
def stacked (es : List LoopEntry) : Group := vary fun _ t => { t with stack := es }

theorem test_loopStackWords :
    gives (.call true 2#23) (ws.onLanes wg ls fun _ t => wentOn true 0 0#32 (.jump 8#32) { t with stack := [{ isLoop := false, start := 4#32 }] }) ∧
    givesIn (stacked [{ isLoop := true, start := 4#32, fin := 60#32, left := 3#32 }, { isLoop := false, start := 20#32 }]) (.ret true)
      ((wsv (stacked [{ isLoop := true, start := 4#32, fin := 60#32, left := 3#32 }, { isLoop := false, start := 20#32 }])).onLanes
        (stacked [{ isLoop := true, start := 4#32, fin := 60#32, left := 3#32 }, { isLoop := false, start := 20#32 }]) ls fun _ t =>
        { t with pc := 20#32, stack := [], starve := 0 }) ∧
    gives (.loop true 1#7 5#9) (ws.onLanes wg ls fun _ t => { t with pc := 4#32, stack := [{ isLoop := true, start := 4#32, fin := 24#32, left := 5#32 }] }) ∧
    gives (.loop true 5#7 5#9) (ws.onLanes wg ls fun _ t => { t with pc := 28#32 }) ∧
    givesIn (stacked [{ isLoop := true, start := 4#32, fin := 60#32, left := 3#32 }]) (.brk true 1#2)
      ((wsv (stacked [{ isLoop := true, start := 4#32, fin := 60#32, left := 3#32 }])).onLanes
        (stacked [{ isLoop := true, start := 4#32, fin := 60#32, left := 3#32 }]) ls fun l t =>
        if l = 0 then { t with pc := 64#32, stack := [] } else { t with pc := 4#32 }) ∧
    gives (.brx true 5#7 0#2) (ws.onLanes wg ls fun _ t => { t with pc := 0#32 }) := by decide +kernel

/-- Four entries: the stack is full. -/
def fullStack : List LoopEntry := List.replicate 4 { isLoop := true, start := 4#32, fin := 60#32, left := 3#32 }

theorem test_loopStackTraps :
    givesIn (stacked fullStack) (.call true 2#23) ((wsv (stacked fullStack)).trapNext (stacked fullStack) ls 128 0x1C fun _ => (0x40020001#32, 0#64, 0)) ∧
    givesIn (stacked [{ isLoop := true, start := 4#32, fin := 0#32, left := 3#32 }]) (.call true 2#23)
      ((wsv (stacked [{ isLoop := true, start := 4#32, fin := 0#32, left := 3#32 }])).trapNext (stacked [{ isLoop := true, start := 4#32, fin := 0#32, left := 3#32 }])
        ls 128 0x1C fun _ => (0x40020004#32, 0#64, 0)) ∧
    gives (.ret true) (ws.trapNext wg ls 128 0x1D fun _ => (0x40020002#32, 0#64, 0)) ∧
    gives (.brk true 0#2) (ws.trapNext wg ls 128 0x1F fun _ => (0x40020003#32, 0#64, 0)) := by decide +kernel

theorem test_nopAndHints :
    gives (.nop true) (on fun _ t => t) ∧ gives (.yield true) (onScalar { wg with yielded := true, leftOut := ls }) ∧
    gives (.himm 5#23) (ws.onLanes wg ls fun _ t => { t with pc := 4#32, hints := { imm := some 5#23 } }) ∧
    gives (.hdep 3#16 2#2 1#1) (ws.onLanes wg ls fun _ t => { t with pc := 4#32, hints := { dep := some { mask := 3#16, pol := 2#2, badp := true } } }) ∧
    gives (.hmod 3#3 1#1 4#3 6#3 3#2 1#1 0#1 7#3) (ws.onLanes wg ls fun _ t => { t with
      pc := 4#32, hints := { mod := some { rnd := 3#3, ovf := true, cp := 4#3, scp := 6#3, sem := 3#2, gen := true, gneg := false, gp := 7#3 } } }) ∧
    gives (.hsch 7#3 1#1) (ws.onLanes wg ls fun _ t => { t with pc := 4#32, hints := { sch := some { pri := 7#3, yld := true } } }) := by decide +kernel

/-- The group in which only the issuing lanes have not exited. -/
def alone : Group := vary fun l t => if l ∈ ls then t else { t with st := .exited }

theorem test_reconvergence :
    gives (.rcv true) (ws.onLanes wg ls fun _ t => { t with st := .rcvWait, rcvS := true }) ∧
    givesIn alone (.rcv false) ((wsv alone).onLanes alone ls fun _ t => { t with pc := 4#32 }) := by decide +kernel

theorem test_exit :
    gives (.exit true 1#2) (ws.onLanes wg ls fun l t => if l = 0 then { t with st := .exited } else { t with pc := 4#32 }) ∧
    ran (exec (.exit true 0#2) (wsv alone)) (fun t => (t.group? 1).any fun g => g.finished && g.threads.all fun u => u.st == .exited) := by decide +kernel

/-! ## Traps and system words -/

/-- The group whose threads hold a pending `HIMM`. -/
def hinted : Group := vary fun _ t => { t with hints := { imm := some 1#23 }, pc := 4#32 }

theorem test_traps :
    gives (.trap true 7#16) (ws.trapNext wg ls 128 0x06 fun _ => (0x40000007#32, 0#64, 0)) ∧
    (∀ row ∈ intRows true 32#7 1#7 1#7 0#2, gives row.2.1 (ws.trapNext wg ls 128 row.1 fun _ => (0x30000007#32, 0#64, 0)) = true) ∧
    (∀ row ∈ intRows true 3#7 1#7 1#7 0#2, givesIn hinted row.2.1 ((wsv hinted).trapNext hinted ls 128 row.1 fun _ => (0x30000004#32, 0#64, 0)) = true) ∧
    (∀ row ∈ scalarRows true 192#8 0#8 1#7, gives row.2.1 (ws.trapNext wg ls 128 row.1 fun _ => (0x30000006#32, 0#64, 0)) = true) ∧
    ran (exec (.illegalInstruction 2) ws) (fun t => ls.all fun l => (t.group? 1).any fun g => (g.thread l).pc == 128#32 && (g.thread l).vget 1 == 0x30000002#32) := by decide +kernel

/-- The frame of a `TRAP 7` at PC 0 in lane 5, byte by byte where it is not zero: v0, v1, TCODE, the next PC, the opcode. -/
theorem test_trapFrame : frameBytes (wg.thread 5) (trapOf 0x06 0x40000007#32 0#64 0 (wg.thread 5)) =
    natLe 4 5 ++ natLe 4 5 ++ natLe 4 0x40000007 ++ natLe 4 0 ++ natLe 4 0 ++ natLe 4 4 ++ natLe 8 0 ++ natLe 4 0x06000000 ++ natLe 28 0 := by decide +kernel

theorem test_systemRegisters :
    (∀ row ∈ systemRows ws wg, gives (.sysrd true 9#8 row.1) (onScalar (row.2.2.sset 9 row.2.1)) = true) ∧
    gives (.syswr true 0#8 0x10#15) (onScalar { wg with fpst := 0#32 }) := by decide +kernel

/-- The device with counter 3 of core 0, and of the device, open to its context. -/
def counting : State := { ws with counters := [{ core := 0, idx := 3, mode := 2, casid := 1, val := 0x200000005 }, { core := 0xFFFF, idx := 3, mode := 2, casid := 1, val := 7 }] }

theorem test_perf :
    ran (exec (.perf true 9#8 0#8 0#3 3#4) counting) (fun t => (t.group? 1).any fun g => g.sget 9 == 5#32 && g.perfHi == 2#32) ∧
    ran (exec (.perf true 9#8 0#8 6#3 3#4) counting) (fun t => (t.group? 1).any fun g => g.sget 9 == 7#32) ∧
    ran (exec (.perf true 0#8 2#8 2#3 3#4) counting) (fun t => t.counter 0 3 = { core := 0, idx := 3, mode := 2, casid := 1, event := 1 }) ∧
    ran (exec (.perf true 0#8 0#8 3#3 3#4) counting) (fun t => (t.counter 0 3).val == 0) ∧
    ran (exec (.perf true 0#8 0#8 4#3 3#4) counting) (fun t => (t.counter 0 3).on) ∧
    ran (exec (.perf true 0#8 0#8 5#3 3#4) counting) (fun t => !(t.counter 0 3).on) ∧
    gives (.perf true 9#8 0#8 1#3 3#4) (onScalar (wg.sset 9 0#32)) := by decide +kernel

/-! ## Memory words -/

/-- Lane `l`'s address, by hand. -/
def laneVa (l : Nat) : Nat := 0x20100 + 256 * l

/-- What an access of the issuing lanes finds: its page's frame at the same address. -/
theorem test_translated : ∀ k ∈ [Access.load, .store, .atomic, .tile, .tileRd], ∀ l ∈ ls, addrOf wg ls (wg.thread l) 2 = laneVa l ∧
    accessCheck ws (ws.issueFor wg ls 0x90 true) l k (laneVa l) 4 false = .ok (.home (laneVa l)) := by decide +kernel

theorem test_loadStore :
    gives (.ld true 8#7 2#7 5#4 2#3 0#2) (ws.boundNext wg ls true 5 { ws.newOp wg ls 5 (.load false 0#3) with
      parts := ls.map fun l => { lane := l, va := laneVa l, phys := .home (laneVa l), size := 4, tgt := [8] } } []) ∧
    gives (.st true 1#7 2#7 5#4 1#3 1#2) (ws.boundNext wg ls true 5 { ws.newOp wg ls 5 (.store false 0#3) with
      parts := [{ lane := 0, va := laneVa 0, phys := .home (laneVa 0), size := 2, data := [5#8, 0#8] }] } [{ seq := 1, kind := .store, op := 1, lane := 0 }]) := by decide +kernel

/-- The store-queue entries of a home operation. -/
def homeQ : List QEntry := ls.map fun l => { seq := 1, kind := .home, op := 1, lane := l }

theorem test_atomics :
    gives (.atom true 1#7 2#7 5#4 1#1 0#1 0#3) (ws.boundNext wg ls true 5 { ws.newOp wg ls 5 (.atom 0#3 false true 0#2 0#3) with
      parts := ls.map fun l => { lane := l, va := laneVa l, phys := .home (laneVa l), size := 4, tgt := [1], data := natLe 4 5 } } homeQ) ∧
    gives (.acas true 8#7 2#7 5#4 1#1 0#1) (ws.boundNext wg ls true 5 { ws.newOp wg ls 5 (.cas false true 0#2 0#3) with
      parts := ls.map fun l => { lane := l, va := laneVa l, phys := .home (laneVa l), size := 4, tgt := [8], data := natLe 8 0 } } homeQ) := by decide +kernel

theorem test_flushAndTiles :
    gives (.cflush true 0#2 2#7 5#4 0#3 0#2) (ws.boundNext wg ls true 5 { ws.newOp wg ls 5 (.cflush 0#2) with
      parts := ls.map fun l => { lane := l, va := laneVa l, phys := .home (laneVa l), size := 256 } } homeQ) ∧
    gives (.ldt true 5#7 2#7 5#4 0#2) (ws.boundNext wg ls true 5 { ws.newOp wg ls 5 (.ldt 0#2 0#3) with
      parts := ls.map fun l => { lane := l, va := laneVa l, phys := .home (laneVa l), size := 64, data := natLe 4 0 } } homeQ) ∧
    gives (.stt true 5#7 2#7 5#4 0#2) (ws.boundNext wg ls true 5 { ws.newOp wg ls 5 (.stt 0#2 0#3) with
      parts := ls.map fun l => { lane := l, va := laneVa l, phys := .home (laneVa l), size := 64, data := natLe 4 0 } } homeQ) := by decide +kernel

theorem test_misaligned :
    gives (.ld true 8#7 6#7 5#4 1#3 0#2) (ws.trapNext wg ls 128 0x90 fun _ => (0x20000001#32, 0x3F800000F0000001#64, 2)) ∧
    gives (.st true 8#7 6#7 5#4 4#3 0#2) (ws.trapNext wg ls 128 0x91 fun _ => (0x20000001#32, 0x3F800000F0000001#64, 16)) := by decide +kernel

theorem test_scratchpad :
    gives (.lds true 8#7 4#7 2#3 0#2) (onLong fun _ t => pends 0x92 (.v 8) (0#32, 0#5) t) ∧
    gives (.sts true 1#7 4#7 0#3 0#2) (State.onLanes { ws with mem := memPut (memPut ws.mem (spadAddr 0 0) 5#8) (spadAddr 0 20) 5#8 } wg ls fun _ t =>
      nextThread ws wg ls true t) := by decide +kernel

/-- An absent line parks the thread. -/
theorem test_absent : ran (exec (.lds true 8#7 4#7 2#3 0#2) { ws with absent := [(0, 0, 9)] }) fun t =>
    (t.group? 1).any fun g => (g.thread 5).st == .parked .absentLine && (g.thread 5).wake == .lines 0 [0] := by decide +kernel

theorem test_presence : gives (.ptst true 8#7 5#7 0#2) (onLong fun _ t => pends 0x99 (.v 8) (3#32, 0#5) t) ∧ ptstWord { ws with absent := [(0, 1, 9)] } wg 0 = 1#32 ∧
    ptstWord ws wg 512 = 1#32 := by decide +kernel

theorem test_prefetchAndFence :
    (∀ lv : Fin 3, ran (exec (.prf true (BitVec.ofFin ⟨lv.1, by omega⟩) 2#7 4#3 1#2) ws) (fun t =>
      (t.l1.isEmpty == (lv != 0)) && (t.cc.isEmpty == (lv == 2)) && { t with l1 := [], cc := [] } = on fun _ t => t) = true) ∧
    gives (.fence true 0#3 1#2 3#2) (on fun _ t => t) ∧
    gives (.fence true 0#3 2#2 0#2) (onScalar { wg with seq := 2, sq := [{ seq := 1, kind := .fence 0#3 1, lane := 33 }] }) ∧
    gives (.fence true 0#3 1#2 0#2) (State.onLanes (ws.acquire 0 5) wg ls fun _ t => nextThread ws wg ls true t) ∧
    gives (.fence true 0#3 3#2 0#2) (State.onLanes ((ws.release 0 5).acquire 0 5) wg ls fun _ t => nextThread ws wg ls true t) := by decide +kernel

/-- The group whose prefetches reach the trap-frame window. -/
def framing : Group := vary fun _ t => (t.vset 2 (BitVec.ofNat 32 frameVa)).vset 3 (BitVec.ofNat 32 (frameVa / 2 ^ 32))

/-- A prefetch of the window traps with the memory-type code and the lane's address. -/
theorem test_prefetchTraps : (ls.all fun l => meetsFrames (addrOf framing ls (framing.thread l) 2 / 256 * 256) (256 * 2 ^ 0)) = true ∧
    givesIn framing (.prf true 2#2 2#7 0#3 0#2) ((wsv framing).trapNext framing ls 128 0x96 fun _ => (0x20000002#32, BitVec.ofNat 64 frameVa, 0)) = true := by decide +kernel

/-- A load of both lanes that has not been performed. -/
def unperformed : Op := { id := 7, asid := 1, launch := 1, team := 1, grp := 1, lanes := ls, kd := 3, seq := 0, kind := .load false 0#3, parts := ls.map fun l => { lane := l, va := laneVa l, phys := .home (laneVa l), size := 4, tgt := [8] } }

/-- The device in which it is in flight; in the second the threads have been woken from an acquire's wait. -/
def loads : State := { ws with ops := [unperformed] }
def woken : Group := vary fun _ t => { t with wake := .fence 1 ls false }

theorem test_fenceWaits :
    ran (exec (.fence true 0#3 1#2 0#2) loads) (fun t => t = loads.onLanes wg ls fun _ x => parkedBefore 0 .wait (.fence 1 ls false) x) ∧
    ran (exec (.fence true 2#3 3#2 0#2) loads) (fun t => t = loads.onLanes { wg with seq := 2, sq := [{ seq := 1, kind := .fence 2#3 1, lane := 33 }] } ls fun _ x =>
      parkedBefore 0 .wait (.fence 1 ls true) x) ∧
    givesIn woken (.fence true 4#3 1#2 0#2) (State.onLanes ((wsv woken).acquire 0 4) woken ls fun _ t => nextThread (wsv woken) woken ls true t) ∧
    givesIn woken (.fence true 4#3 3#2 0#2) (State.onLanes (((wsv woken).release 0 4).acquire 0 4) woken ls fun _ t => nextThread (wsv woken) woken ls true t) := by decide +kernel

/-- A line of cluster 0 with one dirty byte. -/
def dirtyLine : CCLine := { clu := 0, pa := 0x20100, asid := 1, data := 7#8 :: List.replicate 255 9#8, dirty := true :: List.replicate 255 false }

theorem test_writeBack :
    memGet (State.writeBack { ws with cc := [dirtyLine] } 0 0x20100).mem 0x20100 = 7#8 ∧ memGet (State.writeBack { ws with cc := [dirtyLine] } 0 0x20100).mem 0x20101 = 0#8 ∧
    (State.acquire { ws with cc := [dirtyLine] } 0 4).cc = [] := by decide +kernel

/-! ## Tokens and barriers -/

/-- The group with `k3` PEND. -/
def pendingToken : Group := wg.setToken 3 { st := .pend, op := 7 }

theorem test_tokenWaits :
    gives (.wait true 2#2 1#1 0x0002#16 0#1 0#1 0#1) (onScalar (wg.qset 2 false)) ∧ gives (.wait true 2#2 1#1 0x0006#16 0#1 0#1 0#1) (onScalar (wg.qset 2 true)) ∧
    givesIn pendingToken (.wait true 2#2 1#1 0x0008#16 0#1 0#1 0#1) ((wsv pendingToken).parkNext pendingToken ls .wait (.tokens 8#16 false)) ∧
    gives (.waitc true 1#4 2#8 2#2 1#1 0#1 0#1) (onScalar (wg.qset 2 false)) ∧ gives (.waitc true 2#4 2#8 2#2 1#1 0#1 0#1) (onScalar (wg.qset 2 true)) ∧
    givesIn pendingToken (.waitc true 3#4 2#8 2#2 0#1 0#1 0#1) ((wsv pendingToken).parkNext pendingToken ls .wait (.prog 3 1#64)) := by decide +kernel

theorem test_badTokens : gives (.wait true 2#2 1#1 0x0004#16 0#1 1#1 0#1) (ws.trapNext (wg.qset 2 true) ls 128 0xA0 fun _ => (0x40010034#32, 0#64, 0)) := by decide +kernel

/-- An operation in flight that `k3` is bound to. -/
def flying (kind : OpKind) : Op := { id := 7, asid := 1, launch := 1, team := 1, grp := 1, lanes := ls, kd := 3, seq := 0, kind := kind }

/-- That operation with some exports. -/
def exported (n : Nat) : Op := { flying (.load false 0#3) with exprts := List.replicate n { bar := 0x20000, arr := 1, byt := false, grp := 1, seq := 0, pc := 0#32, lanes := ls } }

theorem test_tokenWords :
    gives (.tst true 2#4 9#8 0#8 0#1) (onScalar (wg.sset 9 0x3404#32)) ∧ gives (.tst true 1#4 9#8 10#8 1#1) (onScalar (((wg.sset 9 2#32).sset 10 0#32).sset 11 0#32)) ∧
    ran (exec (.tclr true 0x000C#16) { wsv pendingToken with ops := [flying (.load false 0#3), { flying (.load false 0#3) with id := 6 }] }) (fun t =>
      (t.group? 1).any fun g => g.token 2 = {} && g.token 3 = {} && g.token 1 = wg.token 1 && t.ops.map (fun o => (o.id, o.bound)) == [(7, false), (6, true)]) ∧
    barrierCheck ws (ws.issueFor wg ls 0xA4 true) (wg.spair 0) .barrierWr = .ok (.home 0x20000) ∧
    gives (.texp true 2#4 0#8 2#8 0#1 1#1) (onScalar { wg with
      seq := 2, sq := [{ seq := 1, kind := .barrier, upds := [(0x20000, { arr := 1, cause := some 0x34#8, unit := 0, asid := 1, seq := 1, pc := 0#32, lanes := ls })] }] }) ∧
    gives (.texp true 1#4 0#8 0#8 1#1 0#1) (onScalar { wg with
      seq := 2, sq := [{ seq := 1, kind := .barrier, upds := [(0x20000, { arr := 0, cause := none, unit := 0, asid := 1, seq := 1, pc := 0#32, lanes := ls })] }] }) ∧
    ran (exec (.texp true 3#4 0#8 2#8 1#1 1#1) { wsv pendingToken with ops := [flying (.load false 0#3)] }) (fun t =>
      (t.op? 7).map (·.exprts) = some [{ bar := 0x20000, arr := 1, byt := true, grp := 1, seq := 1, pc := 0#32, lanes := ls }]) ∧
    ran (exec (.texp true 3#4 0#8 2#8 1#1 1#1) { wsv pendingToken with ops := [exported 4] }) (fun t =>
      t = (State.trapNext { wsv pendingToken with ops := [exported 4] } pendingToken ls 128 0xA4 fun _ => (0x40050001#32, 0#64, 0))) := by decide +kernel

theorem test_barrierWrites :
    ran (exec (.binit true 5#4 0#8 2#8) ws) (fun t => (t.op? 1).any fun o => o.kind == .binit 1#32 0#32 && o.stage == 0x82) ∧
    ran (exec (.arv true 5#4 0#8 2#8 1#1 0#1) ws) (fun t => (t.op? 1).any fun o => o.kind == .arv 1 0 none && o.stage == 0) := by decide +kernel

theorem test_barrierReads :
    barrierCheck ws (ws.issueFor wg ls 0xA7 true) (wg.spair 0) .barrierRd = .ok (.home 0x20000) ∧
    gives (.bwait true 1#2 1#1 0#8 2#8 0#1 0#1) (State.scalarNext (ws.acquire 0 5) wg ls true (wg.qset 1 false)) ∧
    gives (.bwait true 1#2 1#1 0#8 7#8 0#1 0#1) (State.scalarNext (ws.acquire 0 5) wg ls true (wg.qset 1 false)) ∧
    gives (.bpoll true 1#2 0#8 8#8) (State.scalarNext (ws.acquire 0 5) wg ls true (((wg.qset 1 true).sset 8 0xB0000#32).sset 9 5#32)) := by decide +kernel

/-- The group waits for phase 6, which has not come. -/
theorem test_barrierPark : ran (exec (.bwait true 1#2 1#1 0#8 9#8 0#1 0#1) (wsv (wg.sset 9 6#32))) fun t =>
    (t.group? 1).any fun g => (g.thread 5).st == .parked .wait && (g.thread 5).wake == .barrier 0x20000 6#32 := by decide +kernel

/-! ## Engine and matrix words -/

/-- A record of some bytes with fields laid over zeros: offset, size and value. -/
def record (n : Nat) (fs : List (Nat × Nat × Nat)) : Bytes := fs.foldl (fun bs f => overlay bs f.1 (natLe f.2.1 f.2.2)) (List.replicate n 0#8)

/-- A record's CTL: SKIND and DKIND, FMT zero. -/
def ctlOf (skind dkind : Nat) : Nat := skind * 2 ^ 24 + dkind * 2 ^ 22

/-- A copy of 1,024 bytes from 0x22000 into the scratchpad. -/
def copyRec : Bytes := record 128 [(0, 8, ctlOf 0 1), (8, 8, 0x22000), (0x18, 4, 1024), (0x1C, 4, 1), (0x20, 4, 1), (0x24, 4, 1)]

/-- A collective of one rank that gathers 512 bytes. -/
def collRec : Bytes :=
  record 256 [(0, 8, 0), (8, 8, 0x22000), (16, 8, 0x23000), (0x18, 4, 512), (0x1C, 4, 1), (0x20, 4, 1), (0x24, 4, 1), (0x80, 2, 1), (0x82, 2, 1), (0x84, 2, 1), (0x86, 1, 1), (0xA0, 4, 77)]

/-- A multicast of 512 bytes to one member. -/
def mcstRec : Bytes := record 256 [(8, 8, 0x22000), (16, 8, 0x23000), (0x18, 4, 512), (0x1C, 4, 1), (0x20, 4, 1), (0x24, 4, 1), (0x80, 1, 1)]

/-- A dispatch record of one device, one expert and one choice, with rows of 512 bytes. -/
def dispRec : Bytes := record 256 [(0x18, 4, 512), (0x1C, 4, 1), (0x20, 4, 1), (0x24, 4, 1), (0x80, 2, 1), (0x82, 2, 1), (0x84, 1, 1), (0xC0, 4, 78)]

/-- The device with a record where the group's s4:s5 points. -/
def withRecord (bs : Bytes) : State := { ws with mem := putBytes ws.mem 0x21000 bs }

/-- A command has been bound to `k5` in the engine queue, with a property. -/
def queuedOp (i : Instr) (s : State) (p : Op → Bool) : Bool := ran (exec i s) fun t => (t.op? s.nextId).any fun o =>
  o.bound && o.kd == 5 && o.lanes == ls && (t.contexts.all fun c => c.engq == [o.id]) && ((t.group? 1).any fun g => (g.token 5).st == .pend && (g.token 5).op == o.id) && p o

theorem test_engineCommands :
    ran (exec (.launch true 5#4 4#8) ws) (fun t => t.launches.any fun l => l.va == 0x21000 && l.phase == .queued && (t.op? l.op).any fun o => o.kind == .launch l.uid) ∧
    queuedOp (.kvseal true 5#4 4#8 2#8) ws (fun o => o.kind == .kvseal && o.va == 0x21000 && o.args == [1#32]) ∧
    queuedOp (.kvhdr true 5#4 4#8 2#8) ws (fun o => o.kind == .kvhdr && o.args == [1#32]) ∧
    queuedOp (.kvld true 5#4 4#8 8#8 0#1 1#1) ws (fun o => o.kind == .kvld && o.va == 0x21000 && o.args == [0#32, 0#32, 0#32, 0#32, 0#32, 1#32]) ∧
    queuedOp (.kvld true 5#4 4#8 2#8 1#1 0#1) (wsv (wg.sset 2 0x00010000#32)) (fun o => o.args == [0x00010000#32, 0#32, 0#32, 0#32, 1#32, 0#32]) ∧
    ran (exec (.kvld true 5#4 4#8 2#8 1#1 0#1) (wsv (wg.sset 2 0x00010000#32))) (fun t => t.absent == [(0, 0, 1), (0, 1, 1)]) ∧
    gives (.drain true 5#4 6#3) (ws.boundNext wg ls true 5 (ws.newOp wg ls 5 (.drain true)) []) := by decide +kernel

theorem test_copyBinds : recordCheck ws (ws.issueFor wg ls 0xB0 true) (wg.spair 4) 128 = .ok (.home 0x21000) ∧
    (withRecord copyRec).recordView wg (.home 0x21000) 128 matches .bytes _ ∧ copyCheck copyRec wteam 0 0 = 0 ∧ (shapeOf copyRec).pub = false ∧
    ran (exec (.cpy true 5#4 4#8 3#8 0#1 0#1) (withRecord copyRec)) (fun t => t.gathers.any fun x => x.recd == copyRec && x.slices.map (·.idx) == [0] &&
      x.slices.all fun y => (t.op? y.op).any fun o => o.kind == .copy x.id && o.nchunk == 2) := by decide +kernel

/-- A copy of one line that publishes to slot 1 of queue 1, and a copy of two slices, whose first has been issued. -/
def pubRec : Bytes := record 128 [(0, 8, ctlOf 0 1 + 2 ^ 39 + 2 ^ 40), (8, 8, 0x22000), (16, 8, 512), (0x18, 4, 512), (0x1C, 4, 1), (0x20, 4, 1), (0x24, 4, 1)]
def slicedRec : Bytes := record 128 [(0, 8, ctlOf 0 1 + 2 ^ 43), (8, 8, 0x22000), (0x18, 4, 1024), (0x1C, 4, 1), (0x20, 4, 1), (0x24, 4, 1)]
def slice (idx op : Nat) : Slice := { idx := idx, op := op, dov := false, sov := false, doff := 0, soff := 0 }
def sliced : State := { withRecord slicedRec with gathers := [{ id := 3, team := 1, va := 0x21000, recd := slicedRec, slices := [slice 0 9] }], nextId := 20 }

/-- The slot is filling and the line absent; a second slice joins its gather; without a slot ACQUIRED the copy has failed with 0x44. -/
theorem test_copiesJoin :
    copyCheck pubRec wteam 0 0 = 0 ∧ publishSlot wteam (shapeOf pubRec) 0 = some (1, 1) ∧
    ran (exec (.cpy true 5#4 4#8 3#8 0#1 0#1) (withRecord pubRec)) (fun t => t.gathers.map (fun x => (x.slot, x.fail, x.slices)) == [(some (1, 1), none, [slice 0 2])] &&
      t.absent == [(0, 1, 2)] && t.teams.any fun u => u.queues.any fun q => q.idx == 1 && q.slots == [(.popped, 0#32), (.filling, 0#32)]) ∧
    sliced.gatherFor 1 0x21000 1 = sliced.gather? 3 ∧
    ran (exec (.cpy true 5#4 4#8 2#8 0#1 0#1) sliced) (fun t => t.gathers.map (·.slices) == [[slice 0 9, slice 1 20]] && t.absent == [(0, 0, 20), (0, 1, 20)]) ∧
    publishSlot wteam (shapeOf (overlay pubRec 16 (natLe 4 0))) 0 = none ∧ copyCheck (overlay pubRec 16 (natLe 4 0)) wteam 0 0 = 0 ∧
    ran (exec (.cpy true 5#4 4#8 3#8 0#1 0#1) (withRecord (overlay pubRec 16 (natLe 4 0)))) (fun t => t.gathers.map (fun x => (x.slot, x.fail)) == [(none, some 0x44#8)]) := by
  decide +kernel

theorem test_podCommands :
    collCheck collRec wteam = 0 ∧ queuedOp (.coll true 5#4 4#8 2#8) (withRecord collRec) (fun o => o.kind == .coll && o.recd == collRec && o.cid == 77 && o.ordn == 1) ∧
    mcstCheck mcstRec wteam 1 = 0 ∧ queuedOp (.mcst true 5#4 4#8 2#8) (withRecord mcstRec) (fun o => o.kind == .mcst && o.recd == mcstRec && o.args == [1#32]) ∧
    dispCheck dispRec wteam false 1 = 0 ∧ queuedOp (.rte true 5#4 4#8 2#8) (withRecord dispRec) (fun o => o.kind == .rte && o.cid == 78 && o.ordn == 1) ∧
    dispCheck dispRec wteam true 1 = 0 ∧ queuedOp (.rtc true 5#4 4#8 2#8) (withRecord dispRec) (fun o => o.kind == .rtc && o.cid == 78 && o.ordn == 1) := by decide +kernel

/-- The slots of a queue after a word. -/
def slotsAfter (i : Instr) (n : Nat) (p : StreamQ → Bool) : Bool := ran (exec i ws) fun t => t.teams.any fun u => u.queues.any fun q => q.idx == n && p q

theorem test_streamQueues :
    slotsAfter (.sacq true 9#8 0#3) 0 (fun q => q.slots.map (·.1) == [.acquired, .filled] && q.aptr == 1) ∧
    ran (exec (.sacq true 9#8 1#3) ws) (fun t => (t.group? 1).any fun g => (g.thread 5).wake == .slotEmpty 1) ∧
    slotsAfter (.spop true 9#8 10#8 0#3) 0 (fun q => q.slots.map (·.1) == [.empty, .popped] && q.pptr == 0) ∧
    ran (exec (.spop true 9#8 10#8 0#3) ws) (fun t => (t.group? 1).any fun g => g.sget 9 == 512#32 && g.sget 10 == 2#32) ∧
    ran (exec (.spop true 9#8 10#8 1#3) ws) (fun t => (t.group? 1).any fun g => (g.thread 5).wake == .slotFilled 1) ∧
    slotsAfter (.srel true 9#8 0#1 1#3) 1 (fun q => q.slots.map (·.1) == [.empty, .acquired]) ∧
    ran (exec (.srel true 9#8 1#1 1#3) (wsv (wg.sset 9 512#32))) (fun t => t.teams.any fun u => u.queues.any fun q => q.idx == 1 && q.slots == [(.popped, 0#32), (.filled, 2#32)]) := by
  decide +kernel

theorem test_matrixBinds :
    (∀ row ∈ mmaRows true 5#4 0#5 8#7 3#7, mmaCode (ws.issueFor wg ls row.1 true) 4 row.2.2 8 0 = none ∧
      ran (exec row.2.1 ws) (fun t => (t.op? 1).any fun o => (o.kind matches .mma _ 0 0#32 _) && t.teams.any fun u => u.tiles.any fun x => x.ord == [1]) = true) ∧
    ran (exec (.acacq true 5#4 0#5) ws) (fun t => t.teams.any fun u => u.tiles.any fun x => x.st == .acquiring 0 1 && x.ord == [1]) := by decide +kernel

theorem test_tileWords :
    ran (exec (.acrel true 1#5) ws) (fun t => t.teams.all fun u => u.tiles.all fun x => x.st == .array) ∧
    ran (exec (.acz true 1#5) { ws with mem := putBytes ws.mem (tileElem wteam 0 1 5 0) [1#8, 2#8] }) (fun t => t.mem = ws.mem) ∧
    gives (.acrd true 1#5 8#7 3#7) (onLong fun _ t => pends 0xCE (.v 8) (0#32, 0#5) t) ∧
    ran (exec (.acwr true 1#5 1#7 3#7) ws) (fun t => getLe t.mem (tileElem wteam 0 1 0 0) 4 == 5 && getLe t.mem (tileElem wteam 0 1 5 0) 4 == 5 && getLe t.mem (tileElem wteam 0 1 1 0) 4 == 0) := by
  decide +kernel

/-! ## Parks and segments -/

/-- A load in flight to `v8` of both lanes. -/
def loading : Op := { flying (.load false 0#3) with parts := ls.map fun l => { lane := l, va := laneVa l, phys := .home (laneVa l), size := 4, tgt := [8] } }

/-- The group as a hinted word with an `HDEP` on `k2` or `k3`, its threads at the word. -/
def depending (m : BitVec 16) : Group := { pendingToken with threads := pendingToken.threads.map fun t => { t with pc := 4#32, hints := { dep := some { mask := m, pol := 0#2, badp := false } } } }

theorem test_parks :
    ran (exec (.iadd true 8#7 1#7 1#7 0#2) { ws with ops := [loading] }) (fun t => ls.all fun l => (t.group? 1).any fun g =>
      (g.thread l).st == .parked .tokenTarget && (g.thread l).wake == .ops [7] && (g.thread l).pc == 0#32) ∧
    ran (exec (.tclr true 0#16) { wsv (depending 8#16) with ops := [flying (.load false 0#3)] }) (fun t => ls.all fun l => (t.group? 1).any fun g =>
      (g.thread l).st == .parked .precondition && (g.thread l).wake == .ops [7]) ∧
    ran (exec (.tclr true 0xFFFF#16) (wsv (depending 4#16))) (fun t => (t.group? 1).any fun g => g.token 2 == wg.token 2 && (g.thread 5).pc == 8#32) := by decide +kernel

/-- Only lane 5's register is the target; lane 0 goes on. -/
def loading5 : Op := { loading with lanes := [5], parts := [{ lane := 5, va := laneVa 5, phys := .home (laneVa 5), size := 4, tgt := [8] }] }

theorem test_laneParks : [.iadd false 8#7 1#7 1#7 0#2, .fadd false 8#7 7#7 7#7 0#2, .fcls false 8#7 7#7 0#2].all (fun i => ran (exec i { ws with ops := [loading5] }) fun t =>
    (t.group? 1).any fun g => (g.thread 5).st == .parked .tokenTarget && (g.thread 5).wake == .ops [7] && (g.thread 5).pc == 0#32 && (g.thread 0).st == .runnable &&
      (g.thread 0).pc == 4#32) = true := by decide +kernel

/-- Fields that are legal for every gated word of the device, and the group whose hint has a policy. -/
def fields : Fields := { d := 8#7, a := 4#7, x := 0#8, y := 2#8, k := 1#4, z := 2#3, p := 1#3, gd := 0#2, q := 1#2, c := 1#5, m := 0#16, e := 0#1, u := 1#1, t := 0#1, b := 0#1 }
def policy (m : BitVec 16) (pol : BitVec 2) : Group :=
  { pendingToken with threads := pendingToken.threads.map fun t => { t with pc := 4#32, hints := { dep := some { mask := m, pol := pol, badp := false } } } }

theorem test_gatedFields : ∀ row ∈ gatedRows ws wg true fields, row.2.2 := by
  simp only [gatedRows, List.forall_mem_cons, List.not_mem_nil, false_implies, implies_true, and_true]
  decide +kernel

/-- Each gated word is skipped on the POISON of k2 by POL 0, traps with its cause by POL 1, and parks on k3. -/
theorem test_gatedWords :
    (gatedRows ws wg true fields).all (fun row =>
      givesIn (policy 4#16 0#2) row.2.1 ((wsv (policy 4#16 0#2)).onLanes (policy 4#16 0#2) ls fun _ t => nextThread (wsv (policy 4#16 0#2)) (policy 4#16 0#2) ls true t) &&
      givesIn (policy 4#16 1#2) row.2.1 ((wsv (policy 4#16 1#2)).trapNext (policy 4#16 1#2) ls 128 row.1 fun _ => (0x40010034#32, 0#64, 0)) &&
      givesIn (policy 12#16 0#2) row.2.1 ((wsv (policy 12#16 0#2)).parkNext (policy 12#16 0#2) ls .precondition (.ops [7]))) = true := by decide +kernel

/-- A thread with one landed result, whose flag is NX, with its trap on or off. -/
def landed (te : FFlags) : Thread := { thr 5 with pend := [{ dest := .v 8, val := 9#32, flags := 0x10#5, te := te, pc := 0#32, wid := 1, op := 0x60#8, landed := true }] }

theorem test_segments :
    ((closeSegment wg (landed 0#5)).2.1.vget 8 = 9#32 ∧ (closeSegment wg (landed 0#5)).1.fpst = 0x10#32) ∧
    ((closeSegment wg (landed 0x10#5)).2.1.vget 8 = 0#32 ∧ (closeSegment wg (landed 0x10#5)).2.2 = some (0#32, 0x10#5, 0x60#8)) := by decide +kernel

/-- Six results: two words on `v8`, one on `p1` and `v9` that raised, one on `p2`, two scalar ones. -/
def result (d : Dest) (v : Word) (w : Nat) (f : FFlags) : Pending := { dest := d, val := v, flags := f, te := 2#5, pc := BitVec.ofNat 32 (4 * w), wid := w, op := 0x60#8, landed := true }
def results : List Pending :=
  [result (.v 8) 9#32 1 0#5, result (.p 1) 1#32 2 2#5, result (.v 9) 7#32 2 0#5, result (.v 8) 10#32 3 1#5, result (.p 2) 1#32 4 2#5, result (.s 1) 0#32 5 0#5, result (.s 2) 0#32 6 0#5]
def scalarGroup : Group := { wg with spend := [{ id := 1, sd := 9, val := 70#32 }, { id := 2, sd := 9, val := 71#32 }, { id := 3, sd := 10, val := 72#32 }] }

/-- The later word of `v8` and of `s9` is left; of the two words that raised, the first is discarded and named. -/
theorem test_segmentOrder : let r := closeSegment scalarGroup { thr 5 with pend := results }
    r.2.2 = some (8#32, 2#5, 0x60#8) ∧ r.2.1.vget 8 = 10#32 ∧ r.2.1.vget 9 = 0#32 ∧ r.2.1.pget 1 = false ∧ r.2.1.pget 2 = true ∧ r.1.fpst = 3#32 ∧ r.1.sget 9 = 71#32 ∧
    r.1.spend = [{ id := 3, sd := 10, val := 72#32 }] := by decide +kernel

/-! ## Steps of the device -/

/-- An operation is in flight, as `InFlight` says. -/
def flies (s : State) (g : Group) (o : Op) : Bool :=
  s.op? o.id = some o && s.group? o.grp = some g && g.resident && !g.finished && o.bound && decide (o.kd < g.k.length) && o.pre == [] && o.exprts == []

/-- `flies` is `InFlight`. -/
theorem test_flies {s : State} {g : Group} {o : Op} (h : flies s g o = true) : InFlight s g o := by
  simp only [flies, Bool.and_eq_true, Bool.not_eq_true', decide_eq_true_eq, beq_iff_eq] at h
  exact ⟨h.1.1.1.1.1.1.1, h.1.1.1.1.1.1.2, ⟨h.1.1.1.1.1.2, h.1.1.1.1.2⟩, ⟨h.1.1.1.2, h.1.1.2⟩, ⟨h.1.2, h.2⟩⟩

/-- An operation has finished, as `Finished` says. -/
def ends (o : Op) (st : TokState) (cause : BitVec 8) (t : State) : Bool :=
  (t.op? o.id).isNone && (t.group? o.grp).any fun g => (g.token o.kd).st == st && (g.token o.kd).cause == (if st = .poison then cause else 0#8)

/-- A step's outcome has a property. -/
def does (i : Instr) (s : State) (p : State → Bool) : Bool := ran (exec i s) p

/-- Lane 5 of the device's group has a property. -/
def at5 (t : State) (p : Thread → Bool) : Bool := (t.group? 1).any fun g => p (g.thread 5)

/-- The group with its thread 5 changed. -/
def five (f : Thread → Thread) : Group := wg.setThread 5 (f (wg.thread 5))

/-- A pending result for v8. -/
def result8 : Pending := { dest := .v 8, val := 9#32, flags := 1#5, te := 0x10#5, pc := 4#32, wid := 1 }

/-- A trap waiting for v0 and v1. -/
def trap5 : TrapReq := { tcode := 0x40020002#32, fpc := 4#32, cpc := 4#32, npc := 8#32 }

theorem test_aroundIssue :
    does (.threadStarved 1 5) (wsv (five fun t => { t with starve := 1024 })) (at5 · fun t => t.starved) ∧
    does (.threadStarved 1 5) (wsv (five fun t => { t with starve := 1023 })) (at5 · fun t => !t.starved) ∧
    does (.groupStarvationGuard 1) { ws with die0 := { cycles := 4096 } } (fun t => (t.group? 1).any fun g => g.owed) ∧
    (wsv (five fun t => { t with trap := some trap5 })).areaRecord wg = 0 ∧
    does (.trapEntry 1 5) (wsv (five fun t => { t with trap := some trap5 })) (fun t => at5 t (fun u => u.pc == 128#32 && u.hnd && u.trap.isNone && u.vget 0 == 5#32 && u.vget 1 == 0x40020002#32) &&
      (t.group? 1).any fun g => getLe g.frames 320 4 == 5 && getLe g.frames 328 4 == 0x40020002 && getLe g.frames 332 4 == 4) ∧
    does (.longResultLand 1 5) (wsv (five fun t => { t with pend := [result8] })) (at5 · fun t => t.pend.map (·.landed) == [true] && t.vget 8 == 0#32) ∧
    does (.longResultLand 1 5) (wsv (five fun t => { t with pend := [result8], st := .parked .settle, wake := .settle })) (fun t =>
      at5 t (fun u => u.pend == [] && u.st == .runnable && u.vget 8 == 9#32) && (t.group? 1).any fun g => g.fpst == 1#32) ∧
    does (.runAheadFetch 1 16) { ws with counters := [{ core := 0, idx := 0, mode := 1, event := 0x040, on := true }], tlb := [wtlb 0x10000] } (fun t => t.counters.map (·.val) == [1] &&
      (t.group? 1).any fun g => g.ahead == [64]) ∧
    does (.runAheadFetch 1 16) { ws with counters := [{ core := 0, idx := 0, mode := 1, event := 0x041, on := true }], tlb := [{ wtlb 0x10000 with mig := true }] } (fun t =>
      t.counters.map (·.val) == [1]) ∧
    does (.runAheadFetch 1 16) { wsv (vary fun _ t => { t with pc := 192#32 }) with counters := [{ core := 0, idx := 0, mode := 1, event := 0x041, on := true }] }
      (fun t => t.counters.map (·.val) == [1]) := by decide +kernel

/-- One lane's part of an access of four bytes at lane 5's address. -/
def part5 : Part := { lane := 5, va := laneVa 5, phys := .home (laneVa 5), size := 4 }

/-- The device in which an operation of lane 5 is in flight, bound to the PEND token k3, with some queue. -/
def flown (o : Op) (q : List QEntry) : State := { wsv { pendingToken with sq := q } with ops := [o] }

/-- A store of lane 5. -/
def store5 : Op := { flying (.store false 0#3) with parts := [{ part5 with data := [1#8, 2#8, 3#8, 4#8] }] }
def queued5 : List QEntry := [{ seq := 0, kind := .store, op := 7, lane := 5 }]

/-- A line of cluster 0 that holds lane 5's word dirty. -/
def line5 : CCLine := { dirtyLine with pa := laneVa 5 / 256 * 256, data := [1#8, 2#8, 3#8, 4#8] ++ List.replicate 252 9#8, dirty := List.replicate 4 true ++ List.replicate 252 false }

/-- An atomic and a compare-and-swap of lane 5 that have left the queue. -/
def atom5 (op : BitVec 3) : Op := { flying (.atom op false false 0#2 0#3) with parts := [{ part5 with tgt := [8], sent := true, data := natLe 4 5 }] }
def cas5 (x : Nat) : Op := { flying (.cas false false 0#2 0#3) with parts := [{ part5 with tgt := [8], sent := true, data := natLe 4 x ++ natLe 4 6 }] }

theorem test_accesses :
    flies (flown store5 queued5) { pendingToken with sq := queued5 } store5 ∧ (flown store5 queued5).acquireBefore store5 5 = false ∧
    does (.storeQueueDrain 1) (flown store5 queued5) (fun t => (t.group? 1).map (·.sq) == some [] && t.mem == ws.mem && t.clusterByte 0 (laneVa 5 + 3) == 4#8 &&
      t.op? 7 == some { store5 with parts := [{ part5 with data := [1#8, 2#8, 3#8, 4#8], sent := true }] }) ∧
    does (.storeQueueDrain 1) (flown { store5 with cp := 4 } queued5) (fun t => getLe t.mem (laneVa 5) 4 == 0x04030201 && t.cc == []) ∧
    does (.memoryReply 7 5) { flown { store5 with parts := [{ part5 with sent := true }] } [] with cc := [line5] } (fun t => ends store5 .done 0 t &&
      getLe t.mem (laneVa 5) 4 == 0x04030201 && getLe t.mem (laneVa 5 + 4) 1 == 0) ∧
    does (.memoryReply 7 5) { flown { flying (.load false 0#3) with parts := [{ part5 with tgt := [8] }] } [] with cc := [line5] } (fun t => ends store5 .done 0 t &&
      at5 t fun u => u.vget 8 == 0x04030201#32) ∧
    (∀ op : Fin 7, does (.memoryReply 7 5) { flown (atom5 (BitVec.ofFin ⟨op, by omega⟩)) [] with mem := putBytes ws.mem (laneVa 5) (natLe 4 0xFFFFFFFE) } (fun t =>
      ends store5 .done 0 t && at5 t (fun u => u.vget 8 == 0xFFFFFFFE#32) &&
      getLe t.mem (laneVa 5) 4 == [3, 0xFFFFFFFE, 5, 4, 0xFFFFFFFF, 0xFFFFFFFB, 5].getD op.1 0) = true) ∧
    does (.memoryReply 7 5) (flown (atom5 7#3) []) (fun t => ends store5 .done 0 t && getLe t.mem (laneVa 5) 4 == 5) ∧
    does (.memoryReply 7 5) (flown (cas5 0) []) (fun t => ends store5 .done 0 t && getLe t.mem (laneVa 5) 4 == 6 && at5 t fun u => u.vget 8 == 0#32) ∧
    does (.memoryReply 7 5) (flown (cas5 1) []) (fun t => ends store5 .done 0 t && getLe t.mem (laneVa 5) 4 == 0) := by decide +kernel

/-- Memory with a page table whose root lies at 0x100000 and whose leaf at 0x140010 maps page 0x20000 by an entry, and 0x30000 by another. -/
def tables (e2 e3 : Nat) : Memory := putBytes (putBytes (putBytes (putBytes (putBytes ws.mem 0x100000 (natLe 8 0x120001)) 0x120000 (natLe 8 0x130001)) 0x130000 (natLe 8 0x140001))
  0x140010 (natLe 8 e2)) 0x140018 (natLe 8 e3)

/-- A leaf entry with V, LEAF, R and W of a frame, with more bits. -/
def leafOf (frame more : Nat) : Nat := frame + 0x1B + more

/-- The device with those tables. -/
def mapped (e2 e3 : Nat) : State := { ws with mem := tables e2 e3, contexts := [{ asid := 1, root := 0x100000 }], tlb := [wtlb 0x10000] }

/-- A tile of 512 bytes at lane 5's address: its word valid with a version, TSIZE as given. -/
def tileMem (w : Nat) : Memory := putBytes (tables (leafOf 0x20000 0xC0) 0) (laneVa 5) (natLe 8 w)
/-- The device with such a tile and an operation on it. -/
def tiled (o : Op) (w : Nat) : State := { flown o [] with mem := tileMem w, contexts := [{ asid := 1, root := 0x100000 }] }
def stt5 (w n : Nat) : Op := { flying (.stt 0#2 0#3) with parts := [{ part5 with sent := true, tile := w, stage := n, data := natLe 4 0 }] }
def ldt5 (w n : Nat) : Op := { flying (.ldt 0#2 0#3) with parts := [{ part5 with tile := w, stage := n }] }
/-- A tile word of one chunk of 512 bytes, with a version. -/
def tw (ver : Nat) : Nat := 2 ^ 32 + ver

theorem test_tiles :
    flies (tiled (stt5 0 0) (tw 6)) pendingToken (stt5 0 0) ∧
    does (.sttProgress 7 5) (tiled (stt5 0 0) (tw 0xFFFFFFFE)) (fun t => getLe t.mem (laneVa 5) 8 == tw 0xFFFFFFFF &&
      t.op? 7 == some (stt5 (tw 0xFFFFFFFE) 1)) ∧
    does (.sttProgress 7 5) (tiled (stt5 (tw 0xFFFFFFFE) 2) (tw 0xFFFFFFFF)) (fun t => getLe t.mem (laneVa 5) 8 == tw 0 && ends store5 .done 0 t) ∧
    does (.ldtRetry 7 5) (tiled (ldt5 (tw 6) 1) (tw 8)) (fun t => t.op? 7 == some (ldt5 (tw 6) 0)) ∧
    does (.ldtRetry 7 5) (tiled (ldt5 (tw 7) 1) (tw 7)) (fun t => t = (tiled (ldt5 (tw 7) 1) (tw 7))) ∧
    does (.ldtRetry 7 5) (tiled (ldt5 (tw 6) 3) (tw 7)) (fun t => t.op? 7 == some (ldt5 (tw 6) 0)) := by decide +kernel

/-- The translation of 0x20000 that such a walk gives. -/
def walked (a d mig : Bool) : Tlb := { wtlb 0x20000 with ex := false, a := a, d := d, mig := mig }

/-- A group whose lane 5 has been parked on a migrating page for 50 µs. -/
def late : State := { wsv (five fun t => { t with st := .parked .migration, parkedAt := 7 }) with timeNs := 50007 }

theorem test_pages :
    (mapped (leafOf 0x20000 0) 0).walk 1 0x20000 = .leaf (walked false false false) 0x140010 ∧
    does (.tlbWalkReturn 0 1 0x20000) { mapped (leafOf 0x20000 0x40) 0 with walkReqs := [(0, 1, 0x20000, 3), (0, 1, 0x20000, 1)], tlb := [] } (fun t => t.walkReqs == [] &&
      t.tlb? 0 1 0x2FFFF == some { walked true false false with unit := 0 } && (t.tlb? (slice2 0 1 0x20000) 1 0x20000).isSome) ∧
    does (.tlbWalkReturn 0 1 0x20000) { mapped (leafOf 0x20000 0x40) 0 with walkReqs := [(0, 1, 0x20000, 4)], tlb := [] } (fun t => t.walkReqs == [] && t.tlb == []) ∧
    does (.lightFaultService 1 0x20000) { mapped (leafOf 0x20000 0) 0 with lightReqs := [(1, 0x20000, true)], tlb := [wtlb 0x20000] } (fun t =>
      t.lightReqs == [] && t.tlb == [] && getLe t.mem 0x140010 8 == leafOf 0x20000 0xC0) ∧
    does (.lightFaultService 1 0x20000) { mapped (leafOf 0x20000 0) 0 with lightReqs := [(1, 0x20000, false)] } (fun t => getLe t.mem 0x140010 8 == leafOf 0x20000 0x40) ∧
    does (.migration 1 0x20000 0x50000) (mapped (leafOf 0x20000 0xC0) 0) (fun t => getLe t.mem 0x140010 8 == leafOf 0x20000 0x4C0 && t.migrating == [(0x20000, 0x50000)]) ∧
    does (.migration 1 0x20000 0x50000) { mapped (leafOf 0x20000 0x4C0) 0 with migrating := [(0x20000, 0x50000)] } (fun t => getLe t.mem 0x140010 8 == leafOf 0x50000 0xC0 &&
      t.migrating == [] && getBytes t.mem 0x50000 32 == wbar.bytes) ∧
    does (.migrationSwapOut 1) late (fun t => (t.team? 1).map (·.stop) == some (some { kind := .swapped, cycle := 0, ns := 50007, full := true }) && t.groups.all fun g => g.full) := by
  decide +kernel

/-! ## Steps of engines and arrays -/

/-- The device with page tables and an operation of its group in flight. -/
def running (o : Op) : State := { flown o [] with mem := tables (leafOf 0x20000 0xC0) (leafOf 0x30000 0x8C0), contexts := [{ asid := 1, root := 0x100000, engq := [7] }] }

/-- The copy of `copyRec`, not started, or started with some chunks landed. -/
def copying (n : Nat) (ls : List Nat) : Op := { flying (.copy 3) with started := n != 0, stage := n, landed := ls, nchunk := 2 }
def gathered (b : Bool) : Gather := { id := 3, team := 1, va := 0x21000, recd := copyRec, slices := [{ idx := 0, op := 7, dov := false, sov := false, doff := 0, soff := 0 }], started := b }

theorem test_copies :
    flies (running (copying 0 [])) pendingToken (copying 0 []) ∧ copyCheck copyRec wteam 0 0 = 0 ∧ (running (copying 0 [])).controlAway 1 = false ∧
    (running (copying 0 [])).teamSaved (copying 0 []) = false ∧ (shapeOf copyRec).slm1 = 0 ∧ (shapeOf copyRec).dkind = 1 ∧
    does (.engineCommandStart 7) { running (copying 0 []) with gathers := [gathered false] } (fun t => t.gather? 3 == some (gathered true) &&
      t.op? 7 == some { copying 0 [] with started := true } && t.contexts.all fun c => c.engq == []) ∧
    does (.chunkLand 7 1) { running (copying 1 [0]) with gathers := [gathered true], absent := [(0, 1, 7), (0, 0, 8)], mem := putBytes (running (copying 1 [0])).mem 0x22200 [9#8] }
      (fun t => (t.op? 7).map (·.landed) == some [0, 1] && memGet t.mem (spadAddr 0 512) == 9#8 && t.absent == [(0, 0, 8)]) ∧
    does (.copyFinish 7) { running (copying 1 [0, 1]) with gathers := [gathered true] } (fun t => t.gathers == [] && ends store5 .done 0 t) ∧
    does (.copyFinish 7) { running { copying 1 [0, 1] with bad := [(0, 1)] } with gathers := [gathered true] } (fun t => ends store5 .doneBad 0 t) := by decide +kernel

/-- An `MMA` of one FP16 row with zero operands, and an `ACACQ` of tile 0, at the head of the tile's order. -/
def mma5 (b : Bool) : Op := { flying (.mma 1 1 0#32 [(5, List.replicate 8 0x3F803F80#32, [], [])]) with started := b }
def acacq0 : Op := flying (.acacq 0)
def ordered (i : Nat) (m : Option (BitVec 8)) (o : Op) : State :=
  { running o with teams := [{ wteam with tiles := mapIf (fun x => x.idx == i) (fun x => { x with ord := [7], mark := m }) wteam.tiles }] }

theorem test_arrays :
    ((ordered 1 none (mma5 false)).atHead (mma5 false) 1).isSome ∧
    does (.mmaStart 7) (ordered 1 none (mma5 false)) (fun t => t.op? 7 == some (mma5 true)) ∧
    does (.mmaFinish 7) { ordered 1 none (mma5 true) with mem := putBytes (running (mma5 true)).mem (tileElem wteam 0 1 5 31) (natLe 4 0x3F800000) } (fun t => ends store5 .done 0 t &&
      getLe t.mem (tileElem wteam 0 1 5 31) 4 == 0x3F800000 && getLe t.mem (tileElem wteam 0 1 5 0) 4 == 0) ∧
    does (.acacqFinish 7) (ordered 0 none acacq0) (fun t => ends store5 .done 0 t && t.teams.any fun u => u.tiles.any fun y => y.idx == 0 && y.st == .group 0 && y.ord == []) ∧
    does (.acacqFinish 7) (ordered 0 (some 0x44#8) acacq0) (fun t => ends store5 .poison 0x44 t) := by decide +kernel

/-! ## Steps on key-value pages -/

/-- A page word: VALID, STATE, FMT, VER. -/
def pageWd (st fmt ver : Nat) : Nat := 0x4B * 2 ^ 56 + st * 2 ^ 48 + fmt * 2 ^ 44 + ver

/-- A key-value page at a frame: its word, GEOM of 32 elements a row with some rows, its time of sealing and its owner, context 1 with age class 0; its
first element is 1. -/
def kvBytes (m : Memory) (frame w rows : Nat) : Memory := putBytes (putBytes m frame (natLe 8 w ++ natLe 8 (rows * 2 ^ 32 + 32) ++ natLe 8 0)) (frame + 0x20) (natLe 8 1 ++ List.replicate 24 0#8 ++ [0x38#8])

/-- The device with key-value pages at 0x30000 and 0x40000, leased, and an operation in flight. -/
def kvDevice (o : Op) (w1 w2 : Nat) : State :=
  { running o with
    mem := putBytes (kvBytes (kvBytes (running o).mem 0x30000 w1 1) 0x40000 w2 1) 0x140020 (natLe 8 (leafOf 0x40000 0x8C0))
    launches := [{ wlaunch with ranges := [{ rd := true, wr := true, ex := true, lo := 0x10000, hi := 0x50000 }] }]
    contexts := [{ asid := 1, root := 0x100000, ages := [5#32] }], timeNs := 5001 }

/-- A `KVSEAL` and a `KVLD` of the page at 0x30000. -/
def sealing (n : Nat) : Op := { flying .kvseal with started := true, va := 0x30000, args := [BitVec.ofNat 32 n] }
def kvld (st pw : Nat) : Op := { flying .kvld with started := true, va := 0x30000, stage := st, ordn := pw, args := [0x00010000#32, 0#32, 0#32, 0#32, 1#32, 1#32] }
def kvhdr : Op := { flying .kvhdr with started := true, va := 0x30000, stage := 1 }

/-- A device whose leaf of a key-value frame says that it moves to another place. -/
def moving (place frame dst : Nat) (s : State) : State := { s with mem := putBytes s.mem place (natLe 8 (leafOf frame 0xCC0)), migrating := [(frame, dst)] }

/-- A page word of a state. -/
def pwAt (t : State) (a st fmt ver : Nat) : Bool := t.pageWord a == pageWd st fmt ver

theorem test_kvPages :
    flies (kvDevice (sealing 1920) (pageWd 0 3 6) 0) pendingToken (sealing 1920) ∧ pwValid (pageWd 0 3 6) ∧ pwValid (pageWd 2 3 7) ∧ pwValid (pageWd 1 7 8) ∧
    does (.engineCommandStart 7) (kvDevice (sealing 1920) (pageWd 0 3 6) 0) (fun t => ends store5 .done 0 t && pwAt t 0x30000 1 3 6 && getLe t.mem 0x30010 8 == 5001 &&
      kvRows t 0x30000 == 1920 && t.seals == [{ frame := 0x30000, half := 0 }]) ∧
    does (.kvConversion 0x30000 0) { kvDevice (sealing 0) (pageWd 1 3 6) 0 with seals := [{ frame := 0x30000, half := 0 }] } (fun t => pwAt t 0x30000 2 3 7 && t.seals.length == 1) ∧
    does (.kvPairing 1 0x30000 0x40000) (kvDevice (sealing 0) (pageWd 1 7 8) (pageWd 1 7 10)) (fun t => getLe t.mem 0x140020 8 == leafOf 0x40000 0xCC0 &&
      t.migrating == [(0x40000, 0x38000)] && t.freed == []) ∧
    does (.kvPairing 1 0x30000 0x40000) (moving 0x140020 0x40000 0x38000 (kvDevice (sealing 0) (pageWd 1 7 8) (pageWd 1 7 10))) (fun t => t.migrating == [] && pwAt t 0x38000 1 7 10 && getLe t.mem 0x30018 8 == 2 ^ 63 + 4 &&
      getLe t.mem 0x140020 8 == leafOf 0x30000 0x8C0 && t.freed == [0x40000] && memGet t.mem 0x38040 == 0x38#8) ∧
    does (.kvldRetry 7) (kvDevice (kvld 3 0) (pageWd 1 3 6) 0) (fun t => (t.op? 7).any fun o => o.stage == 2 && o.ordn == pageWd 1 3 6 &&
      (o.buf kvldKey).any fun b => b.1 == 0 && b.2.length == 512 && b.2.getD 0 0 == 0x38#8) ∧
    does (.kvhdrRefill 7) { kvDevice kvhdr (pageWd 1 7 8) 0 with refill := [0x60000, 0x70000] } (fun t => t.refill == [0x70000] && t.migrating == [(0x30000, 0x60000)] &&
      getLe t.mem 0x140018 8 == leafOf 0x30000 0xCC0) ∧
    does (.kvhdrRefill 7) (moving 0x140018 0x30000 0x60000 (kvDevice kvhdr (pageWd 1 7 8) 0)) (fun t => t.migrating == [] && (t.op? 7).map (·.stage) == some 2 &&
      getLe t.mem 0x140018 8 == leafOf 0x60000 0x8C0 && pwAt t 0x60000 1 7 8 && memGet t.mem 0x60040 == 0x38#8) := by decide +kernel

/-- A block of a conversion: 1.0 in E4M3 becomes the code of 4.0 with the scale 2^(−2). -/
theorem test_kvBlock : ((convertBlock (kvDevice (sealing 0) (pageWd 2 3 7) 0) 0x30000 0).1.getD 0 0, (convertBlock (kvDevice (sealing 0) (pageWd 2 3 7) 0) 0x30000 0).2) = (6#8, 0x7D) := by
  decide +kernel

/-! ## Steps of synchronisation -/

/-- The device with one update on its way to the barrier at 0x20000, whose counts are as given. -/
def updating (u : BUpdate) (pena penb : Nat) : State := { ws with updates := [u], mem := putBytes [] 0x20000 { wbar with pena := pena, penb := penb, expa := 2, brld := 7 }.bytes }

/-- A `DRAIN` issued at time 0. -/
def drain (pod : Bool) : Op := flying (.drain pod)

theorem test_barriersAndDrains :
    does (.barrierUpdate 1) (updating { pa := 0x20000, arr := 1 } 2 0) (fun t => t.updates == [] && (t.barrierAt 0x20000).pena == 1 && (t.barrierAt 0x20000).phase == 5) ∧
    does (.barrierUpdate 1) (updating { pa := 0x20000, arr := 2 } 2 0) (fun t => (t.barrierAt 0x20000).pena == 2 && (t.barrierAt 0x20000).penb == 7 && (t.barrierAt 0x20000).phase == 6) ∧
    does (.barrierUpdate 1) (updating { pa := 0x20000, arr := 2 } 2 9) (fun t => (t.barrierAt 0x20000).pena == 0 && (t.barrierAt 0x20000).penb == 9 && (t.barrierAt 0x20000).phase == 5) ∧
    does (.barrierUpdate 1) (updating { pa := 0x20000, arr := 3 } 2 9) (fun t => (t.barrierAt 0x20000).pois && (t.barrierAt 0x20000).pena == 0) ∧
    does (.quiescenceTimer 7) { running (drain false) with contexts := [{ asid := 1, root := 0x100000, busyAt := 0 }], timeNs := 2000 } (fun t => ends store5 .done 0 t) ∧
    does (.quiescenceTimer 7) { running (drain false) with contexts := [{ asid := 1, root := 0x100000, busyAt := 1 }], timeNs := 2000 } (fun t => (t.op? 7).isSome) ∧
    does (.quiescenceTimer 7) { running (drain true) with contexts := [{ asid := 1, root := 0x100000, busyAt := 0 }], timeNs := 10000 } (fun t => ends store5 .done 0 t) := by decide +kernel

/-- A group waits for phase 6 of a barrier on device 3, to which port 2 leads. -/
def farWait : State :=
  { wsv (vary fun _ t => { t with st := .parked .wait, wake := .watch 3 0x40000 6#32 }) with
    routes := [(3, BitVec.ofNat 64 (2 ^ 63 + 2 * 2 ^ 58))], ports := [{ idx := 2, up := true, width := 4, nbr := 3 }], fabricOpen := true, linkUpAt := some 0 }

theorem test_watchReread :
    (farWait.watched (vary fun _ t => { t with st := .parked .wait, wake := .watch 3 0x40000 6#32 })).head? = some (3, 0x40000) ∧ (farWait.inject 3 0 none).isSome ∧
    does (.watchReread 1) farWait (fun t => t.barRead 1 (remoteKey 3 0x40000) == some (none, 0#8) && t.rtx.map (fun r => (r.pkt.ty, r.pkt.dst, r.pkt.addr, r.pkt.len)) ==
      [(1#8, 3#16, 0x40000#64, 32#16)]) := by decide +kernel

/-! ## Steps of launches -/

/-- A launch that a `LAUNCH` command of the device's group has made. -/
def child (p : LPhase) : Launch := { uid := 9, asid := 1, va := 0x22000, op := 7, phase := p, img := wimg, prio := 7 }

/-- The device with that launch and its command in flight, and the barrier of `wbar` in a page of its table. -/
def launching (y : Launch) (n : Nat) : State :=
  { running { flying (.launch 9) with started := true, stage := n } with launches := [wlaunch, y] }

/-- An image of one role: a header, one instruction, and a role table. -/
def imageBytes : Bytes :=
  record 96 [(0, 4, 0x4C4E4C53), (4, 2, 0x0100), (6, 1, 1), (0x10, 4, 64), (0x14, 4, 4), (0x18, 4, 0xFFFFFFFF), (0x24, 4, 80), (0x30, 4, 96), (80, 4, 0), (84, 1, 2), (85, 1, 16)]

theorem test_launchReads :
    flies (launching (child .reading) 0) pendingToken { flying (.launch 9) with started := true } ∧
    does (.launchValidation 9) { launching (child .reading) 0 with mem := putBytes (running (drain false)).mem 0x22000 [0#8, 2#8] } (fun t => ends store5 .poison 0x20 t &&
      (t.launch? 9).isNone) ∧
    imageCause imageBytes 0 = 0 ∧
    does (.launchValidation 9) { launching { child .reading with recd := record 256 [(1, 1, 1), (8, 8, 0x23000)], img := { size := 96 }, pres := [{ bar := 0x20000, phase := 6#32, pass := false }] } 2
      with mem := putBytes (running (drain false)).mem 0x23000 imageBytes } (fun t => (t.launch? 9).any fun y => y.phase == .waiting && y.toPin == [barrierPage 0x20000 false] &&
        y.img == { va := 0x23000, codeOff := 64, codeLen := 4, size := 96, roles := [{ entry := 0, groups := 2, vbud := 16 }] }) := by decide +kernel

theorem test_launchGoesOn :
    does (.launchPreconditionsHeld 9) (launching { child .waiting with pres := [{ bar := 0x20000, phase := 5#32, pass := false }], doneb := 0x20000, ranges := wlaunch.ranges } 3) (fun t =>
      (t.launch? 9).any fun y => y.phase == .leasing && y.toPin == wlaunch.ranges ++ [barrierPage 0x20000 true]) ∧
    does (.leasePin 9) (launching { child .leasing with pins := [{ dev := 0, frame := 0x20000 }] } 3) (fun t => ends store5 .done 0 t && (t.launch? 9).map (·.phase) == some .ready) ∧
    does (.leasePin 9) (launching { child .leasing with toPin := [{ rd := true, wr := true, ex := false, lo := 0x20000, hi := 0x40000 }] } 3) (fun t => (t.launch? 9).any fun y =>
      y.pins == [{ dev := 0, wr := true, frame := 0x20000, span := 0x10000 }] && y.toPin == [{ rd := true, wr := true, ex := false, lo := 0x30000, hi := 0x40000 }]) := by decide +kernel

theorem test_launchRetires :
    does (.teamRetire 1) (wsv { wg with finished := true }) (fun t => (t.team? 1).map (·.phase) == some .retired && t.groups.all fun g => !g.resident && g.finished) ∧
    does (.launchRetire 1) { running (drain false) with ops := [], launches := [{ wlaunch with doneb := 0x20000, next := 1 }], teams := [{ wteam with phase := .retired }] } (fun t =>
      (t.launch? 1).map (·.phase) == some .retired && t.updates.map (fun u => (u.pa, u.arr, u.cause, u.asid)) == [(0x20000, 1, none, 1)]) ∧
    does (.launchRetire 1) { ws with launches := [{ wlaunch with phase := .retired }] } (fun t => t.launches == [] && t.groups == [] && t.teams == []) ∧
    does (.teardownRelease 1) { ws with contexts := [{ asid := 1, root := 0, tearing := true }], launches := [{ wlaunch with phase := .retired }], timeNs := 10000 } (fun t => t.contexts == [] && t.tlb == [] && t.launches == []) := by
  decide +kernel

/-! ## Steps of placement and of saves -/

/-- A launch of one team that is not yet placed. -/
def ready7 : Launch := { wlaunch with uid := 9, prio := 7, next := 0, img := { wimg with roles := [{ entry := 0, groups := 2, vbud := 4 }] } }

/-- An empty device with one context, its save pool and that launch; the first distributor as given. -/
def placing (y : Launch) (d : Distributor) : State :=
  { State.reset with contexts := [{ asid := 1, root := 0x100000, pool := [(0x1000000, 0x100000)] }], launches := [y], dists := [d, {}], nextId := 20, timeNs := 1000000000 }

/-- A team of the launch stands on a core. -/
def stands (t : State) (core : Nat) : Bool := t.teams.any fun tm => tm.uid == 20 && tm.launch == 9 && tm.core == core && tm.index == 0 && tm.phase == .resident

theorem test_placement :
    (placing ready7 { wanted := 1 }).eligible ready7 ∧ ((placing ready7 { wanted := 1 }).findCore 0 ready7).map (·.core) = some 0 ∧
    does (.placementDecision 0) (placing ready7 { wanted := 1 }) (fun t => stands t 0 && (t.launch? 9).map (·.next) == some 1 && (t.dist 0).wanted == 0 && t.groups.length == 2 &&
      t.groups.all fun g => g.sget 6 == BitVec.ofNat 32 g.idx && (g.thread 3).vget 0 == 3#32) ∧
    does (.reservation 1) (placing ready7 { asked := some (9, 96, none) }) (fun t => (t.dist 0).asked == some (9, 96, some true) &&
      (t.dist 0).granted.any fun k => k.core == 96 && k.launch == 9 && k.team == 0) ∧
    does (.reservation 1) { placing ready7 { asked := some (9, 96, none) } with contexts := [{ asid := 1, root := 0x100000 }] } (fun t =>
      (t.dist 0).asked == some (9, 96, some false) && (t.dist 0).granted.isNone) ∧
    does (.reservationAnswer 0) (placing ready7 { asked := some (9, 96, some true), granted := (placing ready7 {}).claimOn ready7 96 [], todo := some (7, [], [], false) }) (fun t =>
      stands t 96 && (t.dist 0).todo.isNone && (t.dist 0).granted.isNone) ∧
    does (.unplaceableLog 9) { placing { ready7 with starvedAt := some 0, ltag := 77#64 } {} with contexts := [{ asid := 1, root := 0x100000 }] } (fun t => t.box 0x2010 4 == 1 && t.box 0x50008 2 == 3 && t.box 0x50010 8 == 77) ∧
    does (.create 1 0) { placing { ready7 with isCtrl := true } {} with contexts := [{ asid := 1, root := 0x100000, clu := 2, creating := some (natLe 8 1), pool := [(0x1000000, 0x100000)] }] }
      (fun t => t.teams.any (fun tm => tm.uid == 20 && tm.core == 8 && tm.phase == .resident) && (t.ctx? 1).map (·.creating) == some none) := by decide +kernel

/-- The device of one resident team of priority 0 that fills its core's scratchpad, and 191 such cores. -/
def victim (i : Nat) : Team := { wteam with uid := 100 + i, launch := 1, core := i, spLines := 2048 }

theorem test_preemption :
    does (.preemption 9) { placing { ready7 with starvedAt := some 0, img := { wimg with spad := 512 } } {} with launches := [wlaunch, { ready7 with starvedAt := some 0 }], teams := (List.range 192).map victim }
      (fun t => (t.dist 0).preempt == some (9, 0, [100]) && t.teams.all fun x => x.stop.isSome == (x.uid == 100)) := by decide +kernel

/-- A stop order of time 0. -/
def order0 : StopOrder := { kind := .preempted, cycle := 0, ns := 0 }

/-- A team under that order whose group's threads have all stopped. -/
def stopping : State := { wsv (vary fun _ t => { t with stopped := some 0xFFFFFFFF }) with teams := [{ wteam with stop := some order0, save := 0x1000000 }], timeNs := 10000000 }

/-- A store of a saved group's lane 5 that has left its queue. -/
def saved5 : Op := { flying (.store false 0#3) with parts := [{ part5 with sent := true }] }

theorem test_saves :
    does (.forcedFullSave 1) { ws with teams := [{ wteam with stop := some order0 }], die0 := { cycles := 65536 } } (fun t => t.groups.all fun g => g.full) ∧
    does (.saveWatchdog 1) stopping (fun t => (t.launch? 1).map (·.ended) == some (some 0x20)) ∧
    does (.savedCompletion 7 5) { flown saved5 [] with groups := [{ pendingToken with resident := false }], teams := [{ wteam with phase := .saved .preempted, save := 0x1000000 }] } (fun t =>
      ends store5 .done 0 t && getLe t.mem (0x1000000 + 0x100 + 0x1380 + 16 * 3) 4 == 2) := by decide +kernel

/-! ## Steps of the fabric -/

/-- A routing entry with its minimal path through a port. -/
def route (port : Nat) : DWord := BitVec.ofNat 64 (2 ^ 63 + port * 2 ^ 58)

/-- The device with a path to device 3 through port 2, and a grant of the data page to context 4 of that device. -/
def joined (s : State) : State :=
  { s with routes := [(3, route 2), (5, route 6)], ports := [{ idx := 2, up := true, width := 4, nbr := 3 }], fabricOpen := true, linkUpAt := some 0
           grants := [{ gid := 8, dev := 3, sasid := 4, rd := true, wr := true, ex := false, frame := 0x20000, span := 65536 }] }

/-- A hello of device 3. -/
def hello : Packet := { ty := 12#8, vc := 5#8, src := 3#16, dst := 0#16, aux := 1#16, len := 40#16, data := natLe 2 3 ++ [7#8, 0#8, 0#8, 1#8, 0#8, 0#8] ++ natLe 4 99 ++ List.replicate 28 0#8 }

/-- A request of the device's operation 7, in the retransmit buffer. -/
def req5 (sends : Nat) : Req := { pkt := { ty := 2#8, src := 0#16, dst := 3#16, txid := 17#32, len := 4#16 }, sends := sends, owner := .part 7 5, asid := 1, grp := 1 }

theorem test_links : packetOk hello ∧ fieldLe hello.data 5 1 = 1 ∧
    does (.karicHello 2 4 hello) { State.reset with devid := 1, ports := [{ idx := 2 }] } (fun t => t.outPkts.map (·.1) == [2] && (t.port? 2).up && (t.port? 2).width == 4 && (t.port? 2).nbr == 3 &&
      (t.port? 2).epoch == 99#32 && t.linkUpAt.isSome) ∧
    does (.portDegraded 2) (joined ws) (fun t => !(t.port? 2).up && (t.port? 2).out && (t.routeEntry 3 / 2 ^ 63 == 0) && t.routeEntry 5 == (route 6).toNat) ∧
    does (.linkFail 2) (joined ws) (fun t => (t.port? 2).out && (t.routeEntry 3 / 2 ^ 63 == 0)) ∧
    does (.portRestored 2) { joined ws with routes := [(3, BitVec.ofNat 64 (2 * 2 ^ 58))], ports := [{ idx := 2, out := true, cleared := [3] }] } (fun t => (t.port? 2).up &&
      t.routeEntry 3 == (route 2).toNat) ∧
    does .fabricStartDelay { joined ws with fabricOpen := false, rtx := [req5 0], timeNs := 100000 } (fun t => t.fabricOpen && t.rtx.map (fun r => (r.sends, r.sentAt)) == [(1, 100000)]) ∧
    does (.retransmitTimeout 17) { joined (flown store5 []) with rtx := [req5 3], timeNs := 10 ^ 9 } (fun t => t.rtx.map (fun r => (r.sends, r.sentAt)) == [(4, 10 ^ 9)]) ∧
    does (.retransmitTimeout 17) { joined (flown { store5 with parts := [{ part5 with phys := .remote 3 0, sent := true }] } []) with rtx := [req5 4], timeNs := 10 ^ 9 } (fun t =>
      ends store5 .poison 0x67 t) ∧
    does (.pinTimeout 8) { joined (launching { child .leasing with pins := [{ dev := 3, frame := 0, gid := 8, answered := false }] } 3) with timeNs := 10001 } (fun t =>
      ends store5 .poison 0x2E t && (t.launch? 9).isNone) := by decide +kernel

/-- A packet from device 3, context 4, that has arrived at port 2 for the device. -/
def came (p : Packet) : State := { joined ws with arrived := some (2, p) }
def from3 (ty vc : Nat) (addr : Nat) (data : Bytes) : Packet :=
  { ty := BitVec.ofNat 8 ty, vc := BitVec.ofNat 8 vc, src := 3#16, dst := 0#16, sasid := 4#16, txid := 33#32, addr := BitVec.ofNat 64 addr, len := BitVec.ofNat 16 data.length, data := data }

/-- An answer of a type and AUX has gone to device 3. -/
def answers (ty aux : Nat) (data : Bytes) (t : State) : Bool := t.outPkts.any fun x => x.1 == 2 && x.2.ty.toNat == ty && x.2.dst == 3#16 && x.2.txid == 33#32 && x.2.aux.toNat == aux && x.2.data == data

/-- A FLAG that stores one byte, with sequence number 6 of epoch 50. -/
def flag6 : Packet := { from3 11 4 0x20040 (natLe 4 50 ++ natLe 4 0 ++ [1#8, 1#8] ++ List.replicate 22 0#8 ++ [9#8]) with sqf := 6#32 }

theorem test_packets :
    packetOk (from3 1 0 0x20000 []) ∧ packetOk flag6 ∧
    does .karicForward { joined ws with devid := 1, arrived := some (6, { from3 2 0 0 [1#8] with src := 5#16, dst := 3#16 }) } (fun t => t.outPkts.map (fun x => (x.1, x.2.rf)) == [(2, 1#8)]) ∧
    does .karicRdreq (came { from3 1 0 0x20000 [] with len := 8#16 }) (answers 4 0 (wbar.bytes.take 8)) ∧
    does .karicRdreq (came { from3 1 0 0x20000 [] with len := 8#16, cf := 1#8 }) (answers 9 0 (wbar.bytes.take 8)) ∧
    does .karicWr (came (from3 2 0 0x20040 [7#8, 8#8])) (fun t => answers 5 0 [] t && getLe t.mem 0x20040 2 == 0x0807) ∧
    does .karicAtom (came { from3 3 0 0x20000 (natLe 4 2) with aux := 0#16 }) (fun t => answers 6 0 (natLe 4 (getLe ws.mem 0x20000 4)) t &&
      getLe t.mem 0x20000 4 == getLe ws.mem 0x20000 4 + 2) ∧
    does .karicChunk (came { from3 9 2 0x20040 [7#8, 8#8] with cf := 1#8, fmt := 9#4, chkS := 0x807#64, chkA := 0x807#64 }) (fun t => answers 7 0 [] t && getLe t.mem 0x20040 2 == 0x0807) ∧
    does .karicChunk (came { from3 9 2 0x20040 [7#8, 8#8] with cf := 1#8, fmt := 9#4, chkS := 0x808#64, chkA := 0x807#64 }) (fun t => answers 7 1 [] t && getLe t.mem 0x20040 2 == 0) ∧
    does .karicFlag { came flag6 with flagsIn := [{ dev := 3, epoch := 50#32, floor := 5 }] } (fun t => answers 5 0 [] t && getLe t.mem 0x20040 1 == 9 && t.flagsIn.map (·.floor) == [6]) := by
  decide +kernel

/-- An `RTE` of this device and device 3 with one expert, waiting for counts. -/
def rte0 : Op := { flying .rte with asid := 4, started := true, stage := 1, recd := dispRec, cid := 78, ordn := 1, args := [1#32], peers := [3], members := [0, 3] }

/-- The device to which an answer of device 3 to request 33 has come. -/
def answered5 (o : Op) (r : Req) (p : Packet) : State := { joined (flown o []) with arrived := some (2, p), rtx := [{ r with pkt := { r.pkt with txid := 33#32 } }] }
def far5 (kind : OpKind) (tgt : List Nat) : Op := { flying kind with parts := [{ part5 with phys := .remote 3 0, sent := true, tgt := tgt }] }

theorem test_answers :
    does .karicDisp { came { from3 10 3 78 (natLe 4 5) with sqf := 1#32 } with ops := [rte0] } (fun t => answers 7 0 [] t && (t.op? 7).map (·.got) == some [(3, 0, [5])]) ∧
    does .karicChack (answered5 store5 { req5 1 with owner := .chunk 99 0 } (from3 7 1 0 [])) (fun t => t.rtx == []) ∧
    does .karicWrack (answered5 (far5 (.store false 0#3) []) (req5 1) (from3 5 1 0 [])) (ends store5 .done 0) ∧
    does .karicNack (answered5 (far5 (.store false 0#3) []) (req5 1) { from3 8 1 0 [] with aux := 8#16 }) (ends store5 .poison 8) ∧
    does .karicRdrsp (answered5 (far5 (.load false 0#3) [8]) (req5 1) (from3 4 1 0 (natLe 4 77))) (fun t => ends store5 .done 0 t && at5 t fun u => u.vget 8 == 77#32) ∧
    does .karicAtrsp (answered5 (far5 (.atom 0#3 false false 0#2 0#3) [8]) (req5 1) (from3 6 1 0 (natLe 4 77))) (fun t => ends store5 .done 0 t && at5 t fun u => u.vget 8 == 77#32) := by
  decide +kernel

/-- A management packet of a subtype. -/
def mgmt (sub : Nat) (data : Bytes) : Packet := { from3 12 5 0 data with aux := BitVec.ofNat 16 sub }

/-- A management packet has gone to device 3. -/
def told (sub : Nat) (data : Bytes) (t : State) : Bool := t.outPkts.any fun x => x.2.ty == 12#8 && x.2.dst == 3#16 && x.2.aux.toNat == sub && x.2.data == data

/-- A `COLL` of context 4 in flight. -/
def coll4 : Op := { flying .coll with asid := 4, started := true, recd := collRec, cid := 77, ordn := 2 }

theorem test_management :
    packetOk (mgmt 7 (natLe 4 77 ++ natLe 4 2 ++ [0#8, 0x44#8] ++ List.replicate 6 0#8)) ∧
    does .mgmtPin (came (mgmt 2 (natLe 4 6 ++ natLe 2 9 ++ [3#8, 0#8] ++ natLe 8 0x50000 ++ natLe 8 0x20000))) (fun t => told 3 (natLe 4 6 ++ natLe 4 0) t &&
      t.grants.drop 1 == [{ gid := 6, dev := 3, sasid := 9, rd := true, wr := true, ex := false, frame := 0x50000, span := 0x20000 }]) ∧
    does .mgmtPinans { came (mgmt 3 (natLe 4 8 ++ natLe 4 0)) with launches := [{ child .leasing with pins := [{ dev := 3, frame := 0, gid := 8, answered := false }] }] } (fun t =>
      t.launches.all fun y => y.pins.map (·.answered) == [true]) ∧
    does .mgmtUnpin (came (mgmt 4 (natLe 4 8 ++ natLe 4 0))) (fun t => t.grants == []) ∧
    does .mgmtCdesc (came (mgmt 5 (natLe 4 77 ++ natLe 4 1 ++ List.replicate 56 0#8))) (fun t => t.descs.length == 1) ∧
    does .mgmtDdesc (came (mgmt 6 (natLe 4 78 ++ natLe 4 1 ++ List.replicate 56 0#8))) (fun t => t.descs.length == 1) ∧
    does .mgmtCancel { came (mgmt 7 (natLe 4 77 ++ natLe 4 2 ++ [0#8, 0x44#8] ++ List.replicate 6 0#8)) with ops := [coll4], groups := [pendingToken] } (ends coll4 .poison 0x44) ∧
    does .mgmtGather (came (mgmt 8 (natLe 4 78 ++ natLe 4 1 ++ List.replicate 16 0#8))) (fun t => t.held.length == 1) ∧
    does .mgmtWatch (came (mgmt 9 (natLe 8 0x20000 ++ natLe 4 5 ++ natLe 4 0))) (fun t => told 10 (natLe 8 0x20000 ++ natLe 4 5 ++ natLe 4 0) t && t.watches == []) ∧
    does .mgmtWatch (came (mgmt 9 (natLe 8 0x20000 ++ natLe 4 6 ++ natLe 4 0))) (fun t => t.watches == [(3, 0x20000, 6#32, 0x20000)]) ∧
    does .mgmtAdvanced (came (mgmt 10 (natLe 8 0x20000 ++ natLe 4 6 ++ natLe 4 0))) (fun t => t.advanced == [(3, 0x20000, 6#32)]) := by decide +kernel

/-! ## Pod commands in steps -/

/-- A summing reduction of one rank, ORD arrival: FP32 chunks of 512 bytes from 0x22000 to 0x23000. -/
def sumRec : Bytes := overlay collRec 0x87 [1#8]
/-- 128 FP32 numbers, the first 1 and the others 0. -/
def ones : Bytes := natLe 4 0x3F800000 ++ List.replicate 508 0#8
def sum7 : Op := { flying .coll with started := true, stage := 2, recd := sumRec, cid := 77, ordn := 1, nchunk := 1, members := [0], got := [(0, 0, [])], bufs := [(podKey 5 0, 0, ones)] }

/-- A dispatch and a combine of one item, one expert at 0x23000 on this device and one choice, with rows of 512 bytes. -/
def expert0 : Bytes := natLe 2 0 ++ natLe 2 0 ++ natLe 4 4 ++ natLe 8 0x23000
def rteRec : Bytes := (overlay (overlay dispRec 0x98 (natLe 8 0x22800)) 0x10 (natLe 8 0x22000))
def rte7 (stage : Nat) (bs : List (Nat × Nat × Bytes)) : Op :=
  { flying .rte with started := true, stage := stage, recd := rteRec, cid := 78, ordn := 1, args := [1#32], members := [0], bufs := (podKey 12 0, 0, expert0) :: bs }
def rtcRec : Bytes := overlay dispRec 0x10 (natLe 8 0x23000)
def rtc7 (ls : List Nat) : Op :=
  { flying .rtc with
    started := true, stage := 3, recd := rtcRec, cid := 78, ordn := 1, args := [1#32], members := [0, 3], landed := ls, nchunk := 1, got := [(0, 1, [])]
    bufs := [(podKey 12 0, 0, expert0), (podKey 12 1, 0, natLe 8 0), (podKey 12 2, 0, natLe 4 0x40000000), (gatherKey 0 0, 0, ones)] }

/-- A gather request of device 3 for slot 1 of expert 0. -/
def gather3 : Packet := { mgmt 8 (natLe 4 78 ++ natLe 4 1 ++ natLe 2 0 ++ natLe 2 0 ++ natLe 4 1 ++ natLe 4 9 ++ natLe 4 0) with sasid := 1#16 }

/-- The device to which that request has come, with the slot's row in memory and the grant to read it. -/
def serving : State :=
  { joined (running (rtc7 [])) with
    held := [gather3], grants := [{ gid := 8, dev := 3, sasid := 1, rd := true, wr := false, ex := false, frame := 0x20000, span := 65536 }]
    mem := putBytes (running (rtc7 [])).mem 0x23200 [5#8] }

theorem test_pods :
    flies (running sum7) pendingToken sum7 ∧ collOp sumRec = 1 ∧ collN sumRec = 1 ∧ slotHome sumRec 0 = sum7.ownIdx 0 ∧
    does (.reductionStep 7 0) (running sum7) (fun t => getLe t.mem 0x23000 4 == 0x3F800000 && (t.op? 7).any fun o => o.got.contains (slotMark, 0, []) && o.landed == [0]) ∧
    does (.collectiveFinish 7) (running { sum7 with landed := [0], got := [(readMark, 0, []), (slotMark, 0, [])] }) (ends sum7 .done 0) ∧
    does (.combineStep 7 0) (running (rtc7 [])) (fun t => getLe t.mem 0x23000 4 == 0x40000000 && (t.op? 7).map (·.landed) == some [0]) ∧
    does (.dispatchFinish 7) (running (rtc7 [0])) (fun t => ends sum7 .done 0 t && t.served.map (·.id) == [7]) ∧
    does (.gatherServe 7 0) serving (fun t => t.held == [] && t.rtx.map (fun r => (r.pkt.ty, r.pkt.dst,
      r.pkt.data.take 2)) == [(9#8, 3#16, [5#8, 0#8])]) ∧
    does (.dispatchPlacement 7) (running (rte7 2 [])) (fun t => (t.op? 7).any fun o => o.stage == 3 && o.choices == [0]) ∧
    does (.dispatchPlacement 7) (running (rte7 3 [(podKey 12 1, 0, natLe 2 0)])) (fun t => (t.op? 7).any fun o => o.stage == 4 && o.kept 2 == natLe 8 0) ∧
    does (.dispatchFinish 7) (running (rte7 8 [(podKey 12 1, 0, natLe 2 0)])) (ends sum7 .done 0) := by decide +kernel

/-! ## Steps of the host -/

/-- The device with a context whose host-access table lies at 0x60000 with two slots: the first names the barrier of `wbar`, the second is not valid. -/
def hosted (pena penb : Nat) : State :=
  { ws with contexts := [{ asid := 1, root := 0x100000, hat := 0x60000, hacnt := 2, vec := 12 }], msixOpen := [12]
            mem := putBytes (putBytes [] 0x20000 { wbar with expa := 3, pena := pena, penb := penb, flags := 0x1B0000 }.bytes) 0x60000 (natLe 8 0x20001) }

/-- The reason for which a doorbell is logged as dropped. -/
def reason (n : Nat) (t : State) : Bool := t.box 0x2010 4 == 1 && t.box 0x50008 2 == 1 && t.box 0x50011 1 == n

/-- A read of the aperture for lane 5's load. -/
def aread : HostRead := { rid := 40, op := 7, lane := 5, win := 3, pa := 0, len := 4, at0 := 0 }
def hostLoad : State := { flown { flying (.load false 0#3) with parts := [{ part5 with phys := .host 0, sent := true, tgt := [8] }] } [] with hostReads := [aread], timeNs := 10000000 }

theorem test_doorbells :
    does (.doorbell 1 0 [0#8, 0#8, 1#8, 0#8]) (hosted 1 0) (reason 3) ∧ does (.doorbell 5 0 (natLe 8 0)) (hosted 1 0) (reason 4) ∧
    does (.doorbell 1 0 (natLe 8 0x200)) (hosted 1 0) (reason 2) ∧ does (.doorbell 1 0 (natLe 8 2)) (hosted 1 0) (reason 1) ∧
    does (.doorbell 1 0 (natLe 8 (0x700010001))) (hosted 1 0) (fun t => t.doorbells == [⟨1, 1, 1, -7⟩]) ∧
    does (.doorbellApply 0) { hosted 2 9 with doorbells := [⟨1, 0, 1, -7⟩] } (fun t => t.doorbells == [] && (t.barrierAt 0x20000).pena == 1 && (t.barrierAt 0x20000).penb == 2) ∧
    does (.doorbellApply 0) { hosted 1 7 with doorbells := [⟨1, 0, 1, -7⟩] } (fun t => (t.barrierAt 0x20000).phase == 6 && t.hostOut == [.msix 12]) ∧
    does (.doorbellApply 0) { hosted 1 7 with doorbells := [⟨1, 1, 1, 0⟩] } (fun t => reason 5 t && t.doorbells == []) := by decide +kernel

theorem test_host :
    does (.bar2Write 0x70010 [1#8, 2#8]) { ws with boot := .running } (fun t => getLe t.mem 0x70010 2 == 0x0201 && t.l2.any fun x => x.pa == 0x70000 && x.tag == 0x200) ∧
    does (.bar2Read 0x20000 4) { ws with boot := .running } (fun t => t.hostOut == [.bar2 0x20000 (wbar.bytes.take 4)]) ∧
    does (.bar2Read 0x3FFFFFFE 2) { ws with boot := .running, mbox := putBytes [] 0x1008 (natLe 8 0xC012345678) } (fun t => t.hostOut == [.bar2 0x3FFFFFFE [0xFF#8, 0xFF#8]]) ∧
    does (.bar2Write 4 [3#8]) { ws with boot := .running, mbox := putBytes [] 0x1008 (natLe 8 0x4012345678) } (fun t => memGet t.mem 0x4000000004 == 3#8) ∧
    does (.msixUnmask 12) { ws with msixPend := [12] } (fun t => t.hostOut == [.msix 12] && t.msixPend == [] && t.msixOpen == [12]) ∧
    does (.hostReadCompletion 40 0 (natLe 4 99)) hostLoad (fun t => ends store5 .done 0 t && at5 t fun u => u.vget 8 == 99#32) ∧
    does (.hostReadCompletion 40 2 []) hostLoad (fun t => ends store5 .poison 0x34 t && t.box 0x50008 2 == 10 && t.box 0x50010 1 == 3) ∧
    does (.hostReadTimeout 40) hostLoad (fun t => ends store5 .poison 0x34 t && t.box 0x50008 2 == 10 && t.box 0x50010 1 == 3) ∧
    ([0x1000, 0x100F, 0x200C, 0x10000, 0x2FFFF, 0x800000, 0x807FFB].all fun a => does (.registerWrite a [7#8]) ws fun t => t = { ws with mbox := [(a, 7#8)] }) ∧
    does (.registerWrite 0x02000005 [7#8]) ws (fun t => memGet t.recWin 5 == 7#8) ∧ does (.registerWrite 0x2004 [7#8]) ws (fun t => t = ws) ∧
    does (.registerWrite 0x8000CC [1#8]) { ws with msixOpen := [12, 13] } (fun t => t.msixOpen == [13]) := by decide +kernel

/-- A read of BAR0: a doorbell page and a reserved offset read zero, a vector's mask as it stands. -/
theorem test_readBar0 : (State.readBar0 { ws with msixOpen := [1] } 0x80000C 17).hostOut = [.bar0 0x80000C ([1#8] ++ List.replicate 16 0#8)] ∧
    (ws.readBar0 0x01001000 8).hostOut = [.bar0 0x01001000 (List.replicate 8 0#8)] ∧ (ws.readBar0 0 0).hostOut = [] := by decide +kernel

/-! ## Errors, power and reset -/

/-- The device with a dirty line at 0x20000 of an owner, and a counter of an event. -/
def dirtied (tag : Nat) : State := { ws with l2 := [{ pa := 0x20000, tag := tag }] }
def counted (core event : Nat) : State := { ws with counters := [{ core := core, idx := 0, mode := 1, event := event, on := true }] }
def hot (temp pwr : Nat) (hold : Bool) : State := { ws with die1 := { temp := temp, hold := hold, clk := 20 }, pwr := pwr, timeNs := 100000 }

theorem test_errors :
    does (.l2UncorrectableError 0x20000) (dirtied 1) (fun t => t.lost == [0x20000] && t.launches.map (·.ended) == [some 0x30] && getLe t.mbox 0x30000 2 == 0x81 &&
      getLe t.mbox 0x30008 2 == 1 && getLe t.mbox 0x30010 2 == 0x30) ∧
    does (.l2UncorrectableError 0x20000) (dirtied 0x200) (fun t => t.lost == [0x20000] && t.l2 == [] && getLe t.mbox 0x30000 2 == 0x82 && getLe t.mbox 0x30018 2 == 1) ∧
    does (.cleanLineError 0x20000) (counted 0xFFFF 0x108) (fun t => t.counters.map (·.val) == [1]) ∧
    does (.hbmUncorrectableError 0x20000) ws (fun t => t.lost == [0x20000] && memGet t.mem 0x20000 == 0#8 && getLe t.mbox 0x30000 2 == 0x82 && getLe t.mbox 0x30018 2 == 2) ∧
    does (.correctedSoftError 7) (counted 7 0x50) (fun t => t.counters.map (·.val) == [1]) ∧
    does (.correctedSoftError 193) (counted 0xFFFF 0x102) (fun t => t.counters.map (·.val) == [1]) := by decide +kernel

theorem test_power :
    does (.clockStepDown 1) (hot 95 0 false) (fun t => t.die1.clk == 19 && t.die1.limited) ∧ does (.clockStepUp 1) (hot 92 3000 false) (fun t => t.die1.clk == 21) ∧
    does (.thermalLimit 1) (hot 105 0 false) (fun t => t.die1.clk == 10 && t.die1.hold) ∧ does (.thermalLimitClear 1) (hot 104 0 true) (fun t => !t.die1.hold) ∧
    does .thermalShutdown { hot 115 0 false with epoch := 4#32, floor := 3, flash := [1#8] } (fun t => t.contexts == [] && t.mem == [] && t.flash == [1#8] && t.floor == 3 && t.epoch == 4#32) := by decide +kernel

/-- What a reset keeps, and what it clears, whatever the image in flash is. -/
theorem test_reset : ∃ t, exec .deviceReset { ws with epoch := 4#32, floor := 3, flash := [1#8] } = .next t ∧ t.groups = [] ∧ t.mem = [] ∧ t.flash = [1#8] ∧ t.floor = 3 ∧ t.epoch = 5#32 := by
  obtain ⟨h1, h2, -, -, h5, h6, h7⟩ := State.tryImage_keeps { State.reset with flash := [1#8], floor := 3, epoch := 5#32 } [1#8] false
  exact ⟨_, rfl, h2, h5, h1, h6, h7⟩

/-- The same of an image in the recovery window. -/
theorem test_recovery : ∃ t, exec .recoveryGo { ws with boot := .recovery, flash := [1#8] } = .next t ∧ t.flash = [1#8] ∧ t.epoch = ws.epoch := by
  obtain ⟨h1, -, -, -, -, -, h7⟩ := State.tryImage_keeps { ws with boot := .recovery, flash := [1#8] } (getBytes ws.recWin 0 (2 ^ 25)) true
  exact ⟨_, rfl, h1, h7⟩

/-! ## The mailbox -/

/-- A request of a code for an ASID, with fields of its payload. -/
def ask (code asid : Nat) (fs : List (Nat × Nat × Nat)) : Bytes := record 128 ([(0, 2, code), (4, 4, 0xABCD), (8, 2, asid)] ++ fs.map fun f => (f.1 + 16, f.2))

/-- The device with a request alone in the ring. -/
def asked (s : State) (q : Bytes) : State := { s with boot := .running, mbox := putBytes (putBytes (putBytes [] 0x1000 (natLe 2 0x0100)) 0x2000 [1#8]) 0x10000 q }

/-- The reply of a status with a payload has been written, and the request consumed. -/
def replied (code asid st : Nat) (payload : Bytes) (t : State) : Bool :=
  t.box 0x2004 4 == 1 && t.box 0x2008 4 == 1 && getLe t.mbox 0x30000 2 == code && getLe t.mbox 0x30002 2 == st && getLe t.mbox 0x30004 4 == 0xABCD && getLe t.mbox 0x30008 2 == asid &&
  getBytes t.mbox 0x30010 payload.length == payload

/-- A request of a known code waits at the head of the ring. -/
def waiting5 : State := asked ws (ask 5 1 [])

/-- The host's writes of BAR0 meanwhile. -/
theorem test_bar0 : waiting5.replies = [] ∧ 1 ≤ fieldLe waiting5.headRequest 0 2 ∧ fieldLe waiting5.headRequest 0 2 ≤ 0x12 ∧
    ([0x02000000, 0x03FFFFFF].all fun a => does (.registerWrite a [7#8]) waiting5 fun t => t = { waiting5 with recWin := [(a - 0x02000000, 7#8)] }) ∧
    does (.registerWrite 0x2000 (natLe 4 9)) waiting5 (fun t => t = { waiting5 with mbox := putBytes waiting5.mbox 0x2000 (natLe 4 9) }) ∧
    ([0, 0x1004, 0x1010, 0x2004, 0x200B, 0x2010, 0xFFFF, 0x30000, 0x7FFFFF, 0x80000D, 0x808000, 0x1FFFFFF, 0x4000000].all fun a =>
      does (.registerWrite a [7#8]) waiting5 fun t => t = waiting5) ∧
    does (.registerWrite 0x8000CC [1#8]) { waiting5 with msixOpen := [12, 13] } (fun t => t = { waiting5 with msixOpen := [13] }) := by decide +kernel

/-- Every premise that the requests share. -/
theorem test_mailbox : let s := asked ws (ask 5 1 [])
    s.requestHeld ∧ s.versionOk ∧ s.box 0x2000 4 = (s.box 0x2004 4 + 1) % 2 ^ 32 ∧ s.mbox.wf ∧ fieldLe s.headRequest 0 2 = 5 ∧ fieldLe s.headRequest 8 2 = 1 := by decide +kernel

/-- A saved control team on an empty device. -/
def savedControl : State :=
  { ws with groups := [{ wg with resident := false }], launches := [{ wlaunch with isCtrl := true, saves := [(0x1000000, 0x100000)] }], teams := [{ wteam with phase := .saved .descheduled, save := 0x1000000 }]
            contexts := [{ asid := 1, root := 0x100000, descheduled := true, clu := 2 }] }

theorem test_contextRequests :
    does .teardown (asked ws (ask 2 1 [])) (fun t => t.contexts.all (fun c => c.tearing && c.answer.length == 1) && t.launches.map (·.ended) == [some 0x40]) ∧
    does .deschedule (asked ws (ask 3 1 [])) (fun t => t.contexts.all (fun c => c.descheduled && c.stopAns.length == 1) && t.teams.all fun x => x.stop.isSome) ∧
    does .deschedule (asked { ws with teams := [] } (ask 3 1 [])) (replied 3 1 0 []) ∧
    does .reschedule (asked { ws with contexts := [{ asid := 1, root := 0, descheduled := true }] } (ask 4 1 [])) (fun t => replied 4 1 0 [] t && t.contexts.all fun c => !c.descheduled) ∧
    does .reschedule (asked savedControl (ask 4 1 [])) (fun t => (t.team? 1).any fun x => x.phase == .resident && x.core == 8) := by decide +kernel

/-- The device whose entry at 0x140010 maps the page 0x20000, and is not a leaf in migration. -/
def paged (l : Launch) : State := { mapped (leafOf 0x20000 0xC0) 0 with launches := [l], tlb := [wtlb 0x10000, wtlb 0x20000] }
def pte (old new : Nat) : Bytes := ask 5 1 [(0, 8, 0x140010), (8, 8, old), (16, 8, new), (24, 8, 0x20000)]

theorem test_pte :
    does .pte (asked (paged { wlaunch with ranges := [] }) (pte (leafOf 0x20000 0xC0) (leafOf 0x30000 0xC0))) (fun t => replied 5 1 0 (natLe 8 (leafOf 0x20000 0xC0)) t &&
      getLe t.mem 0x140010 8 == leafOf 0x30000 0xC0 && t.tlb.map (·.va) == [0x10000]) ∧
    does .pte (asked (paged { wlaunch with ranges := [] }) (pte 5 (leafOf 0x30000 0xC0))) (replied 5 1 6 (natLe 8 (leafOf 0x20000 0xC0))) ∧
    does .pte (asked (paged wlaunch) (pte (leafOf 0x20000 0xC0) 0)) (replied 5 1 1 (natLe 8 (leafOf 0x20000 0xC0))) := by decide +kernel

theorem test_deviceRequests :
    does .residency (asked { ws with launches := [{ wlaunch with resid := some (5, 0x20000) }] } (ask 6 1 [(0, 4, 5)])) (fun t => replied 6 1 0 [] t && t.launches.map (·.resid) == [none]) ∧
    does .residency (asked { launching { child .leasing with resid := some (5, 0x20000) } 3 with cc := [] } (ask 6 1 [(0, 4, 5), (4, 1, 1)])) (ends store5 .poison 0x2E) ∧
    does .thresholds (asked ws (ask 7 0xFFFF [(1, 1, 7), (4, 4, 99)])) (fun t => replied 7 0xFFFF 0 (natLe 4 20) t && t.pthr.getD 7 0 == 99) ∧
    does .thresholds (asked { ws with contexts := [{ asid := 1, root := 0, ages := List.replicate 16 3#32 }] } (ask 7 1 [(0, 1, 1), (1, 1, 15), (4, 4, 99)])) (fun t =>
      replied 7 1 0 (natLe 4 3) t && t.contexts.all fun c => c.ages.getD 15 0#32 == 99#32) ∧
    does .thresholds (asked ws (ask 7 0xFFFF [(0, 1, 2), (4, 4, 99)])) (fun t => replied 7 0xFFFF 0 (natLe 4 10000) t && t.wdsave == 99) ∧
    does .thresholds (asked ws (ask 7 0xFFFF [(0, 1, 3), (4, 4, 99)])) (fun t => replied 7 0xFFFF 0 (natLe 4 64) t && t.adth == 99) ∧
    does .thresholds (asked ws (ask 7 0xFFFF [(0, 1, 4), (4, 4, 99)])) (fun t => replied 7 0xFFFF 0 (natLe 4 10) t && t.tpod == 99) ∧
    does .ffring (asked ws (ask 8 0xFFFF [(0, 8, 0x70000), (8, 4, 256)])) (fun t => replied 8 0xFFFF 0 [] t && t.ffring == some (0x70000, 256)) ∧
    does .ffring (asked { ws with ffring := some (0, 256) } (ask 8 0xFFFF [(0, 8, 0x70000), (8, 4, 256)])) (replied 8 0xFFFF 1 []) ∧
    does .refill (asked ws (ask 9 0xFFFF [(0, 4, 2), (8, 8, 0x70000), (16, 8, 0x80000)])) (fun t => replied 9 0xFFFF 0 (natLe 4 2) t && t.refill == [0x70000, 0x80000]) ∧
    does .savepool (asked ws (ask 0xA 1 [(0, 8, 0x70000), (8, 8, 0x10000)])) (fun t => replied 0xA 1 0 [] t && t.contexts.all fun c => c.pool == [(0x70000, 0x10000)]) ∧
    does .retired (asked { ws with retired := [0x10000, 0x50000] } (ask 0xB 0xFFFF [(0, 4, 1)])) (replied 0xB 0xFFFF 0 (natLe 4 2 ++ natLe 4 1 ++ natLe 8 0x50000)) ∧
    does .clearlost (asked { ws with lost := [0x20000, 0x20100] } (ask 0xC 0xFFFF [(0, 8, 0x20000)])) (fun t => replied 0xC 0xFFFF 0 [] t && t.lost == [0x20100] && memGet t.mem 0x20000 == 0#8) ∧
    does .aperture (asked { ws with aperture := [(3, 2 ^ 32), (4, 2 ^ 33)] } (ask 0xD 0xFFFF [(0, 1, 3), (1, 1, 1), (8, 8, 2 ^ 34)])) (fun t => replied 0xD 0xFFFF 0 [] t &&
      t.aperture.contains (3, 2 ^ 34) && !t.aperture.contains (3, 2 ^ 32) && t.aperture.contains (4, 2 ^ 33)) := by decide +kernel

theorem test_fabricRequests :
    does .fabric (asked ws (ask 0xE 0xFFFF [(4, 4, 992), (8, 4, 2), (16, 8, (route 7).toNat)])) (fun t => replied 0xE 0xFFFF 0 [] t && t.routeEntry 992 == (route 7).toNat && t.routeEntry 993 == 0) ∧
    does .fabric (asked ws (ask 0xE 0xFFFF [(0, 1, 1), (4, 4, 65535), (8, 4, 1), (16, 8, 2 ^ 63 + 6)])) (fun t => replied 0xE 0xFFFF 0 [] t && t.mcastEntry 65535 == 2 ^ 63 + 6) ∧
    does .counters (asked { ws with counters := [{ core := 191, idx := 7, event := 0x40, on := true, val := 9 }] } (ask 0xF 0xFFFF [(1, 1, 7), (2, 2, 191), (4, 1, 2), (6, 2, 511)])) (fun t =>
      replied 0xF 0xFFFF 0 [] t && t.counter 191 7 == { core := 191, idx := 7, mode := 2, casid := 511, event := 0x40, on := true, val := 0 }) ∧
    does .counters (asked ws (ask 0xF 0xFFFF [(1, 1, 15), (2, 2, 0xFFFF), (4, 1, 1), (8, 2, 0x108)])) (fun t => replied 0xF 0xFFFF 0 [] t && (t.counter 0xFFFF 15).on &&
      (t.counter 0xFFFF 15).event == 0x108) ∧
    does .counters (asked { ws with counters := [{ core := 191, idx := 7, val := 9 }] } (ask 0xF 0xFFFF [(0, 1, 1), (1, 1, 7), (2, 2, 191)])) (replied 0xF 0xFFFF 0 (natLe 8 9)) ∧
    does .power (asked ws (ask 0x10 0xFFFF [(0, 2, 1000)])) (fun t => replied 0x10 0xFFFF 0 (natLe 2 1000) t && t.limitW == 1000) := by decide +kernel

/-- A firmware update above the running version raises no floor, whatever the region holds. -/
theorem test_fwupdate : let s := asked { ws with svn := 2 } (ask 0x12 0xFFFF [(0, 8, 0x20000), (8, 4, 32), (12, 1, 1), (16, 4, 3)])
    restZero s.headRequest [(0, 13), (16, 4)] ∧ s.svn < 3 := by decide +kernel

/-! ## Words, steps and reset -/

/-- An instruction word at the start of the device's code, with its partition about to be given a slot. -/
def coded (w : Nat) : State := { ws with mem := putBytes (tables (leafOf 0x20000 0xC0) 0) 0x10040 (natLe 4 w), contexts := [{ asid := 1, root := 0x100000 }], agenda := [.slot 0 0] }

/-- A step runs the word at the PC for all the lanes there; one that decodes to nothing raises the illegal-instruction trap. -/
theorem test_stepRuns :
    (ran (step (coded (0x32 * 2 ^ 23))) fun t => at5 t fun u => u.pc == 4#32) ∧
    (ran (step (coded ((encode (.movi false 3#7 77#16)).getD 0))) fun t => at5 t fun u => u.pc == 4#32 && u.vget 3 == 77#32) ∧
    (ran (step (coded 0)) fun t => at5 t fun u => u.pc == 128#32 && u.hnd) ∧
    (ran (step { ws with agenda := [.row .fabricStartDelay] }) fun t => t.agenda == []) := by decide +kernel

/-- The device as such a step finds it, its partition woken, and the issue that follows. -/
def slotted : State := State.wakePart { coded (0x32 * 2 ^ 23) with agenda := [] } 0 0
def begun : State := (slotted.noteSlot 0 0).beginIssue wg (issueSet wg)
def begunIssue : Issue := begun.issueOf ((begun.group? 1).getD wg) (issueSet wg)

theorem test_stepPremises : slotted.slotGone 0 0 = false ∧ arbitrate slotted 0 0 = some wg ∧ begunIssue.pc.toNat < (begun.groupCode begunIssue.g).codeLen ∧
    accessCheck begun begunIssue (begunIssue.lanes.headD 0) .fetch (codeVa (begun.groupCode begunIssue.g) begunIssue.pc) 4 false = .ok (.home 0x10040) := by decide +kernel

/-- A step from a canonical memory that stores. -/
theorem test_canonical : ws.memWf ∧ (ran (step { ws with boot := .running, agenda := [.row (.bar2Write 0x70010 [1#8, 0#8, 2#8])] }) fun t => t.mem.wf && memGet t.mem 0x70012 == 2#8) := by decide +kernel

theorem test_resetState : State.reset.memWf ∧ State.reset.pthr.getD 7 0 = 20 ∧ State.reset.patEntry 191 15 31 = 0x8000 ∧ State.reset.routeEntry 992 = 0 ∧ State.reset.wdsave = 10000 := by
  decide +kernel

/-- Counters of core 0 that count some events for every context. -/
def counters (es : List Nat) : List Counter := es.zipIdx.map fun (e, i) => { core := 0, idx := i, mode := 1, event := e, on := true }

/-- A load that misses both caches, and a `MOVI` of 32 threads: one word, four beats, no park (R416). -/
theorem test_counts :
    ran (exec (.memoryReply 7 5) { loads with counters := counters [0x020, 0x021, 0x022] }) (fun t => t.counters.map (·.val) == [0, 1, 1]) ∧
    ran (step { coded ((encode (.movi false 3#7 77#16)).getD 0) with counters := counters [0x002, 0x003, 0x011] }) (fun t => t.counters.map (·.val) == [1, 4, 0]) ∧
    (counters [1]).map (fun c => ((c.add 4 2).add 4 3).before 4) = [0] ∧ (counters [1]).map (fun c => ((c.add 4 2).add 5 3).before 5) = [2] := by decide +kernel

/-! ## Words written out from the encodings of R79 to R97 -/

/-- A word of each opcode 0x00 to 0x0F. -/
theorem test_words0 : ∀ x ∈ ([
    (0x008002B0, .himm 688#23), (0x01015870, .hdep 688#16 3#2 1#1), (0x01862340, .hmod 0#3 0#1 6#3 1#3 0#2 0#1 1#1 5#3), (0x02000000, .hsch 0#3 0#1),
    (0x82800000, .nop true), (0x830002BB, .trap true 699#16), (0x83DD82C6, .sysrd true 187#8 710#15), (0x845D82C6, .syswr true 187#8 710#15),
    (0x84DDE31C, .perf true 187#8 198#8 1#3 12#4), (0x85580006, .drain true 11#4 6#3)] : List (Nat × Instr)), decodeTableWord 32 x.1 = some x.2 ∧ encode x.2 = some x.1 := by decide +kernel

/-- A word of each opcode 0x10 to 0x1F. -/
theorem test_words1 : ∀ x ∈ ([
    (0x880002BB, .bra true 699#23), (0x888002BB, .braQ0 true 699#23), (0x890002BB, .braNotQ0 true 699#23), (0x898002BB, .braQ1 true 699#23),
    (0x8A0002BB, .braNotQ1 true 699#23), (0x8A8002BB, .braQ2 true 699#23), (0x8B0002BB, .braNotQ2 true 699#23), (0x8B8002BB, .braQ3 true 699#23),
    (0x8C0002BB, .braNotQ3 true 699#23), (0x8C8002BB, .braP0 true 699#23), (0x8D0002BB, .braNotP0 true 699#23), (0x8D8002BB, .braP1 true 699#23),
    (0x8E0002BB, .call true 699#23), (0x8E800000, .ret true), (0x8F0076C6, .loop true 59#7 198#9), (0x8F800003, .brk true 3#2)] : List (Nat × Instr)), decodeTableWord 32 x.1 = some x.2 ∧ encode x.2 = some x.1 := by decide +kernel

/-- A word of each opcode 0x20 to 0x2F. -/
theorem test_words2 : ∀ x ∈ ([
    (0x90007602, .brx true 59#7 2#2), (0x90800000, .rcv true), (0x91000000, .yield true), (0x91800003, .exit true 3#2), (0x925E081E, .plop true 11#4 6#3 0#1 4#3 7#3 2#2),
    (0x92BB0104, .vote true 59#7 2#2 1#3 0#2), (0x931B8DA2, .vtos true 27#5 70#7 209#8)] : List (Nat × Instr)), decodeTableWord 32 x.1 = some x.2 ∧ encode x.2 = some x.1 := by decide +kernel

/-- A word of each opcode 0x30 to 0x3F. -/
theorem test_words3 : ∀ x ∈ ([
    (0x983B8D44, .iadd true 59#7 70#7 81#7 0#2), (0x98BB8D44, .isub true 59#7 70#7 81#7 0#2), (0x993B8D44, .imul true 59#7 70#7 81#7 0#2),
    (0x99BB8D44, .imulh true 59#7 70#7 81#7 0#2), (0x9A3B8D44, .imad true 59#7 70#7 81#7 0#2), (0x9ABB8D44, .imin true 59#7 70#7 81#7 0#2),
    (0x9B3B8D44, .imax true 59#7 70#7 81#7 0#2), (0x9BBB8C01, .iabs true 59#7 70#7 1#2), (0x9C3B8C01, .ineg true 59#7 70#7 1#2),
    (0x9CBB8D44, .and true 59#7 70#7 81#7 0#2), (0x9D3B8D44, .or true 59#7 70#7 81#7 0#2), (0x9DBB8D44, .xor true 59#7 70#7 81#7 0#2),
    (0x9E3B8C01, .not true 59#7 70#7 1#2), (0x9EBB8D44, .shl true 59#7 70#7 81#7 0#2), (0x9F3B8D44, .shr true 59#7 70#7 81#7 0#2),
    (0x9FBB8D44, .sar true 59#7 70#7 81#7 0#2)] : List (Nat × Instr)), decodeTableWord 32 x.1 = some x.2 ∧ encode x.2 = some x.1 := by decide +kernel

/-- A word of each opcode 0x40 to 0x4F. -/
theorem test_words4 : ∀ x ∈ ([
    (0xA03B8C01, .popc true 59#7 70#7 1#2), (0xA0BB8C01, .clz true 59#7 70#7 1#2), (0xA13B8C01, .brev true 59#7 70#7 1#2), (0xA1BB8D44, .bfe true 59#7 70#7 81#7 0#2),
    (0xA23B8D44, .bfi true 59#7 70#7 81#7 0#2), (0xA2BB8D44, .sel true 59#7 70#7 81#7 0#2), (0xA33B8C01, .mov true 59#7 70#7 1#2),
    (0xA3DEA373, .icmp true 11#4 6#3 81#7 92#7 3#2), (0xA43B8D44, .lea true 59#7 70#7 81#7 0#2), (0xA4BB8CD1, .iaddImm true 59#7 70#7 209#9),
    (0xA53B8C11, .shlImm true 59#7 70#7 17#5), (0xA5DEA2DC, .icmpImm true 11#4 6#3 81#7 220#9), (0xA63B02C6, .movi true 59#7 710#16),
    (0xA6BB8DA3, .iaddScalar true 59#7 70#7 209#8 1#1), (0xA73B018C, .movScalar true 59#7 198#8 0#1)] : List (Nat × Instr)), decodeTableWord 32 x.1 = some x.2 ∧ encode x.2 = some x.1 := by decide +kernel

/-- A word of each opcode 0x50 to 0x5F. -/
theorem test_words5 : ∀ x ∈ ([
    (0xA85DE351, .sadd true 187#8 198#8 81#7), (0xA8DDE351, .saddImm true 187#8 198#8 81#7), (0xA95DE351, .ssub true 187#8 198#8 81#7),
    (0xA9DDE351, .smul true 187#8 198#8 81#7), (0xAA5DE351, .slogAnd true 187#8 198#8 81#7), (0xAADDE351, .slogOr true 187#8 198#8 81#7),
    (0xAB5DE351, .slogXor true 187#8 198#8 81#7), (0xABDDE351, .slogAndn true 187#8 198#8 81#7), (0xAC5DE351, .sshfShl true 187#8 198#8 81#7),
    (0xACDDE351, .sshfShr true 187#8 198#8 81#7), (0xAD5DE351, .sshfSar true 187#8 198#8 81#7), (0xADDDE33C, .sshfImm true 187#8 198#8 1#2 28#5),
    (0xAE5DE300, .smov true 187#8 198#8), (0xAEDD82C6, .smovi true 187#8 710#15), (0xAF5968DC, .scmp true 11#4 2#2 209#8 92#7),
    (0xAFD968DC, .scmpImm true 11#4 2#2 209#8 92#7)] : List (Nat × Instr)), decodeTableWord 32 x.1 = some x.2 ∧ encode x.2 = some x.1 := by decide +kernel

/-- A word of each opcode 0x60 to 0x6F. -/
theorem test_words6 : ∀ x ∈ ([
    (0xB03B8D44, .fadd true 59#7 70#7 81#7 0#2), (0xB0BB8D44, .fsub true 59#7 70#7 81#7 0#2), (0xB13B8D44, .fmul true 59#7 70#7 81#7 0#2),
    (0xB1BB8D44, .ffma true 59#7 70#7 81#7 0#2), (0xB23B8D44, .fmin true 59#7 70#7 81#7 0#2), (0xB2BB8D44, .fmax true 59#7 70#7 81#7 0#2),
    (0xB35EA373, .fcmp true 11#4 6#3 81#7 92#7 3#2), (0xB3BB8C01, .frcp true 59#7 70#7 1#2), (0xB43B8C01, .frsq true 59#7 70#7 1#2),
    (0xB4BB8C01, .fex2 true 59#7 70#7 1#2), (0xB53B8C01, .flg2 true 59#7 70#7 1#2), (0xB5BB8C01, .fcls true 59#7 70#7 1#2), (0xB63B8C01, .frnd true 59#7 70#7 1#2),
    (0xB6BB8D44, .hadd2 true 59#7 70#7 81#7 0#2), (0xB73B8D44, .hmul2 true 59#7 70#7 81#7 0#2), (0xB7BB8D44, .hfma2 true 59#7 70#7 81#7 0#2)] : List (Nat × Instr)), decodeTableWord 32 x.1 = some x.2 ∧ encode x.2 = some x.1 := by decide +kernel

/-- A word of each opcode 0x70 to 0x7F. -/
theorem test_words7 : ∀ x ∈ ([
    (0xB83B8C38, .cvt true 59#7 70#7 1#4 12#4), (0xB8BB8C3C, .pack true 59#7 70#7 1#4 28#5), (0xB93B8C3C, .unpk true 59#7 70#7 1#4 28#5),
    (0xB9BB8C20, .qnt true 59#7 70#7 1#4 0#2), (0xBA3B8D44, .sclx true 59#7 70#7 81#7 0#2), (0xBC3B8D44, .dqntE4m3 true 59#7 70#7 81#7 0#2),
    (0xBCBB8D44, .dqntE5m2 true 59#7 70#7 81#7 0#2), (0xBD3B8D44, .dqntE2m3 true 59#7 70#7 81#7 0#2), (0xBDBB8D44, .dqntE3m2 true 59#7 70#7 81#7 0#2),
    (0xBE3B8D44, .dqntE2m1 true 59#7 70#7 81#7 0#2), (0xBEBB8D44, .dqntSx4 true 59#7 70#7 81#7 0#2), (0xBF3B8D44, .dqntI8 true 59#7 70#7 81#7 0#2)] : List (Nat × Instr)), decodeTableWord 32 x.1 = some x.2 ∧ encode x.2 = some x.1 := by decide +kernel

/-- A word of each opcode 0x80 to 0x8F. -/
theorem test_words8 : ∀ x ∈ ([
    (0xC03B8C01, .xpat true 59#7 70#7 1#4), (0xC0BB8D44, .xperm true 59#7 70#7 81#7 0#2), (0xC13B8C9C, .shfl true 59#7 70#7 1#2 28#5),
    (0xC1BB8C38, .scan true 59#7 70#7 1#4 12#4 0#1), (0xC23B8C38, .rdx true 59#7 70#7 1#4 12#4)] : List (Nat × Instr)), decodeTableWord 32 x.1 = some x.2 ∧ encode x.2 = some x.1 := by decide +kernel

/-- A word of each opcode 0x90 to 0x9F. -/
theorem test_words9 : ∀ x ∈ ([
    (0xC83B8C33, .ld true 59#7 70#7 1#4 4#3 3#2), (0xC8BB8C33, .st true 59#7 70#7 1#4 4#3 3#2), (0xC93B8C04, .lds true 59#7 70#7 1#3 0#2),
    (0xC9BB8C04, .sts true 59#7 70#7 1#3 0#2), (0xCA3B8C32, .atom true 59#7 70#7 1#4 1#1 0#1 2#3), (0xCABB8C30, .acas true 59#7 70#7 1#4 1#1 0#1),
    (0xCB038C04, .prf true 3#2 70#7 1#3 0#2), (0xCB830009, .fence true 3#3 2#2 1#2), (0xCC038C33, .cflush true 3#2 70#7 1#4 4#3 3#2),
    (0xCCBB8C01, .ptst true 59#7 70#7 1#2), (0xCD3B8C20, .ldt true 59#7 70#7 1#4 0#2), (0xCDBB8C20, .stt true 59#7 70#7 1#4 0#2)] : List (Nat × Instr)), decodeTableWord 32 x.1 = some x.2 ∧ encode x.2 = some x.1 := by decide +kernel

/-- A word of each opcode 0xA0 to 0xAF. -/
theorem test_wordsA : ∀ x ∈ ([
    (0xD070168D, .wait true 3#2 1#1 721#16 1#1 0#1 1#1), (0xD0DE3301, .waitc true 11#4 198#8 1#2 1#1 0#1 1#1), (0xD15E3689, .tst true 11#4 198#8 209#8 1#1),
    (0xD18015D8, .tclr true 699#16), (0xD25E368A, .texp true 11#4 198#8 209#8 1#1 0#1), (0xD2DE3688, .binit true 11#4 198#8 209#8),
    (0xD35E368A, .arv true 11#4 198#8 209#8 1#1 0#1), (0xD3F68EE1, .bwait true 3#2 1#1 209#8 220#8 0#1 1#1), (0xD4663688, .bpoll true 3#2 198#8 209#8)] : List (Nat × Instr)), decodeTableWord 32 x.1 = some x.2 ∧ encode x.2 = some x.1 := by decide +kernel

/-- A word of each opcode 0xB0 to 0xBF. -/
theorem test_wordsB : ∀ x ∈ ([
    (0xD85E368A, .cpy true 11#4 198#8 209#8 1#1 0#1), (0xD8DE3000, .launch true 11#4 198#8), (0xD905D806, .sacq true 187#8 6#3), (0xD985DE31, .spop true 187#8 198#8 1#3),
    (0xDA05D809, .srel true 187#8 1#1 1#3), (0xDC5E368A, .kvld true 11#4 198#8 209#8 1#1 0#1), (0xDCDE3688, .kvseal true 11#4 198#8 209#8),
    (0xDD5E3688, .kvhdr true 11#4 198#8 209#8), (0xDE5E3688, .coll true 11#4 198#8 209#8), (0xDEDE3688, .mcst true 11#4 198#8 209#8),
    (0xDF5E3688, .rte true 11#4 198#8 209#8), (0xDFDE3688, .rtc true 11#4 198#8 209#8)] : List (Nat × Instr)), decodeTableWord 32 x.1 = some x.2 ∧ encode x.2 = some x.1 := by decide +kernel

/-- A word of each opcode 0xC0 to 0xCF. -/
theorem test_wordsC : ∀ x ∈ ([
    (0xE059A8DC, .mmaBf16 true 11#4 6#5 81#7 92#7), (0xE0D9A8DC, .mmaF16 true 11#4 6#5 81#7 92#7), (0xE159A8DC, .mmaE4m3 true 11#4 6#5 81#7 92#7),
    (0xE1D9A8DC, .mmaE5m2 true 11#4 6#5 81#7 92#7), (0xE259A8DC, .mmaE2m3 true 11#4 6#5 81#7 92#7), (0xE2D9A8DC, .mmaE3m2 true 11#4 6#5 81#7 92#7),
    (0xE359A8DC, .mmaI8 true 11#4 6#5 81#7 92#7), (0xE3D9A8DC, .mmaE2m1 true 11#4 6#5 81#7 92#7), (0xE459A8DC, .mmaSx4 true 11#4 6#5 81#7 92#7),
    (0xE586C000, .acrel true 27#5), (0xE6598000, .acacq true 11#4 6#5), (0xE686C000, .acz true 27#5), (0xE706E351, .acrd true 27#5 70#7 81#7),
    (0xE786E351, .acwr true 27#5 70#7 81#7)] : List (Nat × Instr)), decodeTableWord 32 x.1 = some x.2 ∧ encode x.2 = some x.1 := by decide +kernel

/-- The words of the statement on decoding: reserved bits, a settled hint and unassigned opcodes are rejected by name. -/
theorem test_rejects : (match decodeWord 0x02800001, decodeWord 0x80800000, decodeWord 0, decodeWord 0x68000000 with
    | .error .reservedBit, .error .settledHint, .error .unassigned, .error .unassigned => true
    | _, _, _, _ => false) = true := by decide +kernel

end Sys2Proof.Tests
end

section
/-!
SUPPORT. The state after reset.
-/
namespace Sys2Proof.Machine
open Sys2Proof

/-- Settles O60. Every clause reads a field at the value that `State.reset` gives it; a lookup in an empty table gives the table's value at reset, and the
mailbox area reads zero since no byte of it is listed. -/
theorem resetState : Obligations.ResetState := by
  have hrings : ∀ off ∈ [0, 4, 8, 12, 16], State.reset.box (0x2000 + off) 4 = 0 := by decide
  have hpats : ∀ core n lane, State.reset.patEntry core n lane = 0x8000 := fun _ _ _ => rfl
  have hcounters : ∀ core n, (State.reset.counter core n).val = 0 := fun _ _ => rfl
  have hdists : ∀ d < 2, (State.reset.dist d).rotation = 0 ∧ ∀ p < 8, (State.reset.dist d).rounds.getD p 1 = 0 := by decide
  exact ⟨⟨rfl, rfl, rfl⟩, rfl, rfl, rfl, rfl, rfl, rfl, hrings, fun _ => rfl, fun _ => rfl, rfl, rfl, rfl, rfl, hpats, hcounters, hdists, rfl, rfl, rfl⟩

end Sys2Proof.Machine
end

section
/-!
SUPPORT. A group found and stored again, the close of a segment with one result, and the steps around issue that these settle.
-/
namespace Sys2Proof.Machine
open Sys2Proof

/-! ## A group found and stored again -/

/-- Where an element is the only one that meets a test, changing what meets the test is storing the changed element. -/
theorem mapIf_eq_const {α : Type} {p : α → Bool} {a : α} (f : α → α) {l : List α} (h : ∀ x ∈ l, p x = true → x = a) :
    mapIf p f l = mapIf p (fun _ => f a) l := by
  refine List.map_congr_left fun x hx => ?_
  cases hp : p x with
  | false => rfl
  | true => rw [h x hx hp]

/-- A change of a group that is the only one with its identifier stores the changed group. -/
theorem State.modGroup_eq_setGroup {s : State} {g : Group} (f : Group → Group) (h : ∀ x ∈ s.groups, x.uid = g.uid → x = g) (hf : (f g).uid = g.uid) :
    s.modGroup g.uid f = s.setGroup (f g) := by
  unfold State.modGroup State.setGroup
  rw [hf, mapIf_eq_const f fun x hx hp => h x hx (by simpa using hp)]

/-- The threads of a group in which one has been stored. -/
theorem Group.setThread_thread (g : Group) (lane l : Nat) (t : Thread) (h : lane < g.threads.length) :
    (g.setThread lane t).thread l = if l = lane then t else g.thread l := by
  by_cases hl : l = lane
  · subst hl; simp [Group.thread, Group.setThread, List.getD_eq_getElem?_getD, h]
  · rw [if_neg hl, Group.setThread_other _ _ _ _ (Ne.symm hl)]

/-- A change of every thread that leaves all but one as they are stores that one. -/
theorem Group.map_threads_eq_setThread (g : Group) (lane : Nat) (f : Thread → Thread)
    (h : ∀ l < g.threads.length, l ≠ lane → f (g.thread l) = g.thread l) :
    { g with threads := g.threads.map f } = g.setThread lane (f (g.thread lane)) := by
  unfold Group.setThread
  congr 1
  refine List.ext_getElem (by simp) fun i hi _ => ?_
  have hi' : i < g.threads.length := by simpa using hi
  have hget : g.thread i = g.threads[i] := by simp [Group.thread, hi']
  by_cases he : i = lane
  · subst he; simp [hget]
  · simp [Ne.symm he, ← hget, h i hi' he]

/-! ## Results that land -/

/-- The close of a segment with one vector result that raises no enabled flag: the register takes the value, and FPST the flags. -/
theorem closeSegment_single (g : Group) (t : Thread) (p : Pending) (n : Nat) (hp : t.pend = [p]) (hd : p.dest = .v n) (hf : p.flags &&& p.te = 0#5) :
    closeSegment g t = ({ g with fpst := g.fpst ||| p.flags.setWidth 32 }, { t with v := t.v.set n p.val, pend := [] }, none) := by
  simp [closeSegment, hp, firstRaise, hf, applyAll, applyOne, hd]

/-- A thread with nothing pending has no result to land. -/
theorem landWord_of_pend_nil (wid : Nat) (t : Thread) (h : t.pend = []) : landWord wid t = t := by
  unfold landWord mapIf
  rw [h, List.map_nil, ← h]

/-- The only pending result of a thread landed. -/
theorem landWord_single (t : Thread) (p : Pending) (h : t.pend = [p]) : landWord p.wid t = { t with pend := [{ p with landed := true }] } := by
  simp [landWord, h, mapIf]

theorem settles_eq_false {t : Thread} (h : t.st ≠ .parked .settle) : settles t = false := by simp [settles, h]

/-- Where no listed lane has settled, none is closed. -/
theorem closeSettled_of_none (u : Nat) (ls : List Nat) {s : State} {g : Group} (hg : s.group? u = some g) (h : ∀ l ∈ ls, settles (g.thread l) = false) :
    closeSettled u ls s = s := by
  induction ls with
  | nil => rfl
  | cons l ls ih =>
    simp only [closeSettled, hg, h l (by simp), Bool.false_eq_true, if_false]
    exact ih fun m hm => h m (by simp [hm])

theorem closeSettled_append (u : Nat) (as bs : List Nat) (s : State) : closeSettled u (as ++ bs) s = closeSettled u bs (closeSettled u as s) := by
  induction as generalizing s with
  | nil => rfl
  | cons a as ih => exact ih _

/-- Where one lane alone has settled, its segment is closed and no other. -/
theorem closeSettled_of_one {u lane : Nat} {s s' : State} {g g' : Group} (hl : lane ∈ laneList) (hg : s.group? u = some g) (hset : settles (g.thread lane) = true)
    (hrest : ∀ l ∈ laneList, l ≠ lane → settles (g.thread l) = false) (hclose : s.closeSettle g lane = s') (hg' : s'.group? u = some g')
    (hnow : ∀ l ∈ laneList, settles (g'.thread l) = false) : closeSettled u laneList s = s' := by
  obtain ⟨as, bs, hsplit⟩ := List.append_of_mem hl
  have hnodup : (as ++ lane :: bs).Nodup := hsplit ▸ List.nodup_range
  have has : ∀ l ∈ as, settles (g.thread l) = false := fun l hm =>
    hrest l (by rw [hsplit]; simp [hm]) fun e => (List.nodup_append.mp hnodup).2.2 l hm lane (by simp) e
  rw [hsplit, closeSettled_append, closeSettled_of_none u as hg has]
  simp only [closeSettled, hg, hset, if_true, hclose]
  exact closeSettled_of_none u bs hg' fun l hm => hnow l (by rw [hsplit]; simp [hm])

/-- Where no thread of a group has newly parked, nothing is counted. -/
theorem countParks_of_none (g : Group) (ls : List Nat) {s : State} {g' : Group} (hg : s.group? g.uid = some g')
    (h : ∀ l ∈ ls, ∀ r, (g'.thread l).st = .parked r → (g.thread l).st = .parked r) : countParks g [] ls s = s := by
  induction ls with
  | nil => rfl
  | cons l ls ih =>
    have hrest := ih fun m hm => h m (by simp [hm])
    simp only [countParks, hg, Option.getD_some]
    split
    · next r hr => simpa [h l (by simp) r hr] using hrest
    · exact hrest

/-- A group in which one thread alone holds pending results, one result that has not landed, and no other thread is parked to settle. -/
structure OneResult (g : Group) (lane : Nat) (p : Pending) : Prop where
  size   : g.threads.length = 32
  inside : lane < 32
  pend   : (g.thread lane).pend = [p]
  later  : p.landed = false
  others : ∀ l < 32, l ≠ lane → (g.thread l).pend = [] ∧ (g.thread l).st ≠ .parked .settle

theorem OneResult.lt {g : Group} {lane : Nat} {p : Pending} (h : OneResult g lane p) : lane < g.threads.length := h.size ▸ h.inside

/-- The group once that result has landed. -/
def Group.landedOne (g : Group) (lane : Nat) (p : Pending) : Group := g.setThread lane { g.thread lane with pend := [{ p with landed := true }] }

/-- The group once the segment of that result, for a vector register, has closed. -/
def Group.settledOne (g : Group) (lane n : Nat) (p : Pending) : Group :=
  Group.setThread { g with fpst := g.fpst ||| p.flags.setWidth 32 } lane
    { g.thread lane with v := (g.thread lane).v.set n p.val, pend := [], st := .runnable, wake := .none }

/-- Under no order to stop a settle park ends with its segment closed (R123). -/
theorem closeSettle_landedOne {s : State} {g : Group} {lane n : Nat} {p : Pending} (h : OneResult g lane p) (hstop : (s.team? g.team).bind (·.stop) = none)
    (hd : p.dest = .v n) (hf : p.flags &&& p.te = 0#5) (hw : (g.thread lane).wake = .settle) :
    (s.setGroup (g.landedOne lane p)).closeSettle (g.landedOne lane p) lane = s.setGroup (g.settledOne lane n p) := by
  have hlane : (g.landedOne lane p).thread lane = { g.thread lane with pend := [{ p with landed := true }] } := by
    rw [Group.landedOne, Group.setThread_thread _ _ _ _ h.lt, if_pos rfl]
  have hteam : ((s.setGroup (g.landedOne lane p)).team? (g.landedOne lane p).team).bind (·.stop) = none := hstop
  have hclose := closeSegment_single (g.landedOne lane p) { g.thread lane with pend := [{ p with landed := true }] } { p with landed := true } n rfl hd hf
  simp only [State.closeSettle, hlane, hteam, Option.map_none, Option.getD_none, hclose]
  rw [State.setGroup_setGroup _ _ _ (by rfl)]
  simp [settled, hw, Group.landedOne, Group.settledOne, Group.setThread]

section
variable {s : State} {g : Group} {lane : Nat} {p : Pending} (h : OneResult g lane p) (hg : s.group? g.uid = some g)
include h hg

/-- `LONG_RESULT_LAND` lands the result, and then closes the segments that have settled. -/
theorem OneResult.land :
    execLongResultLand g.uid lane s = .next (countParks g [] laneList (closeSettled g.uid laneList (s.setGroup (g.landedOne lane p)))) := by
  have hmap : { g with threads := g.threads.map (landWord p.wid) } = g.landedOne lane p := by
    rw [g.map_threads_eq_setThread lane _ fun l hl hne => landWord_of_pend_nil _ _ (h.others l (h.size ▸ hl) hne).1, landWord_single _ p h.pend]
    rfl
  simp only [execLongResultLand, hg, h.pend, List.find?_cons, h.later, Bool.not_false, hmap]

/-- A result that lands for a thread that is not parked to settle stays pending there (R121). -/
theorem OneResult.land_pending (hst : (g.thread lane).st ≠ .parked .settle) :
    execLongResultLand g.uid lane s = .next (s.setGroup (g.landedOne lane p)) := by
  have hstored : (s.setGroup (g.landedOne lane p)).group? g.uid = some (g.landedOne lane p) := State.group?_setGroup (g := g.landedOne lane p) hg
  have hthread := fun l => g.setThread_thread lane l { g.thread lane with pend := [{ p with landed := true }] } h.lt
  have hst' : ∀ l, ((g.landedOne lane p).thread l).st = (g.thread l).st := fun l => by
    rw [Group.landedOne, hthread]
    split
    · next he => rw [he]
    · rfl
  have hnone : ∀ l ∈ laneList, settles ((g.landedOne lane p).thread l) = false := fun l hl => settles_eq_false (by
    rw [hst']
    by_cases he : l = lane
    · exact he ▸ hst
    · exact (h.others l (List.mem_range.mp hl) he).2)
  rw [h.land hg, closeSettled_of_none _ _ hstored hnone, countParks_of_none g laneList hstored fun l _ r hr => hst' l ▸ hr]

/-- A result that lands for a thread parked to settle closes its segment, and the thread goes on (R123). -/
theorem OneResult.land_settled {n : Nat} (hstop : (s.team? g.team).bind (·.stop) = none) (hd : p.dest = .v n) (hf : p.flags &&& p.te = 0#5)
    (hst : (g.thread lane).st = .parked .settle) (hw : (g.thread lane).wake = .settle) :
    execLongResultLand g.uid lane s = .next (s.setGroup (g.settledOne lane n p)) := by
  have hstored : (s.setGroup (g.landedOne lane p)).group? g.uid = some (g.landedOne lane p) := State.group?_setGroup (g := g.landedOne lane p) hg
  have hclosed : (s.setGroup (g.settledOne lane n p)).group? g.uid = some (g.settledOne lane n p) := State.group?_setGroup (g := g.settledOne lane n p) hg
  have hlanded := fun l => g.setThread_thread lane l { g.thread lane with pend := [{ p with landed := true }] } h.lt
  have hsettled := fun l => Group.setThread_thread { g with fpst := g.fpst ||| p.flags.setWidth 32 } lane l
    { g.thread lane with v := (g.thread lane).v.set n p.val, pend := [], st := .runnable, wake := .none } h.lt
  have hrest : ∀ l ∈ laneList, l ≠ lane → settles (g.thread l) = false := fun l hl hne => settles_eq_false (h.others l (List.mem_range.mp hl) hne).2
  rw [h.land hg, closeSettled_of_one (List.mem_range.mpr h.inside) hstored ?_ ?_ (closeSettle_landedOne h hstop hd hf hw) hclosed ?_,
    countParks_of_none g laneList hclosed ?_]
  · intro l _ r hr
    rw [Group.settledOne, hsettled] at hr
    split at hr
    · cases hr
    · exact hr
  · rw [Group.landedOne, hlanded, if_pos rfl]
    simp [settles, hst]
  · intro l hl hne
    rw [Group.landedOne, hlanded, if_neg hne]
    exact hrest l hl hne
  · intro l hl
    rw [Group.settledOne, hsettled]
    split
    · exact settles_eq_false (by simp)
    · next hne => exact hrest l hl hne

end

/-! ## Other steps around issue -/

/-- A thread that has waited for the operations on its `v0` and `v1`, with nothing pending, enters its handler (R368). -/
theorem trapEntry_enters {s : State} {g : Group} {lane h : Nat} {r : TrapReq} (hg : s.group? g.uid = some g) (ht : (g.thread lane).trap = some r)
    (hhold : r.hold = none) (hh : (s.groupCode g).trap = some h) (hres : g.resident = true) (hstop : (g.thread lane).stopped = none)
    (hpend : (g.thread lane).pend = []) (h0 : trackers s g.uid lane 0 = []) (h1 : trackers s g.uid lane 1 = []) :
    execTrapEntry g.uid lane s = .next ((s.setGroup ((g.setThread lane (handlerThread h lane r.tcode (g.thread lane))).withFrames
      (putBytes g.frames (64 * lane) (frameBytes (g.thread lane) r)))).framesOut g (64 * lane) (frameBytes (g.thread lane) r)) := by
  have henter : s.enter g lane (g.thread lane) r h = (s.setGroup (enterHandler g lane (g.thread lane) r h)).framesOut g (64 * lane) (frameBytes (g.thread lane) r) := by
    simp only [State.enter, enterClosed_empty g _ r hpend]
  simp only [execTrapEntry, hg, ht, hh, hres, hstop, h0, h1, Option.isNone_none, List.append_nil, List.isEmpty_nil, Bool.and_true, if_true, henter,
    enterHandler_eq g lane (g.thread lane) r h hhold]

/-- The entry by which a word of a group's code is fetched ahead: it lies in the code, and the launch's lease gives EX there (R100). -/
def aheadOf (s : State) (g : Group) (l : Launch) (pc : Nat) : Option Tlb :=
  let va := (s.groupCode g).va + (s.groupCode g).codeOff + pc
  if pc < (s.groupCode g).codeLen && s.leased l rightsEx va 4 then aheadEntry s g va else none

section
variable {s : State} {g : Group} {l : Launch} {lane n : Nat} {rest : List Nat} (hg : s.group? g.uid = some g) (hl : s.launch? g.launch = some l)
  (hset : issueSet g = lane :: rest) (hn : 1 ≤ n) (hn' : n ≤ 16) (hres : g.resident = true) (hnew : (g.thread lane).pc.toNat + 4 * n ∉ g.ahead)
include hg hl hset hn hn' hres hnew

/-- A word that has an entry is fetched, and its entry stands in the cluster's TLB. -/
theorem runAheadFetch_of_some {t : Tlb} (ht : aheadOf s g l ((g.thread lane).pc.toNat + 4 * n) = some t) : execRunAheadFetch g.uid n s =
    .next (((s.fillTlb { t with unit := clusterOf g.core }).modGroup g.uid fun g' => { g' with ahead := g'.ahead ++ [(g.thread lane).pc.toNat + 4 * n] }).count
      g.core g.asid g.team 0x040 1) := by
  simp only [aheadOf] at ht
  simp only [execRunAheadFetch, hg, hl, hset, ht, hnew, hres, or_false, Bool.not_true, if_neg (show ¬(n = 0 ∨ 16 < n) by omega), Bool.false_eq_true]

/-- A word that has none counts as discarded. -/
theorem runAheadFetch_of_none (ht : aheadOf s g l ((g.thread lane).pc.toNat + 4 * n) = none) :
    execRunAheadFetch g.uid n s = .next (s.count g.core g.asid g.team 0x041 1) := by
  simp only [aheadOf] at ht
  simp only [execRunAheadFetch, hg, hl, hset, ht, hnew, hres, or_false, Bool.not_true, if_neg (show ¬(n = 0 ∨ 16 < n) by omega), Bool.false_eq_true]

end

/-- An entry of the cluster's TLB decides whether a fetch ahead goes on: it does with EX and A, not in migration (R100). -/
theorem aheadEntry_of_tlb {s : State} {g : Group} {va : Nat} {t : Tlb} (h : s.tlb? (clusterOf g.core) g.asid va = some t) :
    aheadEntry s g va = if t.ex && t.a && !t.mig then some t else none := by
  simp only [aheadEntry, h]

/-- Settles O40. The starvation guards mark the one group with the identifier; the other steps are the lemmas above, each for a thread as its clause has it. -/
theorem stepsAroundIssue : Obligations.StepsAroundIssue := by
  intro s g lane hg huniq hsize hlane
  refine ⟨fun hiss hcount => ?_, fun hres hfin hsome hlate => ?_, fun r h ht hhold hh hres hstop hpend h0 h1 => ?_, fun p n hpend hlater hd hf hstop hothers => ?_,
    fun l n rest hl hset hn hn' hres hnew => ?_⟩
  · rw [exec_threadStarved, execThreadStarved, State.modGroup_eq_setGroup _ huniq (by dsimp only; split <;> rfl)]
    simp [hiss, hcount]
  · rw [exec_groupStarvationGuard, execGroupStarvationGuard, State.modGroup_eq_setGroup _ huniq (by split <;> rfl)]
    simp [hres, hfin, hsome, hlate]
  · exact trapEntry_enters hg ht hhold hh hres hstop hpend h0 h1
  · have hone : OneResult g lane p := ⟨hsize, hlane, hpend, hlater, hothers⟩
    exact ⟨hone.land_pending hg, hone.land_settled hg hstop hd hf⟩
  · refine ⟨fun hout => runAheadFetch_of_none hg hl hset hn hn' hres hnew ?_, fun t hin hlease htlb =>
      ⟨fun hex ha hmig => runAheadFetch_of_some hg hl hset hn hn' hres hnew ?_, fun hbad => runAheadFetch_of_none hg hl hset hn hn' hres hnew ?_⟩⟩
    · simp [aheadOf, Nat.not_lt.mpr hout]
    · simp [aheadOf, hin, hlease, aheadEntry_of_tlb htlb, hex, ha, hmig]
    · have hno : (t.ex && t.a && !t.mig) = false := by rcases hbad with h | h | h <;> simp [h]
      simp [aheadOf, hin, hlease, aheadEntry_of_tlb htlb, hno]

end Sys2Proof.Machine
end

section
/-!
SUPPORT. A state in which the area of a saved team stands in an on-chip window, where the completion of an access leaves memory as it is.
-/
namespace Sys2Proof.Machine
open Sys2Proof

/-- A saved group of a team, with sixteen tokens. -/
def strayGroup : Group :=
  { uid := 1, team := 1, launch := 1, asid := 1, idx := 0, role := 0, core := 0, part := 0, slot := 0, resident := false, threads := [], s := []
    k := List.replicate 16 {} }

/-- Its team, whose save area is at the first address of the on-chip windows: the registers of core 0. -/
def strayTeam : Team := { uid := 1, launch := 1, asid := 1, index := 0, core := 0, phase := .saved .preempted, save := winBase }

/-- A lane's store to HBM that has left the queue. -/
def strayPart : Part := { lane := 0, va := 0, phys := .home 0, size := 4, sent := true }

/-- The store, bound to `k0`. -/
def strayOp : Op := { id := 1, asid := 1, launch := 1, team := 1, grp := 1, kd := 0, seq := 0, kind := .store false 0#3, parts := [strayPart] }

/-- The device with that team, its group and the store in flight; its memory is empty. -/
def strayState : State := { State.reset with groups := [strayGroup], teams := [strayTeam], ops := [strayOp] }

/-- The store completes, and memory is as before: the token's bytes in the group's record are the registers of a slot in which no group stands. -/
theorem savedCompletion_stray : ∃ t, exec (.savedCompletion 1 0) strayState = .next t ∧ t.mem = [] := ⟨_, rfl, rfl⟩

/-- Refutes O48 in its last clause, on `strayState`: it asks for the DONE token in memory at the group's record wherever the save area stands, and the bytes
of an area in the register windows are no bytes of memory. The pools that `SAVEPOOL` accepts (R412) lie below the end of HBM, which the clause does not say. -/
theorem not_teamsArePlacedAndSaved : ¬ Obligations.TeamsArePlacedAndSaved := by
  intro h
  obtain ⟨-, -, -, -, -, -, -, hsaved⟩ := h strayState 0 (by decide) rfl rfl
  obtain ⟨t, ht, -, htoken⟩ := hsaved strayGroup strayOp strayPart 0 strayTeam 0#3 rfl rfl rfl rfl rfl (by decide) rfl (by decide) rfl rfl rfl rfl rfl rfl rfl rfl rfl rfl
  obtain ⟨u, hu, hmem⟩ := savedCompletion_stray
  obtain rfl : t = u := by simpa using ht.symm.trans hu
  rw [hmem] at htoken
  exact absurd htoken (by decide)

end Sys2Proof.Machine
end

section
/-!
SUPPORT. Lookups of launches, what the finish of an operation does for a resident group, and the steps that only show something outside the device.
-/
namespace Sys2Proof.Machine
open Sys2Proof

/-! ## Lookups -/

/-- An element found is the changed one, where the change keeps what it is found by. -/
theorem find?_mapIf {α : Type} {p q : α → Bool} {f : α → α} {l : List α} {a : α} (h : l.find? q = some a)
    (hf : ∀ x ∈ l, p x = true → q (f x) = q x) :
    (mapIf p f l).find? q = some (if p a then f a else a) := by
  induction l with
  | nil => simp at h
  | cons x l ih =>
    have hx : q (if p x then f x else x) = q x := by
      split
      · next hp => exact hf x (by simp) hp
      · rfl
    show List.find? q ((if p x then f x else x) :: mapIf p f l) = _
    rw [List.find?_cons] at h ⊢
    rw [hx]
    cases hq : q x with
    | true => simp_all
    | false =>
      simp only [hq] at h ⊢
      exact ih h fun y hy => hf y (by simp [hy])

theorem State.launch?_uid {s : State} {u : Nat} {y : Launch} (h : s.launch? u = some y) : y.uid = u := by
  simpa using List.find?_some h

theorem State.group?_uid {s : State} {u : Nat} {g : Group} (h : s.group? u = some g) : g.uid = u := by
  simpa using List.find?_some h

theorem State.launch?_congr {s t : State} (h : t.launches = s.launches) (u : Nat) : t.launch? u = s.launch? u := by simp only [State.launch?, h]

/-- A launch changed is found as the change leaves it. -/
theorem State.launch?_modLaunch {s : State} {u : Nat} {y : Launch} {f : Launch → Launch} (h : s.launch? u = some y) (hf : ∀ x, x.uid = u → (f x).uid = u) :
    (s.modLaunch u f).launch? u = some (f y) := by
  have hy := State.launch?_uid h
  refine (find?_mapIf h fun x _ hx => ?_).trans (by simp [hy])
  have hx : x.uid = u := by simpa using hx
  simp [hf x hx, hx]

/-- A launch dropped is found no more. -/
theorem State.launch?_dropLaunch (s : State) (u : Nat) : (s.dropLaunch u).launch? u = none := by
  simp [State.launch?, State.dropLaunch, List.find?_filter]

/-! ## The finish of an operation of a resident group -/

/-- Registers of a resident group may have been written: of the state only groups differ, and the group has its tokens. -/
def State.Lands (s t : State) (u : Nat) (g : Group) : Prop :=
  ∃ gs g', t = { s with groups := gs } ∧ t.group? u = some g' ∧ g'.k = g.k ∧ g'.resident = true ∧ g'.finished = false

theorem State.Lands.refl {s : State} {u : Nat} {g : Group} (hg : s.group? u = some g) (hr : g.resident = true) (hf : g.finished = false) : s.Lands s u g :=
  ⟨s.groups, g, rfl, hg, rfl, hr, hf⟩

/-- A register of a resident group is written in the group alone. -/
theorem State.Lands.landReg {s t : State} {u : Nat} {g : Group} (h : s.Lands t u g) (lane n : Nat) (x : Word) : s.Lands (t.landReg u lane n x) u g := by
  obtain ⟨gs, g', rfl, hg, hk, hr, hf⟩ := h
  have hu := State.group?_uid hg
  have hrec : State.recordAddr { s with groups := gs } g' = 0 := by simp [State.recordAddr, hr]
  have hland : State.landReg { s with groups := gs } u lane n x = State.setGroup { s with groups := gs } (g'.setThread lane ((g'.thread lane).vset n x)) := by
    simp only [State.landReg, hg, hf, Bool.false_eq_true, if_false, hrec, if_true]
  refine ⟨_, g'.setThread lane ((g'.thread lane).vset n x), hland, ?_, hk, hr, hf⟩
  rw [hland]
  subst hu
  exact State.group?_setGroup (g := g'.setThread lane ((g'.thread lane).vset n x)) hg

theorem State.Lands.landTargets {s : State} {u : Nat} {g : Group} (lane : Nat) (ns : List Nat) {t : State} (h : s.Lands t u g) (bs : Bytes) :
    s.Lands (landTargets t u lane ns bs) u g := by
  induction ns generalizing t bs with
  | nil => exact h
  | cons n ns ih => exact ih (h.landReg lane n _) _

/-- The clean targets of an operation's parts, written. -/
theorem State.Lands.parts {s : State} {u : Nat} {g : Group} (ps : List Part) {t : State} (h : s.Lands t u g) :
    s.Lands (ps.foldl (fun s p => if p.fin == some 0#8 then Machine.landTargets s u p.lane p.tgt p.data else s) t) u g := by
  induction ps generalizing t with
  | nil => exact h
  | cons p ps ih =>
    refine ih ?_
    dsimp only
    split
    · exact h.landTargets p.lane p.tgt p.data
    · exact h

/-- A token of a resident group is written in the group alone. -/
theorem State.putToken_resident {s : State} {u : Nat} {g : Group} (hg : s.group? u = some g) (hr : g.resident = true) (hf : g.finished = false)
    (k : Nat) (t : Token) : s.putToken u k t = s.setGroup (g.setToken k t) := by
  have hrec : (s.setGroup (g.setToken k t)).recordAddr g = 0 := by simp [State.recordAddr, hr]
  simp only [State.putToken, hg, hf, Bool.false_eq_true, if_false, hrec, if_true]

/-- What the device is without a finished operation: those that sampled it know how it ended, and no engine queue or absent line names it (R92, R193). -/
def State.withoutOp (s : State) (o : Op) (st : TokState) (cause : BitVec 8) : State :=
  { s with
    ops := (s.ops.filter fun (x : Op) => x.id != o.id).map fun (x : Op) =>
      { x with pre := mapIf (fun q => q.op == o.id) (fun q => { q with res := some (st, cause) }) x.pre }
    contexts := mapIf (fun c => c.asid == o.asid) (fun c => { c with engq := c.engq.filter fun x => x != o.id }) s.contexts
    absent := s.absent.filter fun a => a.2.2 != o.id }

theorem State.withoutOp_op? (s : State) (o : Op) (st : TokState) (cause : BitVec 8) : (s.withoutOp o st cause).op? o.id = none := by
  simp [State.op?, State.withoutOp, List.find?_map, List.find?_filter]

/-- An operation in flight finishes in its group's registers and token, and is then gone. -/
theorem InFlight.finishOp_eq {s : State} {g : Group} {o : Op} (h : InFlight s g o) (st : TokState) (cause : BitVec 8) :
    ∃ (gs : List Group) (g' : Group) (tok : Token), State.group? { s with groups := gs } o.grp = some g' ∧ g'.k = g.k ∧ tok.st = st ∧
      (tok.cause = if st = .poison then cause else 0#8) ∧
      s.finishOp o.id st cause = (State.setGroup { s with groups := gs } (g'.setToken o.kd tok)).withoutOp o st cause := by
  obtain ⟨hop, hgroup, ⟨hres, hfin⟩, ⟨hbound, -⟩, ⟨-, hexp⟩⟩ := h
  obtain ⟨gs, g', hparts, hg', hk, hres', hfin'⟩ := State.Lands.parts o.parts (State.Lands.refl hgroup hres hfin)
  rw [hparts] at hg'
  refine ⟨gs, g', ⟨st, if st == .poison then cause else 0#8, ?prog, o.id⟩, hg', hk, rfl, by simp, ?eq⟩
  case eq =>
    simp only [State.finishOp, hop, hparts, hbound, if_true, State.putToken_resident hg' hres' hfin', hexp, sendExports]
    rfl

/-- The finish of an operation in flight (R193, R217): of the device only groups, operations, engine queues and absent lines change. -/
theorem InFlight.finishOp_frame {s : State} {g : Group} {o : Op} (h : InFlight s g o) (st : TokState) (cause : BitVec 8) :
    ∃ gs os cs as, s.finishOp o.id st cause = { s with groups := gs, ops := os, contexts := cs, absent := as } := by
  obtain ⟨gs, g', tok, -, -, -, -, heq⟩ := h.finishOp_eq st cause
  exact ⟨_, _, _, _, heq⟩

/-- The finish of an operation in flight: it is gone, and its token has taken the final state. -/
theorem InFlight.finishOp_finished {s : State} {g : Group} {o : Op} (h : InFlight s g o) (st : TokState) (cause : BitVec 8) :
    Finished (s.finishOp o.id st cause) o st cause := by
  obtain ⟨gs, g', tok, hg', hk, hst, hcause, heq⟩ := h.finishOp_eq st cause
  have hu := State.group?_uid hg'
  have hkd : o.kd < g'.k.length := hk ▸ h.bound.2
  have htok : (g'.setToken o.kd tok).token o.kd = tok := by simp [Group.token, Group.setToken, hkd]
  rw [heq]
  exact ⟨State.withoutOp_op? _ o st cause, g'.setToken o.kd tok, hu ▸ State.group?_setGroup (g := g'.setToken o.kd tok) (hu.symm ▸ hg'),
    by rw [htok, hst], by rw [htok, hcause]⟩

/-! ## What only shows outside the device -/

/-- The fields by which the device shows something outside: identifiers for it, the mailbox area, counters, packets and messages. -/
structure Outward where
  nextId : Nat
  mbox : Memory
  counters : List Counter
  outPkts : List (Nat × Packet)
  upset : Option Nat
  mgmtHeld : List Packet
  replies : List Bytes
  hostOut : List HostOut
  msixPend : List Nat

/-- The device with those fields changed, and nothing else. -/
def State.showing (s : State) (o : Outward) : State :=
  { s with nextId := o.nextId, mbox := o.mbox, counters := o.counters, outPkts := o.outPkts, upset := o.upset, mgmtHeld := o.mgmtHeld, replies := o.replies
           hostOut := o.hostOut, msixPend := o.msixPend }

/-- One state differs from another at most in what the device shows outside. -/
def State.Shows (s t : State) : Prop := ∃ o, t = s.showing o

/-- The fields of a state by which it shows something. -/
def State.outward (s : State) : Outward := ⟨s.nextId, s.mbox, s.counters, s.outPkts, s.upset, s.mgmtHeld, s.replies, s.hostOut, s.msixPend⟩

theorem State.Shows.refl (s : State) : s.Shows s := ⟨s.outward, rfl⟩

theorem State.Shows.trans {s t u : State} (h : s.Shows t) (k : t.Shows u) : s.Shows u := by
  obtain ⟨o, rfl⟩ := h
  obtain ⟨o', rfl⟩ := k
  exact ⟨o', rfl⟩

theorem State.count_shows (s : State) (core asid team event n : Nat) : s.Shows (s.count core asid team event n) :=
  ⟨{ s.outward with counters := (s.count core asid team event n).counters }, rfl⟩

theorem State.bump_shows (s : State) : s.Shows s.bump := ⟨{ s.outward with nextId := s.nextId + 1 }, rfl⟩
theorem State.mbox_shows (s : State) (m : Memory) : s.Shows { s with mbox := m } := ⟨{ s.outward with mbox := m }, rfl⟩
theorem State.upset_shows (s : State) (u : Option Nat) : s.Shows { s with upset := u } := ⟨{ s.outward with upset := u }, rfl⟩
theorem State.outPkts_shows (s : State) (ps : List (Nat × Packet)) : s.Shows { s with outPkts := ps } := ⟨{ s.outward with outPkts := ps }, rfl⟩
theorem State.mgmtHeld_shows (s : State) (ps : List Packet) : s.Shows { s with mgmtHeld := ps } := ⟨{ s.outward with mgmtHeld := ps }, rfl⟩
theorem State.replies_shows (s : State) (rs : List Bytes) : s.Shows { s with replies := rs } := ⟨{ s.outward with replies := rs }, rfl⟩
theorem State.hostOut_shows (s : State) (os : List HostOut) : s.Shows { s with hostOut := os } := ⟨{ s.outward with hostOut := os }, rfl⟩
theorem State.msixPend_shows (s : State) (vs : List Nat) : s.Shows { s with msixPend := vs } := ⟨{ s.outward with msixPend := vs }, rfl⟩

theorem State.logEvent_shows (s : State) (code asid : Nat) (data : Bytes) : s.Shows (s.logEvent code asid data) := s.mbox_shows _

/-! ### Packets -/

theorem State.dropPacket_shows (s : State) (p : Packet) : s.Shows (s.dropPacket p) := (s.logEvent_shows _ _ _).trans (State.count_shows _ _ _ _ _ _)

theorem State.egress_shows (s : State) (p : Packet) : s.Shows (s.egress p).1 := by
  have hsent : ∀ q r : Packet, s.Shows (if checkFails q then (State.countPacket { s with upset := none } q 0x105 1, r) else ({ s with upset := none }, q)).1 := by
    intro q r
    split
    · exact (s.upset_shows none).trans (State.count_shows _ _ _ _ _ _)
    · exact s.upset_shows none
  unfold State.egress
  split
  · exact .refl s
  · exact hsent _ _

theorem State.emitOn_shows (s : State) (port : Nat) (p : Packet) : s.Shows (s.emitOn port p) := by
  unfold State.emitOn
  split
  · exact ((s.egress_shows p).trans (State.outPkts_shows _ _)).trans (State.count_shows _ _ _ _ _ _)
  · exact s.dropPacket_shows p

theorem State.emit_shows (s : State) (p : Packet) : s.Shows (s.emit p) := by
  unfold State.emit
  split
  · exact s.emitOn_shows _ _
  · exact s.dropPacket_shows p

theorem State.send_shows (s : State) (p : Packet) (resend : Option Nat) : s.Shows (s.send p resend).1 := by
  unfold State.send
  split
  · exact .refl s
  · exact s.emit_shows _

theorem State.sendMgmt_shows (s : State) (dev subtype asid : Nat) (data : Bytes) : s.Shows (s.sendMgmt dev subtype asid data) := by
  unfold State.sendMgmt
  dsimp only
  split
  · exact s.bump_shows.trans (State.send_shows _ _ _)
  · exact s.bump_shows.trans (State.mgmtHeld_shows _ _)

theorem unpinAll_shows (asid : Nat) (ps : List Pin) (s : State) : s.Shows (unpinAll asid ps s) := by
  induction ps generalizing s with
  | nil => exact .refl s
  | cons p ps ih =>
    refine State.Shows.trans ?_ (ih _)
    split
    · exact .refl s
    · exact s.sendMgmt_shows _ _ _ _

/-! ### Replies and messages -/

theorem State.msix_shows (s : State) (vec : Nat) : s.Shows (s.msix vec) := by
  unfold State.msix
  split
  · exact s.hostOut_shows _
  · exact s.msixPend_shows _

theorem postReplies_shows (fuel : Nat) (s : State) : s.Shows (postReplies fuel s) := by
  induction fuel generalizing s with
  | zero => exact .refl s
  | succ fuel ih =>
    unfold postReplies
    split
    · exact .refl s
    · dsimp only
      split
      · exact ((((s.mbox_shows _).trans (State.replies_shows _ _)).trans (State.mbox_shows _ _)).trans (State.msix_shows _ _)).trans (ih _)
      · exact .refl s

theorem State.post_shows (s : State) (opc status seq asid : Nat) (payload : Bytes) : s.Shows (s.post opc status seq asid payload) :=
  (s.replies_shows _).trans (postReplies_shows _ _)

theorem answerAll_shows (asid : Nat) (qs : List Bytes) (s : State) : s.Shows (answerAll asid qs s) := by
  induction qs generalizing s with
  | nil => exact .refl s
  | cons q qs ih => exact (s.post_shows _ _ _ _ _).trans (ih _)

end Sys2Proof.Machine
end

section
/-!
SUPPORT. The steps of a launch, from the reading of its record to the end of its lease, each for a launch that stands where the step takes it up.
-/
namespace Sys2Proof.Machine
open Sys2Proof

/-! ## Reading the record and the image (R28, R30) -/

theorem InFlight.modLaunch {s : State} {g : Group} {o : Op} (h : InFlight s g o) (u : Nat) (f : Launch → Launch) : InFlight (s.modLaunch u f) g o :=
  ⟨h.op, h.group, h.live, h.bound, h.plain⟩

/-- A launch that no longer stands in its table leaves the finish of its command as it is. -/
theorem Finished.dropLaunch {t : State} {o : Op} {st : TokState} {cause : BitVec 8} (h : Finished t o st cause) (u : Nat) : Finished (t.dropLaunch u) o st cause := h

/-- A record of another version is rejected with cause 0x20, the first of R28. -/
theorem recordCause_of_version {bs : Bytes} (h : fieldLe bs 1 1 ≠ 1) : recordCause bs = 0x20 := by simp [recordCause, h]

/-- A launch without pins and without DONEB fails on its token. -/
theorem failLaunch_on_token (s : State) {y : Launch} {cause : Nat} (hc : y.isCtrl = false) (hp : y.pins = []) (hd : y.doneb = 0) :
    s.failLaunch y cause = ((s.modLaunch y.uid fun z => { z with pins := [], toPin := [], resid := none }).tellToken y cause).dropLaunch y.uid := by
  simp [State.failLaunch, hc, hd, State.releasePins, hp, unpinAll]

section
variable {s : State} {y : Launch} (hy : s.launch? y.uid = some y) (hended : y.ended = none)
include hy hended

theorem launchValidation_eq {o : Op} (ho : s.op? y.op = some o) (hph : y.phase = .reading) (hpin : s.pinned y = true) :
    (o.stage = 0 → execLaunchValidation y.uid s = .next (s.readRecord y o)) ∧ (o.stage = 2 → execLaunchValidation y.uid s = .next (s.readImage y o)) := by
  refine ⟨fun hs => ?_, fun hs => ?_⟩ <;> simp [execLaunchValidation, hy, ho, hph, hended, hpin, hs]

/-- A record of another version, without DONEB: the launch is gone, and its command is poisoned with cause 0x20 (R28). -/
theorem launchValidation_rejects {g : Group} {o : Op} {bs : Bytes} (hfl : InFlight s g o) (hop : y.op = o.id) (hph : y.phase = .reading) (hpin : s.pinned y = true)
    (hctrl : y.isCtrl = false) (hst : o.stage = 0) (hacq : o.acq = false) (hpins : y.pins = []) (hva : y.va % 256 = 0) (hget : s.engineGet o 0 y.va 256 = .ok bs)
    (hver : fieldLe bs 1 1 ≠ 1) (hdoneb : fieldLe bs 0x28 8 = 0) :
    ∃ t, execLaunchValidation y.uid s = .next t ∧ Finished t o .poison 0x20#8 ∧ t.launch? y.uid = none := by
  have hread : s.readRecord y o = (((s.modLaunch y.uid fun _ => y.withRecord bs).modLaunch y.uid fun z => { z with pins := [], toPin := [], resid := none }).finishOp
      o.id .poison 0x20#8).dropLaunch y.uid := by
    simp only [State.readRecord, hva, hget, hacq, recordCause_of_version hver, ne_eq, not_true, if_false, Bool.false_eq_true]
    rw [failLaunch_on_token _ (y := y.withRecord bs) hctrl hpins hdoneb]
    simp [State.tellToken, Launch.withRecord, hop]
  refine ⟨_, (launchValidation_eq hy hended (hop ▸ hfl.op) hph hpin).1 hst, ?_, ?_⟩
  · rw [hread]
    exact (((hfl.modLaunch _ _).modLaunch _ _).finishOp_finished _ _).dropLaunch _
  · rw [hread]
    exact State.launch?_dropLaunch _ _

/-- A valid image: the launch waits for its preconditions, whose pages are to be pinned (R26, R28). -/
theorem launchValidation_accepts {o : Op} {img : Bytes} (ho : s.op? y.op = some o) (hph : y.phase = .reading) (hpin : s.pinned y = true) (hst : o.stage = 2)
    (hget : s.distGet o y.asid 2 (fieldLe y.recd 8 8) y.img.size = .ok img) (hok : imageCause img (fieldLe y.recd 0x1C 4) = 0) :
    ∃ t, execLaunchValidation y.uid s = .next t ∧ t.launch? y.uid = some { y with
      phase := .waiting, entered := s.nextId, img := imageOf (fieldLe y.recd 8 8) img (fieldLe y.recd 0x1C 4), raw := img
      toPin := y.pres.map fun p => barrierPage p.bar false } := by
  refine ⟨_, (launchValidation_eq hy hended ho hph hpin).2 hst, ?_⟩
  simp only [State.readImage, hget, hok, ne_eq, not_true, if_false]
  exact State.launch?_modLaunch (s := s.bump) hy fun _ hx => hx

/-! ## Preconditions (R26) -/

omit hy hended in
/-- A precondition on a valid barrier of this device that has reached its phase, and not in poison, holds. -/
theorem preView_holds (o : Op) (i : Nat) {p : Precond} {e : Tlb} {pa : Nat} (hx : s.xlate y.asid p.bar rightsRd = some e) (hmig : e.mig = false)
    (ht : s.target e p.bar = .home pa) (hv : (s.barrierAt pa).valid = true) (hpois : (s.barrierAt pa).pois = false)
    (hr : phaseReached (s.barrierAt pa).phase p.phase.toNat = true) : s.preView y o i p = .holds := by
  simp [State.preView, hx, hmig, ht, preOf, Barrier.reached, Barrier.badCause, hv, hpois, hr]

omit hy hended in
/-- Where every view holds, none fails. -/
theorem firstFail_of_holds {α : Type} {f : α → PreView} {l : List α} (h : ∀ x ∈ l, f x = .holds) : firstFail (l.map f) = none := by
  induction l with
  | nil => rfl
  | cons x l ih =>
    rw [List.map_cons, h x (by simp)]
    exact ih fun w hw => h w (by simp [hw])

omit hy hended in
theorem all_holds {α : Type} {f : α → PreView} {l : List α} (h : ∀ x ∈ l, f x = .holds) : ((l.map f).all fun v => v == .holds) = true := by
  simpa using h

/-- When every precondition holds, the launch goes on to its lease. -/
theorem launchPreconditionsHeld_leases {o : Op} (ho : s.op? y.op = some o) (hph : y.phase = .waiting) (hpin : s.pinned y = true) (hteams : y.gx * y.gy * y.gz ≠ 0)
    (hall : ∀ p ∈ y.pres, ∀ i, s.preView y o i p = .holds) : execLaunchPreconditionsHeld y.uid s =
      .next (s.modLaunch y.uid fun z => { z with phase := .leasing, toPin := z.ranges ++ if y.doneb = 0 then [] else [barrierPage y.doneb true] }) := by
  have hstands : ¬(y.phase != .waiting || y.ended.isSome || !s.pinned y) = true := by simp [hph, hended, hpin]
  simp only [execLaunchPreconditionsHeld, hy, ho]
  rw [if_neg hstands, firstFail_of_holds, all_holds]
  · simp only [if_true, if_neg hteams]
  all_goals
    rintro ⟨p, i⟩ hm
    exact hall p (List.fst_mem_of_mem_zipIdx hm) i

end

/-! ## The lease (R54) -/

/-- Admission marks the launch ready; the distributor that looks at it next has no launch. -/
theorem letIn_launches (s : State) (l : Launch) : (s.letIn l).launches = ((s.tellToken l 0).modLaunch l.uid fun y => { y with phase := .ready }).launches := rfl

section
variable {s : State} {y : Launch} (hy : s.launch? y.uid = some y) (hended : y.ended = none) (hph : y.phase = .leasing)
include hy hended hph

/-- When its pages are pinned, the launch is admitted, and its command is done (R240). -/
theorem leasePin_admits {g : Group} {o : Op} (hfl : InFlight s g o) (hop : y.op = o.id) (hpin : s.pinned y = true) :
    ∃ t, execLeasePin y.uid s = .next t ∧ Finished t o .done 0#8 ∧ t.launch? y.uid = some { y with phase := .ready } := by
  have hempty : y.toPin = [] := by
    simp only [State.pinned, Bool.and_eq_true, List.isEmpty_iff] at hpin
    exact hpin.1
  have hexec : execLeasePin y.uid s = .next (s.letIn y) := by
    simp [execLeasePin, hy, hph, hended, hempty, State.pinsDone, hpin]
  obtain ⟨gs, os, cs, as, hframe⟩ := hfl.finishOp_frame .done 0#8
  have hfin := hfl.finishOp_finished .done 0#8
  have hkeep : (s.finishOp o.id .done 0#8).launch? y.uid = some y := by rw [hframe]; exact hy
  refine ⟨_, hexec, ?_, ?_⟩
  · simp only [State.letIn, State.tellToken, hop, if_true]
    exact hfin
  · rw [State.launch?_congr (letIn_launches s y), State.tellToken, if_pos rfl]
    exact State.launch?_modLaunch (hop ▸ hkeep) fun _ hx => hx

/-- One leaf of this device, with A set and the rights, is pinned at once; the rest of its extent is still to be. -/
theorem leasePin_pins {r : Range} {rest : List Range} {e : Tlb} {place : Nat} (hpins : y.toPin = r :: rest) (hhi : r.hi ≤ 2 ^ 57)
    (hwalk : s.walk y.asid r.lo = .leaf e place) (hgives : e.gives r.rights = true) (hmig : e.mig = false) (hdev : e.dev = s.devid) (ha : e.a = true)
    (hkv : e.kv = false) : execLeasePin y.uid s = .next (s.modLaunch y.uid fun z => { z with
      toPin := if min r.hi (e.va + e.span) < r.hi then { r with lo := min r.hi (e.va + e.span) } :: rest else rest
      pins := z.pins ++ [{ dev := e.dev, wr := r.wr, frame := (e.pa + (r.lo - e.va)) / 65536 * 65536
                           span := min r.hi (e.va + e.span) - r.lo / 65536 * 65536 }] }) := by
  have hstands : ¬(y.phase == .retired || y.phase == .ready || (y.ended.isSome && y.phase != .failed)) = true := by simp [hph, hended]
  simp only [execLeasePin, hy, hpins]
  rw [if_neg hstands, if_pos hhi, hwalk]
  simp [hgives, hmig, State.pinLeaf, hdev, ha, hkv]

end

/-! ## Retirement (R401, R402) -/

/-- A team's leaving of its core, and the answers to the requests that wait for it, touch no memory, team or group. -/
theorem leaving_keeps (s : State) (asid core asid' : Nat) :
    let t := (s.leaveCore asid core).wantPlacement.stopAnswered asid'
    t.mem = s.mem ∧ t.teams = s.teams ∧ t.groups = s.groups := by
  have hleave : (s.leaveCore asid core).mem = s.mem ∧ (s.leaveCore asid core).teams = s.teams ∧ (s.leaveCore asid core).groups = s.groups := by
    unfold State.leaveCore
    split
    · exact ⟨rfl, rfl, rfl⟩
    · exact ⟨rfl, rfl, rfl⟩
  have hstop : ∀ t : State, (t.stopAnswered asid').mem = t.mem ∧ (t.stopAnswered asid').teams = t.teams ∧ (t.stopAnswered asid').groups = t.groups := by
    intro t
    unfold State.stopAnswered
    split
    · exact ⟨rfl, rfl, rfl⟩
    · split
      · exact ⟨rfl, rfl, rfl⟩
      · next c _ _ =>
        obtain ⟨o, ho⟩ := answerAll_shows asid' c.stopAns (t.modCtx asid' fun c => { c with stopAns := [] })
        rw [ho]
        exact ⟨rfl, rfl, rfl⟩
  obtain ⟨hm, ht, hg⟩ := hstop (s.leaveCore asid core).wantPlacement
  obtain ⟨hm', ht', hg'⟩ := hleave
  exact ⟨hm.trans hm', ht.trans ht', hg.trans hg'⟩

/-- The groups of a team are groups of the device that belong to it. -/
theorem State.groupsOf_mem {s : State} {team : Nat} {g : Group} (h : g ∈ s.groupsOf team) : g ∈ s.groups ∧ g.team = team := by
  obtain ⟨i, -, hf⟩ := List.mem_filterMap.mp h
  have hp := List.find?_some hf
  simp only [Bool.and_eq_true, beq_iff_eq] at hp
  exact ⟨List.mem_of_find?_eq_some hf, hp.1⟩

/-- A team changed is found as the change leaves it. -/
theorem find?_team_changed {s : State} {tm : Team} {f : Team → Team} (h : s.team? tm.uid = some tm) (hf : ∀ x, (f x).uid = x.uid) :
    (mapIf (fun x => x.uid == tm.uid) f s.teams).find? (fun x => x.uid == tm.uid) = some (f tm) := by
  refine (find?_mapIf h fun x _ _ => ?_).trans (by simp)
  simp [hf]

/-- A team whose groups are finished, and whose storage nothing uses, retires (R401): its groups have left the core. -/
theorem teamRetire_frees {s : State} {y : Launch} {tm : Team} (hy : s.launch? tm.launch = some y) (hended : y.ended = none) (ht : s.team? tm.uid = some tm)
    (hres : tm.phase = .resident) (hfin : ∀ g ∈ s.groups, g.team = tm.uid → g.finished = true) (huse : s.ops.any (s.usesTeam tm.uid) = false) :
    ∃ t, execTeamRetire tm.uid s = .next t ∧ t.mem = s.mem ∧ (∃ x, t.team? tm.uid = some x ∧ x.phase = .retired ∧ x.stop = none) ∧
      ∀ g ∈ t.groups, g.team = tm.uid → g.resident = false ∧ g.finished = true := by
  have hall : ((s.groupsOf tm.uid).all fun g => g.finished) = true := List.all_eq_true.mpr fun g hg => by
    obtain ⟨hmem, hteam⟩ := State.groupsOf_mem hg
    exact hfin g hmem hteam
  refine ⟨s.freeTeam tm, by simp [execTeamRetire, ht, hy, hended, hres, hall, huse], ?_⟩
  obtain ⟨hm, hteams, hgroups⟩ := leaving_keeps { s with
    teams := mapIf (fun x => x.uid == tm.uid) (fun x => { x with phase := .retired, stop := none }) s.teams
    groups := mapIf (fun g => g.team == tm.uid) (fun g => { g with resident := false, finished := true }) s.groups
    absent := s.absent.filter fun (a : Nat × Nat × Nat) => !(a.1 == tm.core && decide (tm.spBase ≤ a.2.1 ∧ a.2.1 < tm.spBase + tm.spLines)) }
    tm.asid tm.core tm.asid
  refine ⟨hm, ⟨{ tm with phase := .retired, stop := none }, ?_, rfl, rfl⟩, fun g hg hteam => ?_⟩
  · rw [State.team?, State.freeTeam, hteams]
    exact find?_team_changed ht (f := fun x => { x with phase := .retired, stop := none }) fun _ => rfl
  · rw [State.freeTeam, hgroups] at hg
    obtain ⟨x, -, rfl⟩ := List.mem_map.mp hg
    split at hteam
    · next hx => simp [hx]
    · next hx => simp [hteam] at hx

theorem releaseAll_of_empty {s : State} (h : s.cc = []) : s.releaseAll = s := by simp [State.releaseAll, h]

/-- A page of this device has no place on another. -/
theorem target_near {s : State} {e : Tlb} (hdev : e.dev = s.devid) (va dev pa : Nat) : s.target e va ≠ .remote dev pa := by
  simp only [State.target, hdev, bne_self_eq_false, Bool.false_eq_true, if_false]
  repeat' split
  all_goals simp

/-- An update to a barrier of this device, whose page does not migrate, is queued for its home here (R349). -/
theorem sendUpdate_here {s : State} {va : Nat} {u : BUpdate} {e : Tlb} (hx : s.xlate u.asid va rightsRdWr = some e) (hmig : e.mig = false) (hdev : e.dev = s.devid)
    (grp : Nat) : s.sendUpdate va u grp = ({ s with updates := s.updates ++ [{ u with dev := s.devid, grp := grp, bar := va, pa := e.addr va }] }, 0#8) := by
  simp only [State.sendUpdate, hx, hmig, Bool.false_eq_true, if_false]
  split
  · next dev pa ht => exact absurd ht (target_near hdev va dev pa)
  · rfl

/-- The arrival that a launch which is done makes on its DONEB (R402 step 2). -/
def doneArrival (s : State) (y : Launch) (e : Tlb) : BUpdate := { pa := e.addr y.doneb, arr := 1, asid := y.asid, dev := s.devid, bar := y.doneb }

section
variable {s : State} {y : Launch} (hy : s.launch? y.uid = some y)
include hy

/-- A launch that is done releases what its caches hold, sends its arrival to DONEB, and is retired (R402 steps 1 and 2). -/
theorem launchRetire_arrives {e : Tlb} (hended : y.ended = none) (hcc : s.cc = []) (hph : y.phase = .ready) (hteams : s.teamsDone y = true)
    (hwork : s.workDone y.uid = true) (hd : y.doneb ≠ 0) (halign : y.doneb % 32 = 0) (hx : s.xlate y.asid y.doneb rightsRdWr = some e) (hmig : e.mig = false)
    (hdev : e.dev = s.devid) : ∃ t u, execLaunchRetire y.uid s = .next t ∧ t.launch? y.uid = some { y with phase := .retired } ∧
      t.updates = s.updates ++ [u] ∧ u.pa = e.addr y.doneb ∧ u.va = 0 ∧ u.arr = 1 ∧ u.cause = none ∧ u.asid = y.asid := by
  have hexec : execLaunchRetire y.uid s = .next (s.completeLaunch y) := by simp [execLaunchRetire, hy, hph, hteams, hwork]
  have hdone : s.completeLaunch y = State.modLaunch { s with updates := s.updates ++ [doneArrival s y e] } y.uid fun z => { z with phase := .retired } := by
    simp only [State.completeLaunch, releaseAll_of_empty hcc, hd, halign, hended, hph, ne_eq, not_true, or_false, if_false, Option.isSome_none, Bool.false_eq_true,
      beq_self_eq_true, if_true]
    rw [sendUpdate_here (e := e) hx hmig hdev]
    rfl
  refine ⟨_, doneArrival s y e, hexec, ?_, ?_, rfl, rfl, rfl, rfl, rfl⟩
  · rw [hdone]
    exact State.launch?_modLaunch (s := { s with updates := s.updates ++ [doneArrival s y e] }) hy fun _ hx => hx
  · rw [hdone]
    rfl

/-- A retired launch whose arrival is made ends its lease: nothing of it is left (R402 steps 3 to 5). -/
theorem launchRetire_ends (hph : y.phase = .retired) (hout : s.arrivalOut y.asid = false) (htear : s.tearing y.asid = false) :
    execLaunchRetire y.uid s = .next (s.endLease y) := by
  simp [execLaunchRetire, hy, hph, hout, htear]

end

/-- A launch's pins released: launches keep their identifiers and contexts, and else only the packets that say so differ. -/
theorem releasePins_eq (s : State) (l : Launch) :
    ∃ o, s.releasePins l = (s.showing o).modLaunch l.uid fun y => { y with pins := [], toPin := [], resid := none } := by
  obtain ⟨o, ho⟩ := unpinAll_shows l.asid l.pins s
  exact ⟨o, by rw [State.releasePins, ho]⟩

/-- What the end of a launch's lease leaves, where no frame waits to be retired. -/
structure LeaseEnded (s t : State) (l : Launch) : Prop where
  groups   : ∀ g ∈ t.groups, g.launch ≠ l.uid
  teams    : ∀ x ∈ t.teams, x.launch ≠ l.uid
  launches : ∀ x ∈ t.launches, x.uid ≠ l.uid ∧ ∃ x' ∈ s.launches, x'.uid = x.uid ∧ x'.asid = x.asid
  frames   : t.toRetire = []

/-- Where no frame waits to be retired, none is. -/
theorem retireFrames_none {s t : State} (h : s.toRetire = []) : retireFrames s.toRetire t = t := by rw [h]; rfl

theorem endLease_ends {s : State} (l : Launch) (hr : s.toRetire = []) : LeaseEnded s (s.endLease l) l := by
  obtain ⟨o, ho⟩ := releasePins_eq s l
  have heq : s.endLease l = _ := retireFrames_none (show (s.releasePins l).toRetire = [] by rw [ho]; exact hr)
  rw [heq, ho]
  refine ⟨fun g hg => ?_, fun x hx => ?_, fun x hx => ?_, hr⟩
  · simpa using (List.mem_filter.mp hg).2
  · simpa using (List.mem_filter.mp hx).2
  · obtain ⟨hmem, hne⟩ := List.mem_filter.mp hx
    obtain ⟨x', hx', rfl⟩ := List.mem_map.mp hmem
    refine ⟨by simpa using hne, x', hx', ?_⟩
    split
    · exact ⟨rfl, rfl⟩
    · exact ⟨rfl, rfl⟩

/-- A launch whose lease has ended is found no more. -/
theorem LeaseEnded.launch?_none {s t : State} {l : Launch} (h : LeaseEnded s t l) : t.launch? l.uid = none :=
  List.find?_eq_none.mpr fun x hx => by simpa using (h.launches x hx).1

/-! ## Teardown (R405) -/

/-- The leases of several launches end: no launch is left but others that there were, and no frame waits to be retired. -/
theorem endLeases_ends (ls : List Launch) {s : State} (hr : s.toRetire = []) : (endLeases ls s).toRetire = [] ∧
    ∀ x ∈ (endLeases ls s).launches, (∀ l ∈ ls, x.uid ≠ l.uid) ∧ ∃ x' ∈ s.launches, x'.uid = x.uid ∧ x'.asid = x.asid := by
  induction ls generalizing s with
  | nil => exact ⟨hr, fun x hx => ⟨by simp, x, hx, rfl, rfl⟩⟩
  | cons l ls ih =>
    have hl := endLease_ends l hr
    obtain ⟨hfr, hrest⟩ := ih hl.frames
    refine ⟨hfr, fun x hx => ?_⟩
    obtain ⟨hne, x1, hx1, hu1, ha1⟩ := hrest x hx
    obtain ⟨hne1, x0, hx0, hu0, ha0⟩ := hl.launches x1 hx1
    refine ⟨?_, x0, hx0, hu0.trans hu1, ha0.trans ha1⟩
    simpa using ⟨hu1 ▸ hne1, hne⟩

/-- When the leases of a context's launches have ended, no launch of it is left. -/
theorem endLeases_of_context {s : State} (asid : Nat) (hr : s.toRetire = []) :
    ∀ x ∈ (endLeases (s.launches.filter fun l => l.asid == asid) s).launches, x.asid ≠ asid := by
  intro x hx hasid
  obtain ⟨hne, x', hx', hu, ha⟩ := (endLeases_ends _ hr).2 x hx
  exact hne x' (by simp [hx', ha, hasid]) hu.symm

/-- Nothing of a context is left: neither the context nor a launch, a translation or an operation of it. -/
structure ContextGone (t : State) (asid : Nat) : Prop where
  context  : t.ctx? asid = none
  launches : ∀ l ∈ t.launches, l.asid ≠ asid
  tlb      : ∀ e ∈ t.tlb, e.asid ≠ asid
  ops      : ∀ o ∈ t.ops, o.asid ≠ asid

/-- What the device shows outside brings nothing of a context back. -/
theorem ContextGone.shows {s t : State} {asid : Nat} (h : ContextGone s asid) (k : s.Shows t) : ContextGone t asid := by
  obtain ⟨o, rfl⟩ := k
  exact ⟨h.context, h.launches, h.tlb, h.ops⟩

/-- The answer to a request that is still to create the context brings nothing of it back. -/
theorem contextGone_replied {s : State} {asid : Nat} (q : Option Bytes) (h : ContextGone s asid) :
    ContextGone (match q with
      | some q => s.post (fieldLe q 0 2) 1 (fieldLe q 4 4) (fieldLe q 8 2) []
      | none => s) asid := by
  cases q with
  | none => exact h
  | some q => exact h.shows (State.post_shows _ _ _ _ _ _)

/-- A context that is torn down and quiescent, its launches retired and their arrivals made, is gone (R405 steps 4 to 7). -/
theorem teardownRelease_ends {s : State} {c : Context} (hr : s.toRetire = []) (hc : s.ctx? c.asid = some c) (htear : c.tearing = true)
    (hretired : ∀ l ∈ s.launches, l.asid = c.asid → l.phase = .retired) (hout : s.arrivalOut c.asid = false)
    (hquiet : ∀ ns ≤ max 2000 (1000 * s.tpod), s.quietFor c.asid ns = true) : ∃ t, execTeardownRelease c.asid s = .next t ∧ ContextGone t c.asid := by
  have hq : s.quietFor c.asid (if s.holdsAway c.asid then max 2000 (1000 * s.tpod) else 2000) = true := hquiet _ (by split <;> omega)
  have hready : ¬(!c.tearing || s.launches.any (fun l => l.asid == c.asid && l.phase != .retired) || s.arrivalOut c.asid ||
      !s.quietFor c.asid (if s.holdsAway c.asid then max 2000 (1000 * s.tpod) else 2000)) = true := by
    simpa [htear, hout, hq] using hretired
  simp only [execTeardownRelease, hc]
  rw [if_neg hready]
  refine ⟨_, rfl, ContextGone.shows ?_ (answerAll_shows _ _ _)⟩
  rw [retireFrames_none (by exact (endLeases_ends _ hr).1)]
  refine contextGone_replied c.creating ⟨?context, endLeases_of_context c.asid hr, ?tlb, ?ops⟩
  case context => exact List.find?_eq_none.mpr fun x hx => by simpa using (List.mem_filter.mp hx).2
  case tlb => exact fun e he => by simpa using (List.mem_filter.mp he).2
  case ops => exact fun o ho => by simpa using (List.mem_filter.mp ho).2

/-- Settles O47: one clause for each step, from the reading of the record to the teardown of the context. -/
theorem launchesGoOn : Obligations.LaunchesGoOn := by
  unfold Obligations.LaunchesGoOn
  intro s y hy hended hctrl hcc hretire
  refine ⟨fun g o hfl hop hph hpin => ⟨?rejected, ?accepted⟩, ?preconditions, fun hph => ⟨?admitted, ?pinned⟩, ?teamRetires, ?arrives, ?ends, ?teardown⟩
  case rejected => exact fun bs hst hacq hpins hva hget hver hdoneb =>
    launchValidation_rejects hy hended hfl hop hph hpin hctrl hst hacq hpins hva hget hver hdoneb
  case accepted =>
    intro img hst hget hok
    obtain ⟨t, hexec, hl⟩ := launchValidation_accepts hy hended (hop ▸ hfl.op) hph hpin hst hget hok
    exact ⟨t, _, hexec, hl, rfl, rfl, rfl⟩
  case preconditions =>
    intro o ho hph hpin hteams hpres
    refine ⟨_, launchPreconditionsHeld_leases hy hended ho hph hpin hteams fun p hp i => ?_, rfl, State.launch?_modLaunch hy fun _ hx => hx⟩
    obtain ⟨e, pa, hx, hmig, ht, hv, hpois, hr⟩ := hpres p hp
    exact preView_holds o i hx hmig ht hv hpois hr
  case admitted => exact fun g o hfl hop hpin => leasePin_admits hy hended hph hfl hop hpin
  case pinned => exact fun r rest e place => leasePin_pins hy hended hph
  case teamRetires => exact fun tm ht hl hres hfin huse => teamRetire_frees (hl ▸ hy) hended ht hres hfin huse
  case arrives => exact fun e hph hteams hwork hd halign hx hmig hdev => launchRetire_arrives hy hended hcc hph hteams hwork hd halign hx hmig hdev
  case ends =>
    intro hph hout htear
    have hgone := endLease_ends y hretire
    exact ⟨_, launchRetire_ends hy hph hout htear, hgone.launch?_none, hgone.groups, hgone.teams⟩
  case teardown =>
    intro c hc htear hretired hout hquiet
    obtain ⟨t, hexec, hgone⟩ := teardownRelease_ends hretire hc htear hretired hout hquiet
    exact ⟨t, hexec, hgone.context, hgone.launches, hgone.tlb, hgone.ops⟩

end Sys2Proof.Machine
end

section
/-!
SUPPORT. The crossbar words: a permutation entry gives the bytes that it names, `SCAN` is the left fold, the integer tree of `RDX` is that fold as its
operators are associative, and a crossbar word whose source registers are free leaves its results pending.
-/
namespace Sys2Proof.Machine
open Sys2Proof Sys2Proof.Claims

/-! ## The integer operators of a reduction (R185) -/

/-- Keeping the operand with the smaller key, the later of two equal ones, is associative. -/
theorem keepLeast_assoc {α : Type} (k : α → Int) (x y z : α) :
    (if k (if k x < k y then x else y) < k z then (if k x < k y then x else y) else z) =
      if k x < k (if k y < k z then y else z) then x else (if k y < k z then y else z) := by
  by_cases hxy : k x < k y <;> by_cases hyz : k y < k z <;> simp only [hxy, hyz, if_true, if_false]
  · rw [if_pos (by omega)]
  · rw [if_neg (by omega)]

/-- Each integer operator of `SCAN` and `RDX` is associative: the minima keep the operand with the least value, the maxima that with the least negated
value. -/
theorem foldI32_assoc (o : Nat) (x y z : Word) : foldI32 o (foldI32 o x y) z = foldI32 o x (foldI32 o y z) := by
  match o with
  | 0 => exact BitVec.add_assoc x y z
  | 1 => simpa [foldI32, BitVec.slt_iff_toInt_lt] using keepLeast_assoc BitVec.toInt x y z
  | 2 => simpa [foldI32, BitVec.slt_iff_toInt_lt] using keepLeast_assoc (fun w : Word => -w.toInt) x y z
  | 3 => simpa [foldI32, BitVec.ult_iff_lt, BitVec.lt_def] using keepLeast_assoc (fun w : Word => (w.toNat : Int)) x y z
  | 4 => simpa [foldI32, BitVec.ult_iff_lt, BitVec.lt_def] using keepLeast_assoc (fun w : Word => -(w.toNat : Int)) x y z
  | 5 => exact BitVec.and_assoc x y z
  | 6 => exact BitVec.or_assoc x y z
  | _ + 7 => exact BitVec.xor_assoc x y z

/-- The fold of an integer operator raises no flag. -/
theorem folded_int (o : Nat) (v : Word) (vs : List Word) : folded o 9 (v :: vs) = (vs.foldl (foldI32 o) v, 0#5) :=
  List.foldl_hom (fun w => (w, 0#5)) fun w y => by simp [foldOp]

/-! ## The reduction tree (R185) -/

/-- The fold of an integer operator over values, none of no value: what a node of the reduction tree holds. -/
def foldSome (o : Nat) : List Word → Option (Word × FFlags)
  | [] => none
  | v :: vs => some (folded o 9 (v :: vs))

/-- The register contents of those of `n` lanes from `lo` that take part, in lane order. -/
def laneWords (g : Group) (a : Nat) (ls : List Nat) (lo n : Nat) : List Word :=
  ((List.range' lo n).filter fun l => ls.contains l).map fun l => (g.thread l).vget a

theorem laneWords_add (g : Group) (a : Nat) (ls : List Nat) (lo m n : Nat) :
    laneWords g a ls lo (m + n) = laneWords g a ls lo m ++ laneWords g a ls (lo + m) n := by
  simp [laneWords, ← List.range'_append_1]

/-- Two halves combine to the fold over the one and then the other. -/
theorem combine_foldSome (o : Nat) (xs ys : List Word) : combine o 9 (foldSome o xs) (foldSome o ys) = foldSome o (xs ++ ys) := by
  cases xs with
  | nil => rfl
  | cons x xs =>
    cases ys with
    | nil => rw [List.append_nil]; rfl
    | cons y ys =>
      have : Std.Associative (foldI32 o) := ⟨foldI32_assoc o⟩
      show some (foldI32 o (folded o 9 (x :: xs)).1 (folded o 9 (y :: ys)).1, (folded o 9 (x :: xs)).2 ||| (folded o 9 (y :: ys)).2 ||| 0#5) =
        some (folded o 9 (x :: (xs ++ y :: ys)))
      simp only [folded_int, List.foldl_append, List.foldl_cons]
      rw [List.foldl_assoc]
      rfl

/-- A node of the reduction tree holds the fold over the lanes below it. -/
theorem rdxTree_eq_foldSome (g : Group) (a o : Nat) (ls : List Nat) (k lo : Nat) : rdxTree g a o 9 ls k lo = foldSome o (laneWords g a ls lo (2 ^ k)) := by
  induction k generalizing lo with
  | zero =>
    unfold rdxTree laneWords
    rw [Nat.pow_zero, List.range'_one, List.filter_cons, List.filter_nil]
    cases ls.contains lo <;> rfl
  | succ k ih => rw [rdxTree, ih, ih, combine_foldSome, ← laneWords_add, Nat.pow_succ, Nat.mul_two]

/-- Settles O10: a node of the tree holds the fold over its lanes, and some lane of the 32 takes part. -/
theorem integerReductionIsTheFold : Obligations.IntegerReductionIsTheFold := by
  unfold Obligations.IntegerReductionIsTheFold
  intro g a o ls _ ⟨l, hl, hl32⟩
  have hne : laneWords g a ls 0 32 ≠ [] := by
    have hmem : l ∈ (List.range' 0 32).filter fun l => ls.contains l := by simp [hl, hl32]
    exact List.ne_nil_of_mem (List.mem_map_of_mem hmem)
  rw [rdxTree_eq_foldSome, List.range_eq_range']
  show foldSome o (laneWords g a ls 0 32) = some (folded o 9 (laneWords g a ls 0 32))
  obtain ⟨v, vs, hvs⟩ := List.exists_cons_of_ne_nil hne
  rw [hvs]
  rfl

/-! ## `SCAN` is the left fold (R185) -/

theorem scanFold_eq_foldl (o f : Nat) (acc : Word × FFlags) (ys : List Word) :
    scanFold o f acc ys = ys.foldl (fun x y => ((foldOp o f x.1 y).1, x.2 ||| (foldOp o f x.1 y).2)) acc := by
  induction ys generalizing acc with
  | nil => rfl
  | cons y ys ih => exact ih _

theorem scanResult_eq_folded (g : Group) (a o f : Nat) (ex : Bool) (ls : List Nat) (lane : Nat) : scanResult g a o f ex ls lane =
    folded o f ((ls.filter fun u => if ex then decide (u < lane) else decide (u ≤ lane)).map fun u => (g.thread u).vget a) := by
  unfold scanResult
  cases (ls.filter fun u => if ex then decide (u < lane) else decide (u ≤ lane)).map fun u => (g.thread u).vget a with
  | nil => rfl
  | cons v vs => exact scanFold_eq_foldl o f _ vs

/-- The operator and format pairs of R185 pass the check of R99. -/
theorem foldOk_of_integer_or_f32 {o f : BitVec 4} (h : f = 9#4 ∧ o.toNat < 8 ∨ f = 0#4 ∧ o.toNat < 3) : foldOk o.toNat f.toNat = true := by
  rcases h with ⟨rfl, ho⟩ | ⟨rfl, ho⟩ <;> simp [foldOk, ho]

/-! ## Permutation entries (R182) -/

theorem bitsOf_zero_lo (x w : Nat) : bitsOf x 0 w = x % 2 ^ w := by rw [bitsOf, Nat.pow_zero, Nat.div_one]

theorem toNat_extractByte (y : Word) (i : Nat) : (y.extractLsb' i 8).toNat = bitsOf y.toNat i 8 := by
  rw [BitVec.extractLsb'_toNat, Nat.shiftRight_eq_div_pow]
  rfl

/-- A byte added above the bytes of a number stands beside them. -/
theorem ofNat_add_byte (x j : Nat) (b : BitVec 8) (hx : x < 2 ^ (8 * j)) :
    BitVec.ofNat 32 (x + b.toNat * 2 ^ (8 * j)) = BitVec.ofNat 32 x ||| b.setWidth 32 <<< (8 * j) := by
  have hsum : x + b.toNat * 2 ^ (8 * j) = x ||| b.toNat <<< (8 * j) := by
    rw [← Nat.shiftLeft_eq, Nat.add_comm, Nat.shiftLeft_add_eq_or_of_lt hx, Nat.or_comm]
  apply BitVec.eq_of_toNat_eq
  have hb : b.toNat % 2 ^ 32 = b.toNat := Nat.mod_eq_of_lt (by omega)
  simp only [hsum, BitVec.toNat_ofNat, BitVec.toNat_or, BitVec.toNat_shiftLeft, BitVec.toNat_setWidth, hb, Nat.or_mod_two_pow]

/-- Four bytes summed at their places are the four bytes side by side. -/
theorem ofNat_fourBytes (b : Nat → BitVec 8) : BitVec.ofNat 32 ((List.range 4).foldl (fun r j => r + (b j).toNat * 2 ^ (8 * j)) 0) =
    (b 0).setWidth 32 <<< (8 * 0) ||| (b 1).setWidth 32 <<< (8 * 1) ||| (b 2).setWidth 32 <<< (8 * 2) ||| (b 3).setWidth 32 <<< (8 * 3) := by
  have h0 := (b 0).isLt
  have h1 := (b 1).isLt
  have h2 := (b 2).isLt
  rw [show List.range 4 = [0, 1, 2, 3] from rfl, List.foldl_cons, List.foldl_cons, List.foldl_cons, List.foldl_cons, List.foldl_nil,
    ofNat_add_byte _ 3 _ (by omega), ofNat_add_byte _ 2 _ (by omega), ofNat_add_byte _ 1 _ (by omega), ofNat_add_byte _ 0 _ (by omega), BitVec.zero_or]

theorem applyEntry_eq_permuted (g : Group) (a e : Nat) : applyEntry g a e = permuted g a e := by
  unfold applyEntry permuted
  split
  · rfl
  · simp only [← toNat_extractByte]
    exact ofNat_fourBytes fun j => ((g.thread (bitsOf e 8 5)).vget a).extractLsb' (8 * bitsOf e (2 * j) 2) 8

theorem entrySources_lt {ls : List Nat} {e : Nat → Nat} {l : Nat} (h : l ∈ entrySources ls e) : l < 32 := by
  obtain ⟨u, -, rfl⟩ := List.mem_map.mp h
  exact Nat.mod_lt _ (by decide)

/-! ## The lanes of `SHFL` (R184) -/

theorem shuffled_lt {n l : Nat} (m : Nat) (hn : n < 32) (hl : l < 32) : shuffled m n l < 32 := by
  unfold shuffled
  repeat' split
  all_goals omega

theorem shflSource_eq_shuffled {m n l : Nat} (hm : m < 4) (hn : n < 32) (hl : l < 32) : shflSource m n l = shuffled m n l := by
  match m, hm with
  | 0, _ => simp [shflSource, shuffled, hn]
  | 1, _ =>
    by_cases h : n ≤ l
    · simp [shflSource, shuffled, h, show l - n < 32 by omega]
    · simp [shflSource, shuffled, h]
  | 2, _ => simp [shflSource, shuffled]
  | 3, _ => rfl

/-! ## Crossbar words (R181) -/

theorem partLanes_subset {s : State} {x : Issue} {guard : Nat} {regs : List Nat} {l : Nat} (h : l ∈ partLanes s x guard regs) : l ∈ x.lanes :=
  (List.mem_filter.mp h).1

/-- A crossbar word of which no source register is the target of a PEND token leaves a result pending in each lane that takes part (R121, R181). -/
theorem Issues.crossWord {s : State} {g : Group} {ls : List Nat} (h : Issues s g ls) (op : Nat) (st : Bool) (guard a d : Nat) (own sources : List Nat)
    (f : Nat → Word × FFlags) (r : Nat → Thread → Word × FFlags) (hfree : FreeRegs s g ls own) (hu : Unlanded st g ls)
    (hs : ∀ l ∈ sources, l < 32) (ht : ∀ l < 32, trackers s g.uid l a = []) (hr : ∀ l ∈ ls, f l = r l (g.thread l)) :
    Machine.crossWord s (s.issueFor g ls op st) guard a d own sources f = s.bump.onLanes g ls fun l t => nextThread s g ls st
      (if guardOn g ls guard t then t.withPending [pendingOf s g ls op (.v d) (r l t)] else t) := by
  have hnone : (sources.flatMap fun l => trackers s (s.issueFor g ls op st).g.uid l a) = [] := List.flatMap_eq_nil_iff.mpr fun l hl => ht l (hs l hl)
  unfold Machine.crossWord
  rw [hnone]
  refine (h.longWord op st guard own d (fun l _ => f l) hfree hu).trans (onLanes_congr h.size fun l hl _ => ?_)
  rw [hr l hl]

/-- A word whose checks are those of its hints, its codes and single vector registers within the budget passes them (R99). -/
theorem Need.detail_regs {s : State} {g : Group} {ls : List Nat} {op : Nat} {st : Bool} {c : Bool} {rs : List (Nat × Nat)} (ho : op < 256)
    (hacc : acceptsHints op (hintsOf g ls) = true) (hc : c = true) (hv : ∀ r ∈ rs, r.2 = 1 ∧ r.1 < s.budget g) :
    ({ codeOk := c, vregs := rs } : Need).detail (s.issueFor g ls op st) = none :=
  Need.detail_none (issueFor_accepts ho hacc) hc (by simp) (fun (r, _) hr => by
    obtain ⟨rfl, hb⟩ := hv _ hr
    exact ⟨aligned_one r, hb⟩) rfl

/-- A crossbar word that passes its checks, on free registers: the results `r` that its lanes leave pending are what the word computes for them. -/
theorem WordReady.crossbarWord {s : State} {g : Group} {ls : List Nat} {op : Nat} {st : Bool} {c : Bool} {rs : List (Nat × Nat)} {guard a d : Nat}
    {own : List Nat} {sources : Issue → State → List Nat} {f : Issue → State → Nat → Word × FFlags} (h : WordReady s g ls op st) (ho : op < 256)
    (hc : c = true) (hv : ∀ r ∈ rs, r.2 = 1 ∧ r.1 < s.budget g) (hfree : FreeRegs s g ls own) (ht : ∀ l < 32, trackers s g.uid l a = [])
    (hs : ∀ l ∈ sources (s.issueFor g ls op st) s, l < 32) (r : Nat → Thread → Word × FFlags)
    (hr : ∀ l ∈ ls, f (s.issueFor g ls op st) s l = r l (g.thread l)) :
    runWord s op st (fun _ => { codeOk := c, vregs := rs }) (fun x s => crossWord s x guard a d own (sources x s) (f x s)) =
      .next (s.bump.onLanes g ls fun l t => nextThread s g ls st
        (if guardOn g ls guard t then t.withPending [pendingOf s g ls op (.v d) (r l t)] else t)) := by
  rw [h.issues.runWord _ _ _ _ (Need.detail_regs ho h.accepts hc hv)]
  exact congrArg _ (h.issues.crossWord _ _ _ _ _ _ _ _ r hfree h.unlanded hs ht hr)

/-- Settles O9: each word is a crossbar word; what remains is that its source lanes are lanes and what it computes for each, which the lemmas above give. -/
theorem crossbarWordsPend : Obligations.CrossbarWordsPend := by
  unfold Obligations.CrossbarWordsPend
  intro s g ls st d a hd ha hfree ht
  have hvregs : ∀ r ∈ [(d.toNat, 1), (a.toNat, 1)], r.2 = 1 ∧ r.1 < s.budget g := by simp [hd, ha]
  refine ⟨?xpat, ?xperm, ?shfl, ?scan, ?rdx⟩
  case xpat =>
    intro n h
    rw [exec_xpat, execXpat]
    refine h.crossbarWord (by decide) rfl hvregs hfree ht ?_ (fun l _ => (permuted g a.toNat (s.patEntry g.core n.toNat l), 0#5)) fun l _ => ?_
    · exact fun l hl => entrySources_lt hl
    · rw [← applyEntry_eq_permuted]
      rfl
  case xperm =>
    intro b gd h hb hfb
    have hvregs' : ∀ r ∈ [(d.toNat, 1), (a.toNat, 1), (b.toNat, 1)], r.2 = 1 ∧ r.1 < s.budget g := by simp [hd, ha, hb]
    rw [exec_xperm, execXperm]
    refine h.crossbarWord (by decide) rfl hvregs' (hfree.append hfb) ht ?_
      (fun _ t => (permuted g a.toNat ((t.vget b.toNat).toNat % 65536), 0#5)) fun l _ => ?_
    · exact fun l hl => entrySources_lt hl
    · have hlow : bitsOf ((g.thread l).vget b.toNat).toNat 0 16 = ((g.thread l).vget b.toNat).toNat % 65536 := bitsOf_zero_lo _ 16
      rw [← hlow, ← applyEntry_eq_permuted]
      rfl
  case shfl =>
    intro m n h
    have hsrc : ∀ l ∈ ls, shflSource m.toNat n.toNat l = shuffled m.toNat n.toNat l :=
      fun l hl => shflSource_eq_shuffled m.isLt n.isLt (h.issues.lanes l hl)
    rw [exec_shfl, execShfl]
    refine h.crossbarWord (by decide) rfl hvregs hfree ht ?_ (fun l _ => ((g.thread (shuffled m.toNat n.toNat l)).vget a.toNat, 0#5)) fun l hl => ?_
    · intro _ hl
      obtain ⟨u, hu, rfl⟩ := List.mem_map.mp hl
      have hmem : u ∈ ls := partLanes_subset hu
      rw [hsrc u hmem]
      exact shuffled_lt _ n.isLt (h.issues.lanes u hmem)
    · rw [← hsrc l hl]
      rfl
  case scan =>
    intro o f e h hcode
    rw [exec_scan, execScan]
    refine h.crossbarWord (by decide) (foldOk_of_integer_or_f32 hcode) hvregs hfree ht ?_
      (fun l _ => folded o.toNat f.toNat (((takersOf g ls 0).filter fun u => if e = 1#1 then decide (u < l) else decide (u ≤ l)).map
        fun u => (g.thread u).vget a.toNat)) fun l _ => ?_
    · exact fun l hl => h.issues.lanes l (partLanes_subset hl)
    · rw [partLanes_free 0 hfree, scanResult_eq_folded]
      simp only [beq_iff_eq]
      rfl
  case rdx =>
    intro o f h hcode
    rw [exec_rdx, execRdx]
    refine h.crossbarWord (by decide) (foldOk_of_integer_or_f32 hcode) hvregs hfree ht ?_
      (fun _ _ => (rdxTree g a.toNat o.toNat f.toNat (takersOf g ls 0) 5 0).getD (0#32, 0#5)) fun l _ => ?_
    · exact fun l hl => h.issues.lanes l (partLanes_subset hl)
    · rw [partLanes_free 0 hfree]
      rfl

end Sys2Proof.Machine
end

section
/-!
SUPPORT. The system registers: what `SYSRD` reads of each and which latches it sets, and what `SYSWR` writes.
-/
namespace Sys2Proof.Machine
open Sys2Proof Sys2Proof.Claims

/-- A core's die: cores 0 to 95 stand on die 0, the others on die 1. -/
theorem State.die_dieOf (s : State) (core : Nat) : s.die (dieOf core) = if core < 96 then s.die0 else s.die1 := by
  unfold State.die dieOf
  by_cases h : core < 96
  · rw [if_pos h, if_pos (Nat.div_eq_of_lt h)]
  · rw [if_neg h, if_neg (by omega)]

/-- Each register of R374 and R426 is assigned, reads as its row says and sets the latches of its row. -/
theorem systemRows_read (s : State) (g : Group) :
    ∀ row ∈ systemRows s g, sysAssigned row.1.toNat = true ∧ sysValue s g row.1.toNat = row.2.1 ∧ sysLatch s row.1.toNat g = row.2.2 := by
  unfold sysValue sysLatch systemRows
  simp only [State.die_dieOf, List.forall_mem_cons, bitsOf_zero_lo]
  exact ⟨⟨rfl, rfl, rfl⟩, ⟨rfl, rfl, rfl⟩, ⟨rfl, rfl, rfl⟩, ⟨rfl, rfl, rfl⟩, ⟨rfl, rfl, rfl⟩, ⟨rfl, rfl, rfl⟩, ⟨rfl, rfl, rfl⟩, ⟨rfl, rfl, rfl⟩,
    ⟨rfl, rfl, rfl⟩, ⟨rfl, rfl, rfl⟩, ⟨rfl, rfl, rfl⟩, ⟨rfl, rfl, rfl⟩, ⟨rfl, rfl, rfl⟩, List.forall_mem_nil _⟩

@[simp] theorem sysLatch_uid (s : State) (n : Nat) (g : Group) : (sysLatch s n g).uid = g.uid := by
  unfold sysLatch
  split
  · rfl
  · split <;> rfl

@[simp] theorem sysLatch_threads (s : State) (n : Nat) (g : Group) : (sysLatch s n g).threads = g.threads := by
  unfold sysLatch
  split
  · rfl
  · split <;> rfl

/-- A word whose checks are those of its hints, its codes and one scalar register passes them (R99). -/
theorem Need.detail_sreg {s : State} {g : Group} {ls : List Nat} {op : Nat} {st : Bool} {d : Nat} {b : Bool} (ho : op < 256)
    (hacc : acceptsHints op (hintsOf g ls) = true) (hb : b = true) (hd : d < 192) :
    ({ codeOk := b, sregs := [(d, 1)] } : Need).detail (s.issueFor g ls op st) = none :=
  Need.detail_none (issueFor_accepts ho hacc) hb (fun r hr => by
    obtain rfl := List.mem_singleton.mp hr
    exact ⟨aligned_one d, hd, hd⟩) (fun _ hr => absurd hr List.not_mem_nil) rfl

/-- Settles O18: a `SYSRD` that does not wait for pending results, and a `SYSWR`, are scalar words with the effects of `systemRows_read` and `fpstWrite`. -/
theorem systemRegisters : Obligations.SystemRegisters := by
  unfold Obligations.SystemRegisters
  intro s g ls st d hd
  refine ⟨?sysrd, ?syswr⟩
  case sysrd =>
    intro ⟨hi, hu, hacc⟩ row hrow hpend
    obtain ⟨hassigned, hvalue, hlatch⟩ := systemRows_read s g row hrow
    have hgo : (row.1 == 0x10#15 && ls.any fun l => !(g.thread l).pend.isEmpty) = false := by
      by_cases hn : row.1 = 0x10#15
      · simpa [hn] using hpend hn
      · simp [hn]
    rw [exec_sysrd, execSysrd, hi.runWord _ _ _ _ (Need.detail_sreg (by decide) hacc hassigned hd)]
    show Host.Outcome.next (if (row.1 == 0x10#15 && ls.any fun l => !(g.thread l).pend.isEmpty) = true then _ else _) = _
    rw [hgo, if_neg Bool.false_ne_true, ← hvalue, ← hlatch]
    exact congrArg _ (hi.scalarSet _ _ _ hu (sysLatch_uid _ _ _) (fun _ => sysLatch_uid _ _ _) (sysLatch_threads _ _ _))
  case syswr =>
    intro ⟨hi, hu, hacc⟩
    rw [exec_syswr, execSyswr, hi.runWord _ _ _ _ (Need.detail_sreg (by decide) hacc rfl hd)]
    exact congrArg _ (hi.scalarSet _ _ (fun x => { x with fpst := fpstWrite x.fpst (g.sget d.toNat) }) hu rfl (fun _ => rfl) rfl)

end Sys2Proof.Machine
end
